-- ==== Sys2Proof/Word.lean ====
section
/-! DEFINITION. The words of the block: bytes, register words, descriptors and quire words (00_scope R4, R5, R9). -/

namespace Sys2Proof

/-- One byte. -/
abbrev Byte := BitVec 8

/-- A 32-bit register, lane or instruction word (R9). -/
abbrev Word32 := BitVec 32

/-- A 64-bit register or tile word (R9, R316). -/
abbrev Word64 := BitVec 64

/-- A 64-byte descriptor read as one little-endian integer (R5, R253). -/
abbrev Desc := BitVec 512

end Sys2Proof
end

