-- ==== Sys2Proof/Syntax.lean ====
section
/-! DEFINITION. The commands of the block, one constructor per row of spec/opcode_table.json, with the facts that
each row brings from outside (a ball level, the bytes of a frame, a measured code) as its operands. -/

namespace Sys2Proof

/-- Who makes a register access (R162, R237, R249): a requester of the host link by its requester ID, or a mover of a context
through the MMIO region. -/
inductive Requester where
  | host (rid : Nat)
  | mover (ctx : Nat)
deriving DecidableEq, Repr

/-- What a configuration request reads: a field of the header (R139) or of an implemented capability (R138), by name, since the spec
gives the capabilities no places in configuration space. -/
inductive CfgField where
  | vendorId | deviceId | revisionId | classCode | subsystemVendorId | subsystemId
  | memorySpaceEnable
  | linkSpeed | linkWidth | maxLinkSpeed | maxLinkWidth
  | powerState | noSoftReset | aspmSupport | aspmControl
  | mpsSupported | mps | mrrs | tenBitTags | extendedTag | flr | cplTimeoutRanges | cplTimeoutValue
  | aerUncorStatus | aerUncorMask | aerCorStatus | aerCorMask | ecrcGen | ecrcCheck | headerLog (n : Nat)
  | msixTableSize | msixBir | msixTableOffset | msixPbaOffset | msixEnable | msixFunctionMask
  | atsQueueDepth | atsPageAligned | atsStu | atsEnable
  | priCapacity | priEnable | priStopped
  | pasidWidth | pasidExecute | pasidPrivileged
  | rebarMin | rebarMax | rebarSize
  | serialNumber
deriving DecidableEq, Repr

/-- A configuration request of the host (R121, R138–R140, R145, R194, R195). Payload and request sizes are in bytes; a 1 in
`clearAer` clears that status bit. -/
inductive CfgReq where
  | read (f : CfgField)
  | setMemEnable (on : Bool)
  | setMsix (enable mask : Bool)
  | setAts (on : Bool)
  | setPri (on : Bool)
  | resetPri
  | setSizes (mps mrrs : Nat)
  | setCplTimeout (value : Nat)
  | setAspm (l1 : Bool)
  | setEcrc (gen check : Bool)
  | setAerMasks (uncor cor : Nat)
  | clearAer (uncor cor : Nat)
deriving DecidableEq, Repr

/-- Whose request an ATS completion answers (R192, R204, R235): a descriptor's, by its issue number, a ring transfer's, or that of
an ADVISE. -/
inductive AtsFor where
  | desc (seq : Nat)
  | ring (write : Bool)
  | advise
deriving DecidableEq, Repr

/-- The digital balls of the slow banks and of the high-speed groups (R48). -/
inductive Ball where
  | ref25 | resetN | perstN | faultN | thermtripN
  | seqEn (n : Nat) | seqPg (n : Nat)
  | pmbScl (b : Nat) | pmbSda (b : Nat) | pmbAlertN (b : Nat)
  | spiClk | spiCsN | spiIo (n : Nat)
  | strap (n : Nat)
  | tbQa | tbQb | tbQz | tbLine | tbMains
  | tbPulse | gate (g : Nat)
  | vpA (n : Nat) | vpCsN | vpOeN | vpD (n : Nat)
  | crdVccEn | crdClass (n : Nat) | crdDir | crdC2 | crdC3 | crdC4 | crdC6 | crdC7 | crdC8 | crdOcN | crdDet
  | pcieTx | claspTx (p : Nat)
  | ddrResetN
  | tdo
deriving DecidableEq, Repr

/-- What the block puts on a ball (R48): a level, high impedance with the pull that remains, an open drain that is released, a
signal that a transfer in progress moves, electrical idle, an input, or nothing, since the pad supply is absent. -/
inductive Drive where
  | low | high | hiz | pd | pu | released | active | idle | input | off
deriving DecidableEq, Repr

/-- How a PMBus transaction ends (R86); `data` are the words that the read of a nominal gave, VOUT_MODE and VOUT_COMMAND. What a
poll and an alert read comes with PMB_POLL and PMB_ALERT. -/
inductive PmbResult where
  | ok (data : List Nat)
  | pecMismatch
  | failed
deriving DecidableEq, Repr

/-- What the NOR flash answers to SFDP discovery (R122); the time limits are left to the senders of the events. -/
structure Sfdp where
  mode : Nat
  eraseSuspend : Bool
  sizeLog2 : Nat
  erase4k : Bool
  addr4b : Bool
deriving DecidableEq, Repr

/-- The status of a PCIe completion (R141). -/
inductive CplStatus where
  | ok
  | unsupported
  | abort
  | poisoned
deriving DecidableEq, Repr

/-- A PRI response code (R193, R194). -/
inductive PriCode where
  | success
  | invalidRequest
  | failure
deriving DecidableEq, Repr

/-- What an ECC check of a granule finds (R171, R172). -/
inductive EccResult where
  | clean
  | correctable
  | uncorrectable
deriving DecidableEq, Repr

/-- A bit error that has arisen in a memory or in a link of the array since the last scrub read (R168, R171, R179, R281): in a
granule of the physical map, a quire entry, the SRAM of the command processor or the translation unit (with the context whose state it
is, 0 for none), or a mullion of a tile; `two` says that two bits of the word are wrong. -/
inductive Upset where
  | mem (addr : Nat) (two : Bool)
  | quire (tile entry : Nat) (two : Bool)
  | internal (translation : Bool) (ctx : Nat) (two : Bool)
  | mullion (tile : Nat)
deriving DecidableEq, Repr

/-- A decoded quadrature sample (R388). -/
inductive QuadStep where
  | up
  | down
  | illegal
deriving DecidableEq, Repr

/-- How a flash operation of a cartridge ends (R451, R468). -/
inductive FlashResult where
  | ok
  | fail
  | indeterminate
deriving DecidableEq, Repr

/-- The parts of the activity model's estimate of the device power over one microsecond, in milliwatts (R365). -/
structure PowerParts where
  core : Nat
  mem : Nat
  link : Nat
  static : Nat
deriving DecidableEq, Repr

/-- What ran under a phase tag in an interval (R368, R369): the tiles that ran it, their activity, the bytes and flits of its
descriptors, and whether it ran throughout. -/
structure TagShare where
  tag : Nat
  tiles : Nat
  act : Nat
  bytes : Nat
  flits : Nat
  steady : Bool
deriving DecidableEq, Repr

/-- What ran for a context in an interval (R379): the activity of the tiles it leases, and the bytes and flits of its traffic. -/
structure CtxShare where
  ctx : Nat
  act : Nat
  bytes : Nat
  flits : Nat
deriving DecidableEq, Repr

/-- Activity of an interval that belongs to no context (R379): that of the CORE domain, bytes and flits. -/
structure RestShare where
  core : Nat
  bytes : Nat
  flits : Nat
deriving DecidableEq, Repr

/-- A message that a clasp link carries (R482). -/
structure ClaspMsg where
  mtype : Nat
  src : Nat
  dst : Nat
  tag : Nat
  sctx : Nat
  offset : Nat
  arg : Nat
  data : List Byte
  len : Nat := 0
deriving DecidableEq, Repr

/-- The commands of the block. The operands with a default are those that a sender may leave out: the requester is then host function 0,
and nothing more is said than the command itself (DESIGN CHOICE, log entry 120). -/
inductive Instr where
  -- register accesses (chapter 00, 06)
  | regWrite (req : Requester) (off width val : Nat)
  | misalignedAccess (off rid : Nat)
  | reg64LowRead (off : Nat) (req : Requester := .host 0)
  | reg64LowWrite (req : Requester) (off val : Nat)
  | reg64HighWrite (req : Requester) (off val : Nat)
  | domainOffAccess (off rid : Nat)
  -- resets, balls and the test port (chapters 02, 05, 06, 23)
  | powerOnReset
  | aonSupplyDrop
  | strapSample (balls : BitVec 8)
  | testEnHigh
  | resetNAssert
  | resetNRelease
  | perstAssert
  | perstDeassert
  | flr
  | d3hotEntry
  | d3hotToD0
  | configRequest (req : CfgReq)
  | jtagBypass
  | jtagIdcode
  | jtagSamplePreload (levels cells : List (Ball × Bool) := [])
  | jtagExtest
  -- rail sequencer (chapter 03)
  | romPreamble
  | seqEnd
  | seqEnable
  | seqDisable
  | seqWait
  | seqWaitExpire
  | seqWaitpg
  | waitpgSatisfied
  | waitpgTimeout
  | seqCheck
  | seqJump
  | seqJumpif
  | seqMargin
  | marginDone (ok : Bool)
  | seqLog
  | progTimeout
  | armTimerExpire (ch : Nat)
  | seqPgRise (ch : Nat)
  | seqPgFall (ch : Nat)
  | pgLost (ch : Nat)
  | adcConversion (input code : Nat)
  | retryRail (ch : Nat)
  | retryBackoffExpire (ch : Nat)
  | retryPgTimeout (ch : Nat)
  | retryHealthyExpire (ch : Nat)
  | groupShutdown (g : Nat)
  | groupOffdlyExpire
  | systemReset
  | sysresetOffStep
  | sysresetWaitExpire
  | rstCountClear
  | swreset (req : Requester := .host 0)
  | hostMargin (ch step : Nat) (req : Requester := .host 0)
  | faultnRelease
  | faultnReleaseCheck (low : Bool)
  | faultnExt
  | faultnGuardExpire
  | faultnStuck
  | pmbPoll (ch status vout iout : Nat) (pages : List Nat)
  | pmbAlert (bus ch status : Nat)
  | pmbTransactionDone (bus : Nat) (r : PmbResult)
  | pmbStuck (bus : Nat)
  | pmbRecoveryTimer (bus : Nat) (free : Bool)
  -- locket, brown-out, thermal trip (chapter 04)
  | locketNorOpDone (ok : Bool)
  | locketEraseDone (ok : Bool)
  | locketOpTimeout
  | locketStartupScan
  | locketRead (idx : Nat) (req : Requester := .host 0)
  | locketReadDone
  | gaugeTick
  | vinSenseTrip (code : Nat)
  | brownoutRailOff
  | brownoutRestart
  | thermalTrip (sensor temp : Nat)
  | thermtripRailOff
  -- boot (chapter 05)
  | sfdpDiscovery (answer : Option Sfdp)
  | norReadTimeout (idx : Nat := 0)
  | bootHeaderReadDone (bytes : List Byte)
  | bootImageReadDone (bytes : List Byte)
  | bootVerifyDone
  | bootConfig
  | dramWorkStart
  | dramTrainingDone (results : List (Nat × Nat × Bool))
  | dramInitDone
  | standaloneStart
  | standaloneLoad
  | standingGo (req : Requester := .host 0)
  | wdtKick (val : Nat) (req : Requester := .host 0)
  | watchdogExpire
  -- host interface (chapter 06)
  | bar2Resize (k : Nat)
  | bar2Read (off len rid : Nat)
  | bar2Write (off rid : Nat) (bytes : List (Option Byte))
  | p2pWrite (rid off : Nat) (bytes : List (Option Byte))
  | apertureEnable (k : Nat) (req : Requester := .host 0)
  | msixTableWrite (off width val : Nat) (req : Requester := .host 0)
  | moverCompletion (q idx addr : Nat) (st : CplStatus) (bytes : List Byte)
  -- memory (chapter 07)
  | sharedSramClear
  | scrubRead (addr : Nat) (r : EccResult) (upsets : List Upset := [])
  | keySlotLoad (slot : Nat) (req : Requester := .host 0)
  | zeroize (slot : Nat) (req : Requester := .host 0)
  | keySlotQuery (slot : Nat) (req : Requester := .host 0)
  -- contexts and translation (chapter 08)
  | create (req : Requester := .host 0)
  | destroy (req : Requester := .host 0)
  | bind (req : Requester := .host 0)
  | unbind (req : Requester := .host 0)
  | setRoot (req : Requester := .host 0)
  | pin (req : Requester := .host 0)
  | unpin (req : Requester := .host 0)
  | unpinComplete (ctx idx : Nat)
  | ctxQuery (req : Requester := .host 0)
  | pageWalkDone (q idx va : Nat) (write : Bool)
  | killRevocationDone (ctx : Nat)
  | atsCompletion (q : Nat) (who : AtsFor) (va pa size : Nat) (r w u : Bool)
  | priResponse (prg : Nat) (code : PriCode)
  | priTimeout (prg : Nat)
  | atsInvalidate (itag : Nat) (pasid : Option Nat) (base size : Nat)
  | invalidateReadsDrained
  -- pre-emption, kill and events (chapter 09)
  | graceExpire (q : Nat)
  | preempt (req : Requester := .host 0)
  | preemptStopDone (q : Nat)
  | preemptSaveDone (q : Nat)
  | preemptClearDone (q latencyNs : Nat)
  | restoreStart (q : Nat)
  | restoreDone (q timeNs : Nat)
  | resume (req : Requester := .host 0)
  | kill (req : Requester := .host 0)
  | setSpill (req : Requester := .host 0)
  | clearSpill (req : Requester := .host 0)
  | preemptQuery (req : Requester := .host 0)
  | evtRingEnable (val : Nat) (req : Requester := .host 0)
  | evtHeadWrite (head : Nat) (req : Requester := .host 0)
  | savePoolWrite (size : Nat) (req : Requester := .host 0)
  -- queues and the command set (chapter 10)
  | doorbell (req : Requester) (q tail : Nat)
  | queueEnable (req : Requester) (q cfg : Nat)
  | queueDisable (req : Requester) (q : Nat)
  | queueResume (req : Requester) (q : Nat)
  | semValWrite (req : Requester) (sem val : Nat)
  | semCfgWrite (req : Requester) (sem val : Nat)
  | descriptorFetch (q : Nat) (entries : List Desc) (ok : Bool)
  | reservedOpcode (q : Nat)
  | nop (q : Nat)
  | dma (q : Nat)
  | dmaComplete (q idx : Nat)
  | dispatchAcquire (q : Nat)
  | dispatchRun (q : Nat)
  | dispatchRelease (q : Nat)
  | leaseGrant (q : Nat)
  | tileClearDone (n : Nat)
  | fence (q : Nat)
  | fenceFlushDone (q : Nat)
  | signalAdd (q : Nat)
  | signalSet (q : Nat)
  | wait (q : Nat)
  | waitTimeout (q : Nat)
  | waitPosition (q t : Nat)
  | atPosition (q t : Nat)
  | verdictWrite (q t : Nat)
  | gateArm (q t : Nat)
  | prefetch (q : Nat)
  | advise (q : Nat)
  | tableUpdate (q : Nat)
  | powerHint (q : Nat)
  | cardReadRecipe (q : Nat)
  | cardReadPartition (q : Nat)
  | claspBarrier (q : Nat)
  | mirrorCommit (q t : Nat)
  -- shutters (chapters 01, 16)
  | shutterClose (n : Nat)
  | shutterWakeStart (n : Nat)
  | shutterWakeDone (n : Nat)
  -- tile sequencer (chapter 14)
  | tileEnd (n : Nat)
  | tileNop (n : Nat)
  | br (n : Nat)
  | bcc (n : Nat)
  | jr (n : Nat)
  | loop (n : Nat)
  | add (n : Nat)
  | sub (n : Nat)
  | and (n : Nat)
  | or (n : Nat)
  | xor (n : Nat)
  | shl (n : Nat)
  | shr (n : Nat)
  | sra (n : Nat)
  | mul (n : Nat)
  | min (n : Nat)
  | max (n : Nat)
  | addi (n : Nat)
  | li (n : Nat)
  | lih (n : Nat)
  | ld (n : Nat)
  | st (n : Nat)
  | storeComplete (n : Nat)
  | get (n : Nat)
  | put (n : Nat)
  | seta (n : Nat)
  | setb (n : Nat)
  | rsv (n : Nat)
  | rsvGrant (n : Nat)
  | mma (n : Nat)
  | mmaRendezvous (n : Nat)
  | passDrainComplete (n : Nat)
  | convert (n : Nat)
  | convertStart (n : Nat)
  | convertComplete (n : Nat)
  | vop (n : Nat)
  | twait (n : Nat)
  | twaitSatisfied (n : Nat)
  | gbar (n : Nat)
  | gbarRelease (n : Nat)
  | rendezvousDeadlock (n : Nat)
  -- vector unit (chapter 15)
  | vnop (n : Nat)
  | vld (n : Nat)
  | vst (n : Nat)
  | vmov (n : Nat)
  | vgetr (n : Nat)
  | vflags (n : Nat)
  | vadd (n : Nat)
  | vsub (n : Nat)
  | vmul (n : Nat)
  | vfma (n : Nat)
  | vmax (n : Nat)
  | vmin (n : Nat)
  | vmaxnum (n : Nat)
  | vminnum (n : Nat)
  | vsgnAbs (n : Nat)
  | vsgnNeg (n : Nat)
  | vsgnCopysign (n : Nat)
  | vcmp (n : Nat)
  | vsel (n : Nat)
  | exp (n : Nat)
  | exp2 (n : Nat)
  | log (n : Nat)
  | log2 (n : Nat)
  | rcp (n : Nat)
  | rsqrt (n : Nat)
  | sqrt (n : Nat)
  | div (n : Nat)
  | tanh (n : Nat)
  | sigmoid (n : Nat)
  | erf (n : Nat)
  | gelu (n : Nat)
  | redSum (n : Nat)
  | redMax (n : Nat)
  | redMin (n : Nat)
  | redMaxnum (n : Nat)
  | redMinnum (n : Nat)
  | vsmx1 (n : Nat)
  | vsmxm (n : Nat)
  | vsmx2 (n : Nat)
  | vwel1 (n : Nat)
  | vwelc (n : Nat)
  | vwelm (n : Nat)
  -- power and thermal control (chapter 16)
  | powerInterval (tags : List TagShare) (ctxs : List CtxShare) (rest : RestShare)
  | activityModelTick (parts : PowerParts)
  | edcTick
  | droopDetect
  | droopHoldExpire
  | sensorUpdate (sensor temp : Nat) (fail : Bool)
  | vsettleExpire
  | dvfsVoltageDown
  | phaseRestore (req : Requester := .host 0)
  | offer (src point : Nat)
  | lsMemberLost (chip : Nat)
  -- timebase, gates, verdict port (chapter 17)
  | quadEdge (t : Nat) (step : QuadStep)
  | pulseEdge (t : Nat)
  | mainsEdge (t : Nat)
  | indexEdge (t : Nat)
  | sourceLoss (t : Nat)
  | holdoverExpire (t : Nat)
  | slewComplete (t : Nat)
  | holdbackEnd (t : Nat)
  | tbEnWrite (t : Nat) (req : Requester) (val : Nat)
  | hostStep (t : Nat) (req : Requester) (step : Nat)
  | alarmFire (t slot : Nat)
  | verdictUpdate (t : Nat)
  | gateEdge (t g : Nat)
  | waitPositionReached (t q : Nat)
  | tbPulseStart (t : Nat)
  | tbPulseEnd (t : Nat)
  | verdictClear (req : Requester := .host 0)
  | vpReadCycle (a : Nat) (csN oeN : Bool)
  | vpCapture
  -- card slot and ISO mode (chapter 18)
  | cardDetEdge (level : Bool)
  | cardInserted
  | cardRemoved
  | cardOvercurrent
  | activate (req : Requester := .host 0)
  | activationTimer
  | atrTimeout
  | atrReceived (bytes : List Byte) (parityOk : Bool)
  | ppsResponse (bytes : List Byte)
  | ppsTimeout
  | t1BlockReceived (bytes : List Byte) (parityOk : Bool)
  | t1Timeout
  | deactivate (req : Requester := .host 0)
  | warmReset (req : Requester := .host 0)
  | exchange (req : Requester := .host 0)
  | keyLoad (req : Requester := .host 0)
  | clockStop (req : Requester := .host 0)
  | clockStopped
  | clockRestart (req : Requester := .host 0)
  -- Crimin block protocol (chapter 19)
  | enterWide (req : Requester := .host 0)
  | wideSwitchTimer
  | cbpSleep (req : Requester := .host 0)
  | cbpWake (req : Requester := .host 0)
  | sleepIdleExpire
  | raw (req : Requester := .host 0)
  | iFrameReceived (frame : List Byte)
  | rFrameReceived (frame : List Byte)
  | wtxRequest (m : Nat)
  | resynchResponse
  | sleepResponse
  | wakeResponse
  | frameWaitTimeout
  -- cartridge media (chapter 20)
  | mount (req : Requester := .host 0)
  | unmount (req : Requester := .host 0)
  | flush (req : Requester := .host 0)
  | append (req : Requester := .host 0)
  | mediaPageReadDone (raw : List Byte)
  | mediaProgramDone (r : FlashResult)
  | mediaEraseDone (r : FlashResult)
  | patrolRead
  | refresh
  | logFlushExpire
  | logHeadSearch (block page seq stamp erases : Nat)
  -- clasp links (chapter 21)
  | clsPortEnWrite (p val : Nat) (req : Requester := .host 0)
  | linkUp (p rate width peer : Nat)
  | linkFailed (p reason : Nat)
  | flitReceived (p : Nat) (flit : BitVec 256)
  | replayTimeout (p : Nat)
  | messageForward (hop : Nat) (m : ClaspMsg)
  | write (m : ClaspMsg)
  | read (m : ClaspMsg)
  | wack (m : ClaspMsg)
  | rdata (m : ClaspMsg)
  | reject (m : ClaspMsg)
  | reqTimeout (tag : Nat)
  | arrive (m : ClaspMsg)
  | abandon (m : ClaspMsg)
  | barrierTimeout (b : Nat)
  -- cufflink pair (chapter 22)
  | hello (role chipId gen step recipe ocrc : Nat) (loaded : Bool)
  | heartbeat (role commit : Nat)
  | heartbeatSend
  | takeover (t : Nat)
  | partnerLost
  | aloneExpire
  | mirror (commit part : Nat) (bytes : List Byte)
  | mirrorEnd (t commit what parts : Nat)
  | mirrorAck (commit : Nat)
  | mirrorAckTimeout
  | posReq (t : Nat)
  | pos (t rttNs p v : Nat)
  | posExchangeTimer
  | switchover (req : Requester := .host 0)
  | switchoverCapture (t : Nat)
  | release (t commit : Nat)
  | pairSleep (req : Requester := .host 0)
  | sleepMessage (ack : Bool)
  | pairWake (req : Requester := .host 0)
  -- rows that close gaps of the chapters above
  | completionTimeout (q idx : Nat)
  | hostCreditsReturned (n : Nat := 1)
  | pcieLinkUp (speed width : Nat) (credits : Nat := 1)
  | ref25Loss
  | ref25Return
  | retryAttemptSuccess (ch : Nat)
  | atrCharacterTimeout
deriving DecidableEq, Repr

end Sys2Proof
end

