-- ==== Sys2Proof/Decode.lean ====
section
/-! DEFINITION. Which command a word of the opcode table spells. The table of this block gives no row any bits (98_reader:
0 rows with fields), so no word spells a command (log entry 6). -/

namespace Sys2Proof

/-- The command that an `nbits`-bit word spells: none, since no row of the table has bits. -/
def decodeTableWord (_nbits _w : Nat) : Option Instr := none

end Sys2Proof
end

