-- ==== Sys2Proof/Config.lean ====
section
/-! DEFINITION. What an implementation fixes, and the free values: constants without a body, of which no proof can see
a value (guide: free values). -/

namespace Sys2Proof.Config

/-- A byte of DRAM whose initialisation was skipped and that nothing has written since (R131, R528): free, by epoch of
training and address (log entry 10). -/
opaque freeByte : Nat → Nat → BitVec 8

/-- One less than the entries that the DRAM write queue holds (R30): no rule gives its depth (log entry 107). -/
opaque writeQueue : Nat

/-- The fused 64-bit die identifier (R138): free (log entry 2). -/
opaque dieId : BitVec 64

/-- A value the spec leaves open, by a counter the state holds (log entry 12). -/
opaque freeValue : Nat → BitVec 64

/-- A result of a special function whose last bit the enclosure of the model does not decide, by function code and
operand bits (log entry 13). -/
opaque freeResult : Nat → Nat → BitVec 32

/-- The block code of a DEVICE_ERROR record, by event source (R103, R229): no rule gives one (log entry 26). -/
opaque blockCode : Nat → BitVec 8

/-- GLB_FUSE.ENC_EN (R160): DESIGN CHOICE, log entry 2. -/
def fuseEnc : Nat := 1
/-- GLB_FUSE.CLASP_EN (R160): DESIGN CHOICE, log entry 2. -/
def fuseClasp : Nat := 1
/-- GLB_FUSE.PAIR_EN (R160): DESIGN CHOICE, log entry 2. -/
def fusePair : Nat := 1
/-- BOOT_KEYHASH (R137): DESIGN CHOICE, log entry 2. -/
def keyHash (_ : Nat) : Nat := 0
/-- GLB_FUSE.KEYHASH_SET (R160): set when BOOT_KEYHASH is not all zero. -/
def fuseKeyhashSet : Nat := 0
/-- PWR_FUSE.CAP_MIN in watts (R360): the lower end of the range 25–95 W of 00_scope. -/
def capMin : Nat := 25
/-- PWR_FUSE.CAP_MAX in watts (R360): the upper end of the range 25–95 W of 00_scope. -/
def capMax : Nat := 95
/-- PWR_FUSE.REPEAT_IDX: DESIGN CHOICE, log entry 2. -/
def repeatIdx : Nat := 10
/-- PWR_FUSE.REPEAT_CAP in watts: DESIGN CHOICE, log entry 2. -/
def repeatCap : Nat := 50
/-- PWR_EDC.EDC_A in units of 0.25 A (R523). -/
def edcA : Nat := 560
/-- PWR_VF[g][k], the voltage code of point k in temperature group g: DESIGN CHOICE, log entry 2. -/
def vf (_ k : Nat) : Nat :=
  if k ≤ 10 then 13 + k else if k = 11 then 27 else if k = 12 then 31 else if k = 13 then 37 else 45

end Sys2Proof.Config
end

