-- ==== Sys2Proof/Machine/State.lean ====
section
/-! DEFINITION. The state of the block as plain data: every register field (in two field files, one of the
always-on domain and one of the rest), every buffer, queue, engine and ball the spec gives the block, and the queue of
waiting commands. Every structure's default values are its values at power-on reset. -/

namespace Sys2Proof.Machine

/-- A sparse map with Nat keys: strictly rising keys, no entry equal to the default of its reader. -/
abbrev FMap (α : Type) := List (Nat × α)

/-! ### Always-on domain: rail sequencer, supervision, locket (chapters 02, 03, 04) -/

/-- The boundary-scan instruction in the test access port (R57). -/
inductive TapIr where
  | bypass | idcode | sample | extest
deriving DecidableEq, Repr

/-- Which program the sequencer engine runs (R63, R64). -/
inductive ProgSrc where
  | preamble | image | remainder
deriving DecidableEq, Repr

/-- What the sequencer engine waits for (R68); `resume` is the end of every reaction, after which the next instruction follows. -/
inductive EngWait where
  | none
  | resume
  | time
  | pg (chs : List Nat)
  | margin (ch step : Nat)
  | logRoom (code : Nat)
  | boot
deriving DecidableEq, Repr

/-- The phase of a RETRY_RAIL reaction of one rail (R78). -/
inductive RetryPhase where
  | idle | backoff | waitPg | verify (scans : Nat)
deriving DecidableEq, Repr

/-- A reaction of the fault engine (R77). -/
inductive React where
  | ignore | retryRail | groupShutdown | systemReset
deriving DecidableEq, Repr

/-- A cause that waits for its reaction (R82): the cause value, the channel concerned, and the group for a
GROUP_SHUTDOWN that no channel names. -/
structure PendReact where
  react : React
  cause : Nat
  ch : Option Nat
  group : Nat := 0
  count : Bool := true
deriving DecidableEq, Repr

/-- The reaction in progress (R78–R80). `offs` are the channels still to be switched off, in order; `sysWait` is the 100 ms
wait, `sysGuard` the wait for FAULT_N that follows it (R85), `latchGuard` that wait after RESET_N has ended LATCHOFF, `brownGuard`
that wait after a brown-out (R111). -/
inductive Reacting where
  | none
  | retry (ch : Nat)
  | group (g : Nat) (offs : List Nat)
  | sysOff (offs : List Nat) (count latch : Bool)
  | sysWait (count : Bool)
  | sysGuard
  | latchGuard
  | brownGuard
deriving DecidableEq, Repr

/-- What the model keeps of one rail channel beside its registers (R60, R73, R77, R78, R86, R90): the level of SEQ_PG, what arms
the channel, whether this fall of SEQ_PG has raised PG_LOST, whether the last STATUS_WORD reported a fault, the onset of IGNORE, and
of its regulator the margin, the nominal, and VOUT_MODE's exponent and whether its mode is not ULINEAR16. -/
structure Rail where
  pg : Bool := false
  armTimer : Bool := false
  pgArm : Bool := false
  pgReported : Bool := false
  pmbBad : Bool := false
  retry : RetryPhase := .idle
  onset : Bool := false
  margin : Nat := 10
  nominal : Option Nat := none
  vexp : Nat := 0
  badMode : Bool := false
deriving DecidableEq, Repr

/-- A PMBus transaction (R87, R90). A margin step is held as step + 10, so that 10 is no margin. `nominal` is the read of
VOUT_MODE and VOUT_COMMAND when a rail first arms; `restore` rewrites the margined value after a rail re-arms. A poll and an alert
carry what they will read: STATUS_WORD, READ_VOUT, READ_IOUT and the STATUS_WORDs of the phase pages; and the responding channel
with its STATUS_WORD. -/
inductive PmbTxn where
  | coreVoltage (code : Nat)
  | alert (ch status : Nat)
  | clearFaults (ch : Nat)
  | nominal (ch : Nat)
  | margin (ch step : Nat) (host : Bool)
  | restore (ch : Nat)
  | poll (ch status vout iout : Nat) (pages : List Nat)
deriving DecidableEq, Repr

/-- One PMBus bus (R86–R88). -/
structure PmbBus where
  txn : Option PmbTxn := none
  wait : List PmbTxn := []
  last : Nat := 0
  pecRetried : Bool := false
  recovery : Nat := 0
deriving DecidableEq, Repr

/-- A locket record before it is programmed (R100): its type, its flags, and bytes 8 to 55 as one number, taken when the
record is raised; SEQNUM, flag DROPPED_BEFORE and the CRC are added when it is written. -/
structure LRec where
  type : Nat
  flags : Nat := 0
  mid : Nat := 0
deriving DecidableEq, Repr

/-- The locket writer's program in progress (R102). -/
inductive LProg where
  | none
  | body (slot : Nat) (rec : BitVec 512)
  | head (slot : Nat) (rec : BitVec 512)
deriving DecidableEq, Repr

/-- The locket: its 4,096 slots in flash and its writer (R97–R108). -/
structure Locket where
  slots : FMap (BitVec 512) := []
  queue : List LRec := []
  urgent : List LRec := []
  prog : LProg := .none
  erasing : Option Nat := none
  needErase : List Nat := []
  fails : Nat := 0
  started : Bool := false
  hasNewest : Bool := false
  porCount : Nat := 0
  droppedBefore : Bool := false
  reading : Option Nat := none
  tmax : Nat := 0
  tsensor : Nat := 0
  frac : Nat := 0
  cur : Option LRec := none
deriving DecidableEq, Repr

/-- The brown-out sequence (R107–R111). `refused` says that the decision conversion was below VMIN, `therm` that the decided record
carries THERM. -/
structure Brownout where
  tripped : Bool := false
  offs : List Nat := []
  deciding : Bool := false
  writing : Bool := false
  refused : Bool := false
  therm : Bool := false
  follow : Option (Nat × Nat) := none
  vinCode : Nat := 0
deriving DecidableEq, Repr

/-- The thermal-trip path (R112, R113). -/
structure Thermtrip where
  trip : Bool := false
  lineLow : Bool := false
  offs : List Nat := []
  recorded : Bool := false
  done : Bool := false
  sensor : Nat := 0
  temp : Nat := 0
deriving DecidableEq, Repr

/-- FAULT_N as this device sees and drives it beside the register bits (R83–R85). -/
structure FaultN where
  extLow : Bool := false
  releaseCheck : Bool := false
  guardWait : Bool := false
deriving DecidableEq, Repr

/-! ### What goes outward -/

/-- A host memory address as a request carries it (R192, R195): with the PASID of a context, untranslated or translated; the event
ring's bus addresses have none. -/
structure HostAt where
  addr : Nat
  pasid : Option Nat := none
  translated : Bool := false
deriving DecidableEq, Repr

/-- What the block has sent outward, oldest first: PCIe messages, card characters and frames, clasp messages. -/
inductive Out where
  | msix (addr data : Nat)
  | hostWrite (dst : HostAt) (bytes : List Byte)
  | hostRead (src : HostAt) (len : Nat)
  | crs
  | cfgOk
  | cfgData (v : Nat)
  | aerInternal
  | aerP2p (rid : Nat)
  | completion (bytes : List Byte) (poisoned : Bool)
  | unsupported
  | atsRequest (pasid va : Nat) (noWrite : Bool)
  | pageRequest (pasid va prg : Nat) (r w : Bool)
  | invalComplete (itag : Nat)
  | t1 (bytes : List Byte)
  | pps (bytes : List Byte)
  | cbp (frame : List Byte)
  | clasp (port hop : Nat) (m : ClaspMsg)
  | flit (port : Nat) (w : BitVec 256)
  | spiProgram (slot : Nat)
  | pmbus (bus : Nat) (t : PmbTxn) (value : Nat)
  | tdo (w : Nat)
  | scan (cells : List (Ball × Bool))
deriving DecidableEq, Repr

/-- The always-on domain. `adcNext` and `scanNo` are the scan ADC's next input and the number of its scan (R71), `adcRaised` the
excursions that have raised their cause, by input and channel (R72), `coreCode` the voltage code that DVFS requested last (R92),
`cells` and `captured` the boundary-scan cells and what they captured (R57), `sent` what the domain itself has sent. -/
structure Aon where
  regs : FMap Nat := []
  ref25 : Bool := true
  resetN : Bool := true
  perstN : Bool := false
  testEn : Bool := false
  supplyOk : Bool := true
  tap : TapIr := .bypass
  tapOut : Nat := 0
  cells : List (Ball × Bool) := []
  captured : List (Ball × Bool) := []
  sent : List Out := []
  adcNext : Nat := 0
  scanNo : Nat := 0
  adcRaised : List (Nat × Option Nat) := []
  coreCode : Option Nat := none
  strapped : Bool := false
  sfdp : Option Sfdp := none
  ballsReleased : Bool := false
  src : ProgSrc := .preamble
  progLen : Nat := 0
  past : Bool := false
  wait : EngWait := .none
  heldState : Nat := 0
  rails : FMap Rail := []
  enOrder : List Nat := []
  reacting : Reacting := .none
  reactQ : List PendReact := []
  faultN : FaultN := {}
  pmb0 : PmbBus := {}
  pmb1 : PmbBus := {}
  locket : Locket := {}
  brown : Brownout := {}
  therm : Thermtrip := {}
  held32 : FMap Nat := []
  capt32 : FMap Nat := []
deriving DecidableEq, Repr

/-! ### Boot (chapter 05) -/

/-- The DRAM section of an image (R130). -/
structure DramSec where
  channels : Nat
  rate : Nat
  density : Nat
  ecc : Bool
  skipInit : Bool
deriving DecidableEq, Repr

/-- A queue entry of the STANDING section (R133). -/
structure StandQ where
  queue : Nat
  prio : Nat
  log2 : Nat
  ringOffset : Nat
  tail : Nat
deriving DecidableEq, Repr

/-- The STANDING section (R133). -/
structure Standing where
  recipe : Nat
  base : Nat
  max : Nat
  retry : Bool
  hostGo : Bool
  key : Nat
  queues : List StandQ
deriving DecidableEq, Repr

/-- The sections of an accepted image copy (R127). -/
structure Image where
  seqProg : Option (List Nat) := none
  regInit : List (Nat × Nat) := []
  dram : Option DramSec := none
  pcie : Option (Nat × Nat × Nat) := none
  standing : Option Standing := none
deriving DecidableEq, Repr

/-- The boot controller beside its registers (R119, R129, R134, R136). `retryAt` is the read command of the copy that is retried, and
`retries` how often it has been (R124). -/
structure Boot where
  released : Bool := false
  copy : Nat := 0
  tried : Nat := 0
  retryAt : Nat := 0
  retries : Nat := 0
  header : List Byte := []
  bytes : List Byte := []
  image : Image := {}
  romOnly : Bool := false
  redelivery : Bool := true
  dramArmed : Bool := false
  training : Bool := false
  initing : Bool := false
  loaded : Option (Nat × Nat) := none
  loadPos : Nat := 0
  standStep : Nat := 0
  wdtRun : Bool := false
  subsys : Nat × Nat := (0, 0)
  strapErr : Bool := false
deriving DecidableEq, Repr

/-! ### Host interface and outputs (chapter 06) -/

/-- An MSI-X table entry (R527). -/
structure MsixEntry where
  addr : Nat := 0
  data : Nat := 0
  mask : Bool := true
deriving DecidableEq, Repr

/-- A posted request that waits for host credits (R33, R39), with the context and the descriptor (queue and sequence number) whose data
it carries: that data lies in a mover's egress buffer, rank 5 of R30. -/
structure Posted where
  out : Out
  ctx : Option Nat := none
  own : Option (Nat × Nat) := none
deriving DecidableEq, Repr

/-- A read of host memory by a mover (R140, R173): for the descriptor with ring index `idx` and sequence number `seq` of queue `q`, from
its element `elem` on, at virtual address `va`. `live` is false once a pre-emption has given its data up (R223). -/
structure HRead where
  q : Nat
  idx : Nat
  seq : Nat
  elem : Nat
  va : Nat
  src : HostAt
  len : Nat
  live : Bool := true
deriving DecidableEq, Repr

/-- Whose translation or page request it is (R192, R193, R204, R235): a descriptor's, by sequence number, a ring transfer's of a queue,
or that of an ADVISE, with its page and how often it has been requested. -/
inductive Own where
  | desc (seq : Nat)
  | ring (write : Bool)
  | advise (va tries : Nat)
deriving DecidableEq, Repr

/-- An ATS translation request (R192). -/
structure AtsReq where
  q : Nat
  own : Own
  va : Nat
  write : Bool
deriving DecidableEq, Repr

/-- The host interface beside its registers (R138–R158). `mps` and `mrrs` are Max_Payload_Size and Max_Read_Request_Size as the host
programs them; `credits` is the host credit pool in posted requests and `emptySince` when it last ran out; `reads` are the mover reads
that are outstanding and `readWait` those beyond the limit of R140. -/
structure Pci where
  memEnable : Bool := false
  msixEnable : Bool := false
  funcMask : Bool := false
  mps : Nat := 128
  mrrs : Nat := 512
  cplTimeout : Nat := 0
  aspm : Bool := false
  ecrcGen : Bool := false
  ecrcCheck : Bool := false
  aerUncor : Nat := 0
  aerUncorMask : Nat := 0
  aerCor : Nat := 0
  aerCorMask : Nat := 0
  headerLog : List Nat := [0, 0, 0, 0]
  credits : Nat := 0
  emptySince : Option Nat := none
  stalled : List Posted := []
  reads : List HRead := []
  readWait : List HRead := []
  msix : FMap MsixEntry := []
  pba : FMap Bool := []
  resized : Option Nat := none
deriving DecidableEq, Repr

/-! ### Memory (chapter 07) -/

/-- Byte memory over the 44-bit device physical map (R163): listed cells; an unlisted byte reads zero (R528, R131), or,
in DRAM whose initialisation was skipped, the free value of epoch `undef`. -/
structure Memory where
  cells : List Host.Cell := []
  undef : Option Nat := none
deriving DecidableEq, Repr

/-- What the check bits of a memory word say (R168, R171): one bit is wrong, two bits are wrong, or the word is poisoned. -/
inductive Ecc where
  | one | two | poison
deriving DecidableEq, Repr

/-- The state of a key slot (R176). -/
inductive KeyState where
  | empty | host | card
deriving DecidableEq, Repr

/-- A key slot (R175, R176). -/
structure KeySlot where
  st : KeyState := .empty
  key : Nat := 0
deriving DecidableEq, Repr

/-! ### Contexts, translation, queues (chapters 08, 09, 10) -/

/-- A pin window (R197, R198). -/
structure PinWin where
  base : Nat
  len : Nat
  key : Nat
  w : Bool
  va : Nat
deriving DecidableEq, Repr

/-- An advice range (R204); `age` is larger for a newer range. -/
structure Advice where
  lo : Nat
  hi : Nat
  kind : Nat
  age : Nat
deriving DecidableEq, Repr

/-- A context (R181–R184, R197, R204, R222, R228, R379). State 0 FREE, 1 ACTIVE, 2 KILLED. `unpin` is the window whose UNPIN
waits, `marks` the operations of its tiles that it waits for (R199); `saveRec` is its save record. -/
structure Ctx where
  state : Nat := 0
  cause : Nat := 0
  root : Nat := 0
  pasid : Option Nat := none
  pins : FMap PinWin := []
  unpin : Option Nat := none
  marks : List (Nat × Nat) := []
  advice : List Advice := []
  spill : Option (Nat × Nat) := none
  hold : Bool := false
  preCount : Nat := 0
  saveRec : Option Nat := none
  revoking : Bool := false
  destroying : Bool := false
  lastHost : Option HostAt := none
  killData : Nat × Nat × Nat := (0, 0, 0)
  energy : Nat := 0
  frac : Nat := 0
deriving DecidableEq, Repr

/-- A translation that a mover holds for one stream of a descriptor (R190): `dst` for the stream that writes, `host` for a host-half
page, `untr` for one whose requests go out untranslated (R192). -/
structure HeldTr where
  va : Nat
  pa : Nat
  key : Nat := 0
  size : Nat
  host : Bool := false
  dst : Bool
  untr : Bool := false
deriving DecidableEq, Repr

/-- The state of an issued descriptor (R211). -/
inductive DState where
  | queued | running | paused | suspended | stopped | done | abandoned
deriving DecidableEq, Repr

/-- An issued, uncompleted descriptor (R211–R213, R241). `seq` orders issues over all queues; `inval` and `upd` say which
pauses hold it; `faultVa` and `faultW` are the page and the stream at which it suspends, `prg` its page request, `pri` a recorded
response and `again` the pages whose translations an invalidation took; `progress` is the offset at which it resumes: the elements moved,
or the address or the bytes reached; `toAck` and `acked` count its requests and their replies, `asked` is the element up to which a DMA
has read or sent reads, `rdata` the data that has been read, by its first element, `endAs` how it completes once every reply is in (R485), and `zeros` the status and DATA1 of a failed CARD_READ whose first bytes are
still to be zeroed (R252). -/
structure Issued where
  idx : Nat
  d : Desc
  seq : Nat
  st : DState := .running
  held : List HeldTr := []
  inval : Bool := false
  upd : Bool := false
  again : List (Nat × Bool) := []
  faultVa : Nat := 0
  faultW : Bool := false
  prg : Option Nat := none
  priTries : Nat := 0
  pri : Option PriCode := none
  acked : Nat := 0
  toAck : Nat := 0
  progress : Nat := 0
  asked : Nat := 0
  cnts : Nat × Nat × Nat := (0, 0, 0)
  satisfied : Bool := false
  flushing : Bool := false
  wait : Bool := false
  rdata : List (Nat × List Byte) := []
  endAs : Option (Nat × Nat × Nat) := none
  zeros : Option (Nat × Nat) := none
deriving DecidableEq, Repr

/-- The pre-emption phase of a queue (R223, R226). -/
inductive PrePhase where
  | running | stop | save | clear | preempted | restoring
deriving DecidableEq, Repr

/-- The ring transfers of one kind, fetches or records (R235): whether they wait for a host page, which one, how often it has been
requested, and the translation that the next of them uses. -/
structure RingSide where
  waits : Bool := false
  va : Nat := 0
  tries : Nat := 0
  tr : Option HeldTr := none
deriving DecidableEq, Repr

/-- A completion record that has not been written (R235, R256). -/
structure PendRec where
  i : Issued
  time : Nat
  st : Nat
  d0 : Nat
  d1 : Nat
deriving DecidableEq, Repr

/-- A queue beside its registers (R233–R243). `back` says that TAIL was written behind the entries fetched (R236), `recs` are the
records that wait for their ring page, `waitSeq` is when its head began to wait for tiles and `grace` says that it has waited the
GRACE time (R220, R221). -/
structure Queue where
  fetched : List Desc := []
  issued : List Issued := []
  pre : PrePhase := .running
  preHost : Bool := false
  leaseSeq : Nat := 0
  minUntil : Nat := 0
  savedLease : Nat := 0
  block : Option Nat := none
  unread : Nat := 0
  pairHold : Bool := false
  back : Bool := false
  rfetch : RingSide := {}
  rrec : RingSide := {}
  recs : List PendRec := []
  waitSeq : Option Nat := none
  grace : Bool := false
deriving DecidableEq, Repr

/-- An outstanding page request of the PRG pool (R193). -/
structure Prg where
  q : Nat
  own : Own
  ctx : Nat
  live : Bool
deriving DecidableEq, Repr

/-- A queued ATS invalidation (R196); `sent` says that its completion is on its way. -/
structure Inval where
  itag : Nat
  pasid : Option Nat
  base : Nat
  size : Nat
  sent : Bool := false
deriving DecidableEq, Repr

/-- The event unit beside its registers (R229–R231). `merged` holds, by source, the number of its merged fatals, their class and the
last context among them. -/
structure Evt where
  merged : FMap (Nat × Nat × Option Nat) := []
  creditSlots : List (Nat × Nat) := []
  lostBefore : Bool := false
  unread : Nat := 0
deriving DecidableEq, Repr

/-! ### Tiles (chapters 11–15) -/

/-- A shutter (R20, R364). -/
inductive Shutter where
  | closed | waking | opened
deriving DecidableEq, Repr

/-- A hardware loop of the tile sequencer (R320). -/
structure Loop where
  start : Nat
  stop : Nat
  count : Nat
deriving DecidableEq, Repr

/-- A stream descriptor (R314, R324). -/
structure Stream where
  base0 : Nat := 0
  base1 : Nat := 0
  step : Nat := 0
  adv : Bool := false
deriving DecidableEq, Repr

/-- An MMA as decoded at its issue (R328). -/
structure MmaOp where
  k : Nat
  anchor : Int
  fmtA : Nat
  fmtB : Nat
  fold : Bool
  sub : Bool
  subShape : Nat
  subOrigin : Nat
deriving DecidableEq, Repr

/-- A bank of one cell (R289): the 80-bit sash integer and the four condition bits of R294. -/
structure Sash where
  s : BitVec 80 := 0
  cond : BitVec 4 := 0
deriving DecidableEq, Repr

/-- A pass on a tile (R269, R279). `cells` are the sash banks of the tile's 4,096 cells; `a` and `b` are the streams that the
tile's own feeders read, where they do; `mark` orders the pass among the tile's operations; `fed` says that its last operand
beat is known to have passed; `cost` is what the pass takes in cycles without stalls (R270, R271). -/
structure Pass where
  op : MmaOp
  seq : Nat
  mark : Nat
  mask : Nat
  bankB : Bool
  fed : Bool := false
  cost : Nat := 0
  a : Option Stream
  b : Option Stream
  cells : List Sash
deriving DecidableEq, Repr

/-- A CONVERT job (R301, R310, R330): its parameter block with both vectors, as read at its issue from address `pb`; `mark`
orders it among the tile's operations. -/
structure Conv where
  pb : Nat
  mark : Nat
  pblock : List Byte
  dst : Nat
  rstride : Nat
  final : Bool
  started : Bool
deriving DecidableEq, Repr

/-- A store that has not completed (R322): its physical address, size in bytes, value and key slot. -/
structure PStore where
  pa : Nat
  size : Nat
  val : Nat
  key : Nat
deriving DecidableEq, Repr

/-- A vector operation in the queue, with its scalars (R331, R340): its number among the tile's operations, and among the VOPs
of the RUN. -/
structure VOp where
  w : BitVec 32
  ra : Word64
  rb : Word64
  rc : Word64
  seq : Nat
  n : Nat
deriving DecidableEq, Repr

/-- What a tile sequencer waits for at its PC (R337). -/
inductive TWait where
  | none | mma | rsv | twait | gbar | other | ending
deriving DecidableEq, Repr

/-- A tile beside its registers and its memory (R314, R340). `resv` is the reserved element size in bits; `mma` the MMA that has
arrived at its rendezvous; `gang` the mask of the RUN's gang; `bar` the mask of a GBAR that waits; `lastMask` the tiles of the
last pass; `quireEcc` are the quire entries with a wrong bit, true for two, and `mullion` says that a mullion of the tile has a parity
error. -/
structure Tile where
  shutter : Shutter := .closed
  clearing : Bool := false
  running : Bool := false
  idleSince : Bool := false
  s : FMap Word64 := []
  pc : Nat := 0
  loops : List Loop := []
  a : Stream := {}
  b : Stream := {}
  resv : Option Nat := none
  live : Nat := 0xFFFFFFFFFFFF
  wait : TWait := .none
  mma : Option MmaOp := none
  stores : List PStore := []
  gang : Nat := 0
  bar : Nat := 0
  passes : List Pass := []
  lastMask : Nat := 0
  bankB : Bool := false
  quire : FMap (BitVec 256) := []
  quireEcc : FMap Bool := []
  mullion : Bool := false
  conv : Option Conv := none
  vq : List VOp := []
  v : FMap Word32 := []
  k : FMap Word64 := []
  opseq : Nat := 0
  vops : Nat := 0
deriving DecidableEq, Repr

/-- A tile saved by a pre-emption (R222, R223): its live-bank mask, the CRC of its spill slot, and, decoded, what the slot's last
64 KiB hold: its registers and units and its register fields (log entry 56). -/
structure Saved where
  n : Nat
  tile : Tile
  fields : FMap Nat
  live : Nat
  crc : Nat
deriving DecidableEq, Repr

/-! ### Power (chapter 16) -/

/-- A phase-tag entry (R369–R372). -/
structure Tag where
  dc : Nat := 0
  dm : Nat := 0
  dl : Nat := 0
  count : Nat := 0
  hint : Nat := 0
  hinted : Bool := false
  overridden : Bool := false
  misses : Nat := 0
deriving DecidableEq, Repr

/-- A frequency-voltage step in progress (R362). -/
inductive VStep where
  | none
  | upAck (k code : Nat)
  | upSettle (k code : Nat)
  | down (code : Nat)
deriving DecidableEq, Repr

/-- The power and thermal controller beside its registers (R363–R383). Louvre demands and throttles are in 64ths; the
calibration κ is the fraction kappaN/kappaD; `lost` are the phases counted as lost, `pageBad` those the last telemetry poll found
lost, `exceeded` whether the window mean exceeded the cap at the last interval, `offers` the lockstep offers in force, key 16 the
chip's own. -/
structure Pwr where
  kcap : Nat := 15
  kthermal : Nat := 15
  kedc : Nat := 15
  kwant : Nat := 15
  trim : Nat := 64
  droop : Nat := 64
  droopHeld : Bool := false
  edc : Nat := 64
  edcTicks : Nat := 0
  edcFull : Bool := true
  thermal : Nat := 64
  moverThr : Nat := 64
  linkThr : Nat := 64
  kappaN : Nat := 1
  kappaD : Nat := 1
  modelSum : Nat := 0
  modelCnt : Nat := 0
  parts : PowerParts := ⟨0, 0, 0, 0⟩
  ivSum : PowerParts := ⟨0, 0, 0, 0⟩
  ivCnt : Nat := 0
  static : Nat := 0
  badPolls : Nat := 0
  goodPolls : Nat := 0
  window : List Nat := []
  step : VStep := .none
  tags : FMap Tag := []
  running : List (Nat × Nat) := []
  devFrac : Nat := 0
  offers : FMap Nat := []
  absent : List Nat := []
  lost : List Nat := []
  pageBad : List Nat := []
  exceeded : Bool := false
deriving DecidableEq, Repr

/-! ### Timebase, gates, verdict port (chapter 17) -/

/-- An armed AT_POSITION (R401). -/
structure Alarm where
  pos : Nat
  sem : Nat
  value : Nat
  ctx : Nat
  q : Nat
  seq : Nat
deriving DecidableEq, Repr

/-- A pending VERDICT_WRITE (R401), in order of acceptance. -/
structure VEntry where
  pos : Nat
  word : Nat
  value : Nat
  ctx : Nat
  q : Nat
  seq : Nat
deriving DecidableEq, Repr

/-- A gate entry (R401, R406): armed, or active since position `firedAt` with its end at time `endT` (`byPos` false) or at
position `off`. -/
structure GEntry where
  pos : Nat
  byPos : Bool
  off : Nat
  ctx : Nat
  q : Nat
  seq : Nat
  active : Bool := false
  endT : Nat := 0
  late : Bool := false
  firedAt : Nat := 0
deriving DecidableEq, Repr

/-- How P moves from its base `p0` at time `t0` (R389–R398): it stands, follows the edges with interpolation, runs at the host's
rate, extrapolates, slews up or down, or is held back. -/
inductive TbMode where
  | frozen | follow | host | extrap | slew (up : Bool) | hold
deriving DecidableEq, Repr

/-- The timebase beside its registers (R387–R398). `now` is the TBCLK cycle of the last timebase command and `p` the position
then; positions and offsets are in units of 2^-16 counts, `v` in 2^-32 counts per ns. `ofs` is OFS, `tofs` the offset that P
follows, `step` what the next edge adds, `edges` the times of the last edges, newest first; `pref` and `tref` the reference and its
time during a correction, `tHold` the start of HOLDOVER; `crossed` the multiple of TB_PULSE_DIV last counted; `driving` is false from a switchover's capture on (R507). -/
structure Tb where
  now : Nat := 0
  p : Int := 0
  mode : TbMode := .frozen
  p0 : Int := 0
  t0 : Nat := 0
  v : Int := 0
  step : Int := 0
  n : Int := 0
  ofs : Int := 0
  tofs : Int := 0
  edges : List Nat := []
  awaitRef : Bool := false
  pref : Int := 0
  tref : Nat := 0
  tHold : Nat := 0
  waits : FMap Nat := []
  alarms : FMap Alarm := []
  verdicts : List VEntry := []
  gates : FMap (List GEntry) := []
  pulseEnds : List Nat := []
  crossed : Int := 0
  lastQerr : Option Nat := none
  driving : Bool := true
deriving DecidableEq, Repr

/-- The verdict port's read cycle (R409). -/
structure Vp where
  a : Nat := 0
  csN : Bool := true
  oeN : Bool := true
  capturing : Bool := false
  word : Nat := 0
deriving DecidableEq, Repr

/-! ### Card slot, cartridge protocol, media engine (chapters 18–20) -/

/-- The step of a card activation (R417, R419, R422, R425, R429). -/
inductive ActStep where
  | idle
  | guard
  | setup
  | settle
  | vccCheck
  | clkStart
  | rstLow
  | awaitTs
  | pps
  | ifs
  | autokey (j : Nat)
deriving DecidableEq, Repr

/-- What a T=1 exchange in progress is for (R427–R431, R436). -/
inductive T1Job where
  | none | exchange | keyLoad (slot : Nat) | autoKey (j slot : Nat) | wide
deriving DecidableEq, Repr

/-- The T=1 protocol machine (R424–R426). -/
structure T1 where
  job : T1Job := .none
  nsTx : Bool := false
  nsRx : Bool := false
  tx : List Byte := []
  sent : Nat := 0
  rx : List Byte := []
  last : List Byte := []
  bad : Nat := 0
  resynch : Nat := 0
  resent : Bool := false
  wtx : Nat := 1
  awaitResynch : Bool := false
  awaitIfs : Bool := false
deriving DecidableEq, Repr

/-- The card slot beside its registers (R413–R433). `data` is D[3:0] as the device drives it; `tryCls` are the classes still to be
tried, `failed` the result of the last attempt; `byMount` and `byWide` say who waits for the activation. -/
structure Card where
  vccEn : Bool := false
  cls : Nat := 0
  dir : Bool := false
  c2 : Bool := false
  clk : Bool := false
  data : Nat := 0
  det : Bool := false
  debouncing : Bool := false
  step : ActStep := .idle
  tryCls : List Nat := []
  offGuard : Bool := false
  byMount : Bool := false
  byWide : Option Nat := none
  noPps : Bool := false
  failed : Nat := 0
  warm : Bool := false
  clkStop : Bool := false
  t1 : T1 := {}
deriving DecidableEq, Repr

/-- What the cartridge command in progress is for (R449, R462, R467). -/
inductive CbpJob where
  | none | identify | host | media | refreshId
deriving DecidableEq, Repr

/-- The CBP machine beside its registers (R436–R454). `sent` is the index of the frame that was sent last, `wideStep` the step of
the switch to wide mode; `sleepReq` and `wakeReq` say that the answer to S(SLEEP request) or S(WAKE request) is awaited, and
`hostOp` is a CBP_CMD operation that waits for the bus; `mres` is the result of a media command with its response, and `setRes` that
of a SET_PERM_WP while IDENTIFY is repeated. -/
structure Cbp where
  job : CbpJob := .none
  code : Nat := 0
  flags : Nat := 0
  arg16 : Nat := 0
  arg32 : Nat := 0
  tx : List Byte := []
  sent : Nat := 0
  rx : List Byte := []
  frames : Nat := 0
  lastFrame : List Byte := []
  bad : Nat := 0
  resynch : Nat := 0
  awaitResynch : Bool := false
  resent : Bool := false
  wtx : Nat := 1
  wideStep : Nat := 0
  tryRate : Nat := 0
  retries : Nat := 1
  blocks : Nat := 0
  sleepReq : Bool := false
  wakeReq : Bool := false
  wakeFor : Bool := false
  hostOp : Option Nat := none
  mres : Option (Nat × List Byte) := none
  setRes : Nat := 0
deriving DecidableEq, Repr

/-- The cartridge header in use (R461). -/
structure MedHdr where
  bbtF : Nat := 0
  bbtL : Nat := 0
  rcpF : Nat := 0
  rcpL : Nat := 0
  spare : Nat := 0
  logF : Nat := 0
  logL : Nat := 0
  age : Nat := 0
deriving DecidableEq, Repr

/-- A recipe directory entry (R463). -/
structure DirEntry where
  id : Nat
  len : Nat
  first : Nat
  ocrc : Nat
deriving DecidableEq, Repr

/-- The map page in force (R463). -/
structure MapPage where
  bad : List Nat := []
  dir : List DirEntry := []
  repl : List (Nat × Nat) := []
  seq : Nat := 0
  stamp : Nat := 0
deriving DecidableEq, Repr

/-- A page operation of the media engine, or the client it serves (R460–R472). -/
inductive MedJob where
  | none
  | header (copy : Nat)
  | bbtFirst (blk : Nat)
  | mapSearch (lo hi : Nat)
  | mapLoad (page : Nat)
  | recipe (q seq page : Nat)
  | standing (page : Nat)
  | partition (q seq page : Nat)
  | patrol (blk page : Nat)
  | hdrRead (dst src : Nat)
  | hdrErase (dst : Nat)
  | hdrProg (dst : Nat)
  | refErase (l p r : Nat)
  | refRead (l p r page : Nat)
  | refProg (l p r page : Nat)
  | mapErase (blk : Nat)
  | mapProg (blk page : Nat)
  | logCount (blk : Nat)
  | logErase (blk : Nat)
  | logProg (blk page : Nat)
deriving DecidableEq, Repr

/-- The media engine beside its registers (R458–R473). `job` is the page operation in progress, `retry` its retry index, `need` the
sectors it needs and `page` those decoded, each as its bytes 0 to 2,063; `objs` are, by descriptor, the bytes read so far and the
largest corrected-bit count; `clients` are the CARD_READs in arrival order, `cmd` the
MED_CMD operation in progress, `next` the next page operation of a refresh, `buf` the page it copies, `due` the blocks due for one;
`logNext` is the erase count of the LOG block to be entered next and `logPend` that of the block being erased. -/
structure Med where
  hdr : MedHdr := {}
  map : MapPage := {}
  mapBlk : Nat := 0
  mapPage : Nat := 0
  bbtSeqs : List (Nat × Nat) := []
  job : MedJob := .none
  retry : Nat := 0
  need : List Nat := []
  page : FMap (List Byte) := []
  objs : FMap (List Byte × Nat) := []
  clients : List MedJob := []
  cmd : Option Nat := none
  next : MedJob := .none
  due : List Nat := []
  blocked : List Nat := []
  patrolPos : Nat := 0
  patrolDue : Bool := false
  mapDue : Bool := false
  remap : Option (Nat × Nat × Nat) := none
  logRecs : List (Bool × List Byte) := []
  logDue : Bool := false
  logBlk : Nat := 0
  logPage : Nat := 0
  logSeq : Nat := 0
  logErases : Nat := 0
  logNext : Option Nat := none
  logPend : Nat := 0
  buf : FMap (List Byte) := []
  ctBase : Nat := 0
  ctUp : Nat := 0
deriving DecidableEq, Repr

/-! ### Clasp links and the pair (chapters 21, 22) -/

/-- A clasp port beside its registers (R477–R480). `replay` holds the sent flits that no ACK covers, `waiting` those not sent
yet, oldest first; `credits` counts, per class and hop index, the flits sent whose credit has not come back, and `sinceIdle` the flits sent since the
last IDLE flit. -/
structure Port where
  nextSeq : Nat := 0
  ackIn : Nat := 0xFFF
  lastIn : Nat := 0xFFF
  replay : List (BitVec 256) := []
  waiting : List (BitVec 256) := []
  replays : Nat := 0
  retrains : List Nat := []
  credits : FMap Nat := []
  sinceIdle : Nat := 0
deriving DecidableEq, Repr

/-- An outstanding clasp request (R483, R485) of the descriptor of queue `q` with sequence number `idx`, for a READ from element `elem`
on; `live` is false once a pre-emption has given its data up (R223). -/
structure CReq where
  ctx : Nat
  q : Nat
  idx : Nat
  dst : Nat
  read : Bool
  addr : Nat
  elem : Nat := 0
  live : Bool := true
deriving DecidableEq, Repr

/-- A barrier entry (R488). `arr0` and `arr1` are the arrivals of each generation, with their MEMBERS. -/
structure Barrier where
  owner : Option Nat := none
  gen : Bool := false
  arr0 : List (Nat × Nat) := []
  arr1 : List (Nat × Nat) := []
  wait : Option (Nat × Nat × Nat) := none
deriving DecidableEq, Repr

/-- The clasp unit beside its registers: `reqs` are the outstanding requests by tag, `waiting` those that wait for a tag. -/
structure Cls where
  ports : FMap Port := []
  reqs : FMap CReq := []
  waiting : List (CReq × ClaspMsg) := []
  nextTag : Nat := 0
  bars : FMap Barrier := []
deriving DecidableEq, Repr

/-- The identity of a member (R499). -/
structure Ident where
  gen : Nat := 0
  step : Nat := 0
  recipe : Nat := 0
  ocrc : Nat := 0
  loaded : Bool := false
deriving DecidableEq, Repr

/-- A captured commit (R501): the verdict words and block enables, the position state, and the queue pointers: queue, RESUME,
TAIL, CPL_TAIL, PHASE. -/
structure Commit where
  seq : Nat
  what : Nat
  words : FMap Nat := []
  blocks : Nat := 0
  p : Nat := 0
  n : Nat := 0
  ofs : Int := 0
  v : Nat := 0
  quality : Nat := 0
  acquired : Bool := false
  ptrs : List (Nat × Nat × Nat × Nat × Nat) := []
deriving DecidableEq, Repr

/-- The pair controller beside its registers (R495–R510). `commit` is the commit in progress with its queue and the sequence number
of its descriptor (queue 64: a full mirror, 65: a switchover); `staged` are the parts of commit `stagedSeq`; `applied` the last
applied commit. `dirty` and `dirtySleep` are the words updated since the last acknowledged commit and since sleep entry;
`switching` is the step of a switchover. -/
structure Pair where
  peer : Option Ident := none
  peerRole : Nat := 1
  nextSeq : Nat := 1
  commit : Option (Nat × Nat × Commit) := none
  staged : FMap (List Byte) := []
  stagedSeq : Nat := 0
  applied : Option Commit := none
  dirty : List Nat := []
  dirtySleep : List Nat := []
  switching : Nat := 0
  wakePending : Bool := false
  posDone : Bool := false
deriving DecidableEq, Repr

/-- Everything outside the always-on domain. `strap` is what the other domains see of the strap byte, `sramReady` whether the
clear of shared SRAM after a reset has ended (R528), `free` the index of the
next free value, `uptime` the microsecond count that events and records carry; `ecc` lists the words of memory with a wrong check,
`writeQ` the entries of the DRAM write queue (rank 6 of R30) by address, oldest first; `atsOut` are the ATS requests outstanding and
`atsWait` those beyond the limit of R140, `preQ` the queues whose pre-emption by the host has not begun. -/
structure Dev where
  regs : FMap Nat := []
  held32 : FMap Nat := []
  capt32 : FMap Nat := []
  boot : Boot := {}
  pci : Pci := {}
  out : List Out := []
  mem : Memory := {}
  ecc : FMap Ecc := []
  writeQ : List Nat := []
  keys : FMap KeySlot := []
  ctxs : FMap Ctx := []
  queues : FMap Queue := []
  issueSeq : Nat := 0
  lastIssue : FMap Nat := []
  prgs : FMap Prg := []
  prgWait : List (Nat × Own) := []
  atsOut : List AtsReq := []
  atsWait : List AtsReq := []
  invals : List Inval := []
  waitCount : Nat := 0
  preQ : List Nat := []
  evt : Evt := {}
  tiles : FMap Tile := []
  saved : FMap (List Saved) := []
  pwr : Pwr := {}
  tb : Tb := {}
  vp : Vp := {}
  card : Card := {}
  cbp : Cbp := {}
  med : Med := {}
  cls : Cls := {}
  pair : Pair := {}
  strap : BitVec 8 := 0
  sramReady : Bool := false
  free : Nat := 0
  uptime : Nat := 0
deriving DecidableEq, Repr

/-- The whole block. `strap` is the strap byte as sampled, laid out as GLB_STRAP (R56, R160). -/
structure State where
  pending : List Instr := []
  strap : BitVec 8 := 0
  aon : Aon := {}
  dev : Dev := {}
deriving DecidableEq, Repr

/-- No command of this block stops it: every error of the spec is a change of state (a register, an event, a kill, a
reset), so the type of faults has no member. Safe: nothing is left to raise. -/
inductive Fault where
deriving DecidableEq, Repr

/-- Why a command has no meaning here. -/
inductive Refusal where
  /-- Raised by an arm of `exec` whose command has no meaning yet. Safe: the model says nothing about it. -/
  | notModelled (mnemonic : String)
deriving DecidableEq, Repr

/-- The outcome of a command. -/
abbrev Res := Host.Outcome State Fault Refusal

/-- The block right after power-on reset: every register at its reset value, memory empty, no command waiting. -/
def State.reset : State := {}

end Sys2Proof.Machine
end

