-- ==== Sys2Proof/Machine/Ops.lean ====
section
/-! DEFINITION. The named operations over sparse maps, register fields and the two halves of the state, which every
meaning is written with. -/

namespace Sys2Proof.Machine

/-! ### Sparse maps -/

/-- The entry of key `k`. -/
def fget {α : Type} (m : FMap α) (k : Nat) : Option α := m.lookup k

/-- The map without key `k`. -/
def fdel {α : Type} (m : FMap α) (k : Nat) : FMap α := m.filter fun p => p.1 != k

/-- Places `(k, v)` before the first larger key. -/
def finsert {α : Type} (k : Nat) (v : α) : FMap α → FMap α
  | [] => [(k, v)]
  | p :: m => if k < p.1 then (k, v) :: p :: m else p :: finsert k v m

/-- The map with key `k` set to `v`. -/
def fset {α : Type} (m : FMap α) (k : Nat) (v : α) : FMap α := finsert k v (fdel m k)

/-! ### Register fields (R4, R8, R13) -/

/-- A register field: the BAR0 offset of its register, its lowest bit, its width, its reset value. -/
structure Fld where
  off : Nat
  lo : Nat
  len : Nat
  reset : Nat
deriving DecidableEq, Repr

/-- The key under which a field file holds a field. -/
def Fld.key (f : Fld) : Nat := f.off * 64 + f.lo

/-- The value of a field: as held, or its reset value. -/
def rd (m : FMap Nat) (f : Fld) : Nat := (fget m f.key).getD f.reset

/-- Sets a field to the low bits of `v` that fit it; a field at its reset value is not listed. -/
def wr (m : FMap Nat) (f : Fld) (v : Nat) : FMap Nat :=
  if v % 2 ^ f.len = f.reset then fdel m f.key else finsert f.key (v % 2 ^ f.len) (fdel m f.key)

/-- The value of a field of the always-on domain. -/
def Aon.rd (a : Aon) (f : Fld) : Nat := Machine.rd a.regs f
/-- Sets a field of the always-on domain. -/
def Aon.wr (a : Aon) (f : Fld) (v : Nat) : Aon := { a with regs := Machine.wr a.regs f v }
/-- The value of a field outside the always-on domain. -/
def Dev.rd (d : Dev) (f : Fld) : Nat := Machine.rd d.regs f
/-- Sets a field outside the always-on domain. -/
def Dev.wr (d : Dev) (f : Fld) (v : Nat) : Dev := { d with regs := Machine.wr d.regs f v }

/-- Sets several fields in order. -/
def Dev.wrs (d : Dev) : List (Fld × Nat) → Dev
  | [] => d
  | p :: ps => (d.wr p.1 p.2).wrs ps
/-- Sets several fields in order. -/
def Aon.wrs (a : Aon) : List (Fld × Nat) → Aon
  | [] => a
  | p :: ps => (a.wr p.1 p.2).wrs ps

/-- Adds `n` to a counter field that stays at its largest value (saturating counters of the register tables). -/
def Dev.sat (d : Dev) (f : Fld) (n : Nat := 1) : Dev := d.wr f (min (d.rd f + n) (2 ^ f.len - 1))
/-- Adds `n` to a saturating counter field of the always-on domain. -/
def Aon.sat (a : Aon) (f : Fld) (n : Nat := 1) : Aon := a.wr f (min (a.rd f + n) (2 ^ f.len - 1))
/-- Adds `n` to a counter field that wraps. -/
def Dev.bump (d : Dev) (f : Fld) (n : Nat := 1) : Dev := d.wr f (d.rd f + n)
/-- Sets the bits of `mask` in a field. -/
def Dev.orf (d : Dev) (f : Fld) (mask : Nat) : Dev := d.wr f (d.rd f ||| mask)
/-- Sets the bits of `mask` in a field. -/
def Aon.orf (a : Aon) (f : Fld) (mask : Nat) : Aon := a.wr f (a.rd f ||| mask)
/-- Clears the bits of `mask` in a field. -/
def Dev.clrf (d : Dev) (f : Fld) (mask : Nat) : Dev := d.wr f (d.rd f - (d.rd f &&& mask))
/-- Clears the bits of `mask` in a field. -/
def Aon.clrf (a : Aon) (f : Fld) (mask : Nat) : Aon := a.wr f (a.rd f - (a.rd f &&& mask))
/-- Whether a one-bit field is set. -/
def Dev.is (d : Dev) (f : Fld) : Bool := d.rd f == 1
/-- Whether a one-bit field is set. -/
def Aon.is (a : Aon) (f : Fld) : Bool := a.rd f == 1

/-! ### Outcomes on one half of the state -/

/-- The outcome that changes only the part outside the always-on domain. -/
def State.onDev (s : State) (f : Dev → Dev) : State := { s with dev := f s.dev }
/-- The outcome that changes only the always-on domain. -/
def State.onAon (s : State) (f : Aon → Aon) : State := { s with aon := f s.aon }
/-- The next state after a change of the part outside the always-on domain. -/
def State.nextDev (s : State) (f : Dev → Dev) : Res := .next (s.onDev f)
/-- The next state after a change of the always-on domain. -/
def State.nextAon (s : State) (f : Aon → Aon) : Res := .next (s.onAon f)

/-- Sends something outward. -/
def Dev.send (d : Dev) (o : Out) : Dev := { d with out := d.out ++ [o] }

/-- Sends something outward from the always-on domain. -/
def Aon.send (a : Aon) (o : Out) : Aon := { a with sent := a.sent ++ [o] }

/-! ### Numbers -/

/-- Bits `lo` to `lo + len - 1` of `v` (R4). -/
def bits (v lo len : Nat) : Nat := v / 2 ^ lo % 2 ^ len

/-- The little-endian number of a list of bytes (R5). -/
def ofBytes : List Byte → Nat
  | [] => 0
  | b :: bs => b.toNat + 256 * ofBytes bs

/-- The `n` little-endian bytes of a number (R5). -/
def toBytes : Nat → Nat → List Byte
  | 0, _ => []
  | n + 1, v => BitVec.ofNat 8 v :: toBytes n (v / 256)

/-- The number of `n` little-endian bytes from position `i` of a byte string; missing bytes read zero. -/
def bytesAt (bs : List Byte) (i n : Nat) : Nat := ofBytes ((bs.drop i).take n)

/-- The signed value of the low `n` bits of `v`. -/
def signed (n v : Nat) : Int :=
  if v % 2 ^ n < 2 ^ (n - 1) then (v % 2 ^ n : Nat) else (v % 2 ^ n : Nat) - (2 ^ n : Nat)

/-- The low `n` bits of an integer in two's complement. -/
def twos (n : Nat) (i : Int) : Nat := (i % (2 ^ n : Nat)).toNat

/-- Rounds `a / b` to the nearest integer, halves up. -/
def roundDiv (a b : Nat) : Nat := (2 * a + b) / (2 * b)

/-- The elements of a list with a mark in the bits of `mask`, lowest first: the positions below `n`. -/
def maskList (n mask : Nat) : List Nat := (List.range n).filter fun i => mask.testBit i

/-- The mask of a list of positions. -/
def listMask (l : List Nat) : Nat := l.foldl (fun m i => m ||| 2 ^ i) 0

end Sys2Proof.Machine
end

