-- ==== Sys2Proof/Machine/Regs.lean ====
section
/-! DEFINITION. The registers of BAR0 as the register tables of spec/ give them (R7, R8, R10, R13): one named field
each, with its place, width and reset value, and the table by which a register access finds its fields. A field whose
Reset column says CFG has the ROM value of R13 here; a fused field has the value of Config (log entry 2). -/

namespace Sys2Proof.Machine

/-- ROM value of SEQ_RAIL_CFG.GROUP (R62). -/
def romGroup (i : Nat) : Nat :=
  if i ≤ 1 then 0 else if i ≤ 5 then 1 else if i ≤ 10 then i - 4 else 0

/-- ROM value of SEQ_RAIL_CFG.REACT (R62). -/
def romReact (i : Nat) : Nat := if i ≤ 7 then 3 else if i ≤ 10 then 2 else 0

/-- The BAR0 offset of register `o` of tile `n` (R7). -/
def tileOff (n o : Nat) : Nat := 0x1000000 + n * 0x40000 + o

namespace F

/-! ### Rail sequencer (chapter 03) -/
def SEQ_CTRL_LOCK : Fld := ⟨0x100000, 0, 1, 0⟩
def SEQ_CTRL_SWRESET : Fld := ⟨0x100000, 1, 1, 0⟩
def SEQ_CTRL_FAULTN_REACT : Fld := ⟨0x100000, 2, 2, 2⟩
def SEQ_CTRL_RST_LIMIT : Fld := ⟨0x100000, 4, 3, 3⟩
def SEQ_CTRL_PROG_LIMIT : Fld := ⟨0x100000, 8, 8, 20⟩
def SEQ_CTRL_PG_DEGLITCH : Fld := ⟨0x100000, 16, 8, 10⟩
def SEQ_STATUS_STATE : Fld := ⟨0x100004, 0, 3, 0⟩
def SEQ_STATUS_PC : Fld := ⟨0x100004, 3, 8, 0⟩
def SEQ_STATUS_F : Fld := ⟨0x100004, 11, 1, 0⟩
def SEQ_STATUS_ROMONLY : Fld := ⟨0x100004, 12, 1, 0⟩
def SEQ_STATUS_PROG_REJECTED : Fld := ⟨0x100004, 13, 1, 0⟩
def SEQ_STATUS_PMB0_DEGRADED : Fld := ⟨0x100004, 14, 1, 0⟩
def SEQ_STATUS_PMB1_DEGRADED : Fld := ⟨0x100004, 15, 1, 0⟩
def SEQ_STATUS_RST_COUNT : Fld := ⟨0x100004, 16, 3, 0⟩
def SEQ_STATUS_FAULTN_LOW : Fld := ⟨0x100004, 19, 1, 0⟩
def SEQ_STATUS_FAULTN_DRIVE : Fld := ⟨0x100004, 20, 1, 0⟩
def SEQ_STATUS_GROUP_OFF : Fld := ⟨0x100004, 24, 8, 0⟩
def SEQ_FAULT_CAUSE : Fld := ⟨0x100008, 1, 15, 0⟩
def SEQ_RAIL_CFG_GROUP (i : Nat) : Fld := ⟨0x100100 + 4 * i, 0, 3, romGroup i⟩
def SEQ_RAIL_CFG_REACT (i : Nat) : Fld := ⟨0x100100 + 4 * i, 3, 2, romReact i⟩
def SEQ_RAIL_CFG_RETRIES (i : Nat) : Fld := ⟨0x100100 + 4 * i, 5, 3, 0⟩
def SEQ_RAIL_CFG_BACKOFF (i : Nat) : Fld := ⟨0x100100 + 4 * i, 8, 2, 0⟩
def SEQ_RAIL_CFG_ESSENTIAL (i : Nat) : Fld := ⟨0x100100 + 4 * i, 10, 1, if i ≤ 7 then 1 else 0⟩
def SEQ_RAIL_CFG_ADC (i : Nat) : Fld := ⟨0x100100 + 4 * i, 11, 5, 0⟩
def SEQ_RAIL_CFG_ADC_EN (i : Nat) : Fld := ⟨0x100100 + 4 * i, 16, 1, 0⟩
def SEQ_RAIL_CFG_PG_TIMEOUT (i : Nat) : Fld := ⟨0x100100 + 4 * i, 17, 8, 10⟩
def SEQ_RAIL_CFG_PG_EN (i : Nat) : Fld := ⟨0x100100 + 4 * i, 25, 1, 1⟩
def SEQ_RAIL_PMB_EN (i : Nat) : Fld := ⟨0x100200 + 4 * i, 0, 1, 0⟩
def SEQ_RAIL_PMB_BUS (i : Nat) : Fld := ⟨0x100200 + 4 * i, 1, 1, 0⟩
def SEQ_RAIL_PMB_ADDR (i : Nat) : Fld := ⟨0x100200 + 4 * i, 8, 7, 0⟩
def SEQ_RAIL_PMB_PAGE (i : Nat) : Fld := ⟨0x100200 + 4 * i, 16, 4, 0⟩
def SEQ_RAIL_PMB_PHASES (i : Nat) : Fld := ⟨0x100200 + 4 * i, 20, 4, 0⟩
def SEQ_RAIL_STAT_LAST_CAUSE (i : Nat) : Fld := ⟨0x100300 + 4 * i, 0, 4, 0⟩
def SEQ_RAIL_STAT_RETRY_COUNT (i : Nat) : Fld := ⟨0x100300 + 4 * i, 4, 3, 0⟩
def SEQ_RAIL_STAT_ON (i : Nat) : Fld := ⟨0x100300 + 4 * i, 7, 1, 0⟩
def SEQ_RAIL_STAT_ARMED (i : Nat) : Fld := ⟨0x100300 + 4 * i, 8, 1, 0⟩
def SEQ_RAIL_STAT_IN_REACTION (i : Nat) : Fld := ⟨0x100300 + 4 * i, 9, 1, 0⟩
def SEQ_RAIL_STAT_FAULTS (i : Nat) : Fld := ⟨0x100300 + 4 * i, 16, 16, 0⟩
def SEQ_ADC_WIN_LOW (i : Nat) : Fld := ⟨0x100400 + 4 * i, 0, 12, 0⟩
def SEQ_ADC_WIN_HIGH (i : Nat) : Fld := ⟨0x100400 + 4 * i, 12, 12, 0⟩
def SEQ_ADC_WIN_FILTER (i : Nat) : Fld := ⟨0x100400 + 4 * i, 24, 3, 0⟩
def SEQ_ADC_WIN_EN (i : Nat) : Fld := ⟨0x100400 + 4 * i, 27, 1, 0⟩
def SEQ_ADC_VAL_CODE (i : Nat) : Fld := ⟨0x100500 + 4 * i, 0, 12, 0⟩
def SEQ_ADC_VAL_OUTCNT (i : Nat) : Fld := ⟨0x100500 + 4 * i, 12, 4, 0⟩
def SEQ_ADC_VAL_OUT (i : Nat) : Fld := ⟨0x100500 + 4 * i, 16, 1, 0⟩
def SEQ_ADC_VAL_SCAN (i : Nat) : Fld := ⟨0x100500 + 4 * i, 24, 8, 0⟩
def SEQ_GRP_CFG_SHARED (i : Nat) : Fld := ⟨0x100040 + 4 * i, 0, 1, if i ≤ 3 then 1 else 0⟩
def SEQ_GRP_CFG_FOLLOW (i : Nat) : Fld := ⟨0x100040 + 4 * i, 1, 1, 0⟩
def SEQ_GRP_CFG_OFFDLY (i : Nat) : Fld := ⟨0x100040 + 4 * i, 8, 8, 10⟩
def SEQ_PMB_CTRL_FAST0 : Fld := ⟨0x100014, 0, 1, 0⟩
def SEQ_PMB_CTRL_FAST1 : Fld := ⟨0x100014, 1, 1, 0⟩
def SEQ_PMB_CTRL_PEC_EN : Fld := ⟨0x100014, 2, 1, 1⟩
def SEQ_PMB_CTRL_POLL_MS : Fld := ⟨0x100014, 8, 8, 10⟩
def SEQ_MARGIN_CH : Fld := ⟨0x100018, 0, 5, 0⟩
def SEQ_MARGIN_STEP : Fld := ⟨0x100018, 8, 8, 0⟩
def SEQ_MARGIN_GO : Fld := ⟨0x100018, 16, 1, 0⟩
def SEQ_MARGIN_BUSY : Fld := ⟨0x100018, 17, 1, 0⟩
def SEQ_MARGIN_OK : Fld := ⟨0x100018, 18, 1, 0⟩
def SEQ_PHASE_CFG_FIRST : Fld := ⟨0x10001c, 0, 5, 0⟩
def SEQ_PHASE_CFG_COUNT : Fld := ⟨0x10001c, 5, 3, 0⟩
def SEQ_PHASE_CFG_IMBAL : Fld := ⟨0x10001c, 8, 7, 1⟩
def SEQ_PHASE_CFG_MINCODE : Fld := ⟨0x10001c, 16, 12, 0⟩
def SEQ_PHASE_CFG_EN : Fld := ⟨0x10001c, 28, 1, 0⟩
def SEQ_EN_STATE_LEVEL : Fld := ⟨0x10000c, 0, 24, 0⟩
def SEQ_PG_STATE_LEVEL : Fld := ⟨0x100010, 0, 24, 0⟩
def SEQ_TELEM_VOUT (i : Nat) : Fld := ⟨0x100600 + 4 * i, 0, 16, 0⟩
def SEQ_TELEM_IOUT (i : Nat) : Fld := ⟨0x100600 + 4 * i, 16, 16, 0⟩
def SEQ_PROG_WORD (i : Nat) : Fld := ⟨0x101000 + 4 * i, 0, 32, 0⟩
/-! ### Locket (04) -/
def LKT_CFG_VMIN : Fld := ⟨0x108000, 0, 12, 4095⟩
def LKT_CAP_CAP_UF : Fld := ⟨0x108004, 0, 16, 0⟩
def LKT_CAP_ILOAD : Fld := ⟨0x108004, 16, 8, 0⟩
def LKT_CAP_ICHG : Fld := ⟨0x108004, 24, 8, 0⟩
def LKT_VSCALE_VSCALE : Fld := ⟨0x108008, 0, 20, 0⟩
def LKT_GAUGE_Q : Fld := ⟨0x10800c, 0, 24, 0⟩
def LKT_STATUS_PTR : Fld := ⟨0x108010, 0, 12, 0⟩
def LKT_STATUS_READY : Fld := ⟨0x108010, 12, 1, 0⟩
def LKT_STATUS_ERASING : Fld := ⟨0x108010, 13, 1, 0⟩
def LKT_STATUS_NOR_FAIL : Fld := ⟨0x108010, 14, 1, 0⟩
def LKT_STATUS_DISAGREE : Fld := ⟨0x108010, 15, 1, 0⟩
def LKT_STATUS_DROPPED : Fld := ⟨0x108010, 16, 16, 0⟩
def LKT_SEQ_SEQNUM : Fld := ⟨0x108014, 0, 32, 0⟩
def LKT_RD_IDX_IDX : Fld := ⟨0x108018, 0, 12, 0⟩
def LKT_RD_IDX_GO : Fld := ⟨0x108018, 16, 1, 0⟩
def LKT_RD_IDX_STATE : Fld := ⟨0x108018, 17, 2, 0⟩
def LKT_RD_DATA_DATA (i : Nat) : Fld := ⟨0x108040 + 4 * i, 0, 32, 0⟩
/-! ### Boot (05) -/
def BOOT_STATUS_STAGE : Fld := ⟨0x200000, 0, 4, 0⟩
def BOOT_STATUS_COPY : Fld := ⟨0x200000, 4, 2, 0⟩
def BOOT_STATUS_VERIFIED : Fld := ⟨0x200000, 6, 1, 0⟩
def BOOT_STATUS_DRAM_READY : Fld := ⟨0x200000, 7, 1, 0⟩
def BOOT_STATUS_DRAM_FAIL : Fld := ⟨0x200000, 8, 1, 0⟩
def BOOT_STATUS_CFG_PARTIAL : Fld := ⟨0x200000, 9, 1, 0⟩
def BOOT_STATUS_DRAM_BUSY : Fld := ⟨0x200000, 10, 1, 0⟩
def BOOT_CAUSE_LAST : Fld := ⟨0x200004, 0, 3, 0⟩
def BOOT_CAUSE_SEEN : Fld := ⟨0x200004, 8, 6, 0⟩
def BOOT_CAUSE_WDT_COUNT : Fld := ⟨0x200004, 16, 8, 0⟩
def BOOT_ERR_ERR_A : Fld := ⟨0x200008, 0, 5, 1⟩
def BOOT_ERR_ERR_B : Fld := ⟨0x200008, 8, 5, 1⟩
def BOOT_GEN_GENERATION : Fld := ⟨0x20000c, 0, 32, 0⟩
def BOOT_SFDP_MODE : Fld := ⟨0x200010, 0, 3, 0⟩
def BOOT_SFDP_ERSUSP : Fld := ⟨0x200010, 3, 1, 0⟩
def BOOT_SFDP_SIZE_LOG2 : Fld := ⟨0x200010, 8, 5, 0⟩
def BOOT_SFDP_PRESENT : Fld := ⟨0x200010, 16, 1, 0⟩
def BOOT_STANDING_STATE : Fld := ⟨0x200014, 0, 3, 0⟩
def BOOT_STANDING_CAUSE : Fld := ⟨0x200014, 8, 4, 0⟩
def BOOT_STANDING_GO : Fld := ⟨0x200014, 16, 1, 0⟩
def BOOT_WDT_PERIOD : Fld := ⟨0x200018, 0, 16, 0⟩
def BOOT_WDT_SRC : Fld := ⟨0x200018, 16, 1, 0⟩
def BOOT_WDT_KICK_KICK : Fld := ⟨0x20001c, 0, 16, 0⟩
def BOOT_KEYHASH_HASH (i : Nat) : Fld := ⟨0x200040 + 4 * i, 0, 32, Config.keyHash i⟩
/-! ### Host interface (06) -/
def GLB_ID_PART : Fld := ⟨0x0, 0, 16, 18454⟩
def GLB_ID_STEP : Fld := ⟨0x0, 16, 4, 1⟩
def GLB_STRAP_CHIPID : Fld := ⟨0x4, 0, 4, 0⟩
def GLB_STRAP_BOOT : Fld := ⟨0x4, 4, 2, 0⟩
def GLB_STRAP_PAIR : Fld := ⟨0x4, 6, 1, 0⟩
def GLB_STRAP_SEQROM : Fld := ⟨0x4, 7, 1, 0⟩
def GLB_UPTIME_US : Fld := ⟨0x8, 0, 64, 0⟩
def GLB_FUSE_ENC_EN : Fld := ⟨0x10, 0, 1, Config.fuseEnc⟩
def GLB_FUSE_CLASP_EN : Fld := ⟨0x10, 1, 1, Config.fuseClasp⟩
def GLB_FUSE_PAIR_EN : Fld := ⟨0x10, 2, 1, Config.fusePair⟩
def GLB_FUSE_KEYHASH_SET : Fld := ⟨0x10, 3, 1, Config.fuseKeyhashSet⟩
def GLB_DOMAIN_CORE_ON : Fld := ⟨0x14, 1, 1, 0⟩
def GLB_DOMAIN_TILE_ON : Fld := ⟨0x14, 16, 16, 0⟩
def GLB_SCRATCH_DATA (i : Nat) : Fld := ⟨0x20 + 4 * i, 0, 32, 0⟩
def PCI_STATUS_SPEED : Fld := ⟨0x300000, 0, 3, 0⟩
def PCI_STATUS_WIDTH : Fld := ⟨0x300000, 3, 5, 0⟩
def PCI_STATUS_DL_UP : Fld := ⟨0x300000, 8, 1, 0⟩
def PCI_STATUS_HCP_STALL : Fld := ⟨0x300000, 9, 1, 0⟩
def PCI_STATUS_D3 : Fld := ⟨0x300000, 10, 1, 0⟩
def PCI_ERR_REG_ACCESS : Fld := ⟨0x300008, 0, 1, 0⟩
def PCI_ERR_DOMAIN_OFF : Fld := ⟨0x300008, 1, 1, 0⟩
def PCI_ERR_BAR2_HOLE : Fld := ⟨0x300008, 2, 1, 0⟩
def PCI_ERR_P2P_VIOLATION : Fld := ⟨0x300008, 3, 1, 0⟩
def PCI_ERR_CPL_FAIL : Fld := ⟨0x300008, 4, 1, 0⟩
def PCI_ERR_FIRST : Fld := ⟨0x300008, 8, 8, 255⟩
def PCI_ERR_COUNT : Fld := ⟨0x300008, 16, 16, 0⟩
def PCI_ERR_ADDR_ADDR : Fld := ⟨0x300010, 0, 64, 0⟩
def PCI_ERR_RID_RID : Fld := ⟨0x300018, 0, 16, 0⟩
def PCI_BAR2_CTRL_EN : Fld := ⟨0x300020, 0, 1, 0⟩
def PCI_BAR2_CTRL_KEYSEL : Fld := ⟨0x300020, 8, 8, 0⟩
def PCI_BAR2_CTRL_SIZE : Fld := ⟨0x300020, 16, 5, 8⟩
def PCI_BAR2_BASE_BASE : Fld := ⟨0x300028, 20, 24, 0⟩
def PCI_IRQ_MAP_VECTOR (i : Nat) : Fld := ⟨0x300100 + 4 * i, 0, 11, i⟩
def PCI_IRQ_MAP_EN (i : Nat) : Fld := ⟨0x300100 + 4 * i, 31, 1, 0⟩
def PCI_P2P_CTRL_FILTER : Fld := ⟨0x300400, 0, 1, 0⟩
def PCI_AP_CFG_RID (i : Nat) : Fld := ⟨0x300440 + 32 * i, 0, 16, 0⟩
def PCI_AP_CFG_RID_MASK (i : Nat) : Fld := ⟨0x300440 + 32 * i, 16, 16, 0⟩
def PCI_AP_CTL_EN (i : Nat) : Fld := ⟨0x300444 + 32 * i, 0, 1, 0⟩
def PCI_AP_CTL_SLOT_LOG2 (i : Nat) : Fld := ⟨0x300444 + 32 * i, 1, 5, 12⟩
def PCI_AP_CTL_CTX (i : Nat) : Fld := ⟨0x300444 + 32 * i, 16, 12, 0⟩
def PCI_AP_SEM_SEM (i : Nat) : Fld := ⟨0x300448 + 32 * i, 0, 12, 0⟩
def PCI_AP_DROPS_DROPS (i : Nat) : Fld := ⟨0x30044c + 32 * i, 0, 32, 0⟩
def PCI_AP_BASE_ADDR (i : Nat) : Fld := ⟨0x300450 + 32 * i, 0, 44, 0⟩
def PCI_AP_LIMIT_ADDR (i : Nat) : Fld := ⟨0x300458 + 32 * i, 0, 44, 0⟩
/-! ### Memory (07) -/
def MEM_CHAN_MASK : Fld := ⟨0x400000, 0, 32, 0⟩
def MEM_CFG_RATE : Fld := ⟨0x400004, 0, 14, 0⟩
def MEM_CFG_DENSITY : Fld := ⟨0x400004, 16, 2, 0⟩
def MEM_CFG_ECC : Fld := ⟨0x400004, 18, 1, 0⟩
def MEM_SIZE_BYTES : Fld := ⟨0x400008, 0, 44, 0⟩
def MEM_SCRUB_PERIOD : Fld := ⟨0x400010, 0, 8, 0⟩
def MEM_SCRUB_ACTIVE : Fld := ⟨0x400010, 31, 1, 0⟩
def MEM_ECC_STAT_UE : Fld := ⟨0x400018, 0, 1, 0⟩
def MEM_ECC_STAT_SRAM_CE : Fld := ⟨0x400018, 8, 8, 0⟩
def MEM_ECC_STAT_DRAM_CE : Fld := ⟨0x400018, 16, 16, 0⟩
def MEM_ERR_ADDR_ADDR : Fld := ⟨0x400020, 0, 44, 0⟩
def MEM_ERR_INFO_CHANNEL : Fld := ⟨0x400028, 0, 5, 0⟩
def MEM_ERR_INFO_SOURCE : Fld := ⟨0x400028, 5, 3, 0⟩
def MEM_ERR_INFO_CTX : Fld := ⟨0x400028, 16, 12, 0⟩
def MEM_KEY_CMD_OP : Fld := ⟨0x400040, 0, 2, 0⟩
def MEM_KEY_CMD_SLOT : Fld := ⟨0x400040, 8, 8, 0⟩
def MEM_KEY_CMD_GO : Fld := ⟨0x400040, 16, 1, 0⟩
def MEM_KEY_STAT_BUSY : Fld := ⟨0x400044, 0, 1, 0⟩
def MEM_KEY_STAT_RESULT : Fld := ⟨0x400044, 1, 3, 0⟩
def MEM_KEY_STAT_STATE : Fld := ⟨0x400044, 4, 2, 0⟩
def MEM_KEY_DATA_DATA (i : Nat) : Fld := ⟨0x400080 + 4 * i, 0, 32, 0⟩
def MEM_TRAIN_STATUS (i : Nat) : Fld := ⟨0x400100 + 4 * i, 0, 2, 0⟩
def MEM_TRAIN_ATTEMPTS (i : Nat) : Fld := ⟨0x400100 + 4 * i, 2, 2, 0⟩
/-! ### Translation (08) -/
def MMU_CTRL_PRI_TIMEOUT : Fld := ⟨0x500000, 0, 16, 1000⟩
def MMU_CTRL_PRI_ATTEMPTS : Fld := ⟨0x500000, 16, 4, 4⟩
def MMU_STATUS_ATS_EN : Fld := ⟨0x500004, 0, 1, 0⟩
def MMU_STATUS_PRI_EN : Fld := ⟨0x500004, 1, 1, 0⟩
def MMU_STATUS_PRI_STOPPED : Fld := ⟨0x500004, 2, 1, 0⟩
def MMU_STATUS_ADVISE_ERR : Fld := ⟨0x500004, 8, 8, 0⟩
def MMU_STATUS_PRG_OUT : Fld := ⟨0x500004, 16, 10, 0⟩
def MMU_STATUS_INV_OUT : Fld := ⟨0x500004, 26, 6, 0⟩
def MMU_CTX_SEL_CTX : Fld := ⟨0x500010, 0, 12, 0⟩
def MMU_CTX_CMD_OP : Fld := ⟨0x500014, 0, 3, 0⟩
def MMU_CTX_CMD_GO : Fld := ⟨0x500014, 8, 1, 0⟩
def MMU_CTX_CMD_BUSY : Fld := ⟨0x500014, 9, 1, 0⟩
def MMU_CTX_CMD_RESULT : Fld := ⟨0x500014, 16, 4, 0⟩
def MMU_CTX_ROOT_ROOT : Fld := ⟨0x500018, 12, 32, 0⟩
def MMU_CTX_PASID_PASID : Fld := ⟨0x500020, 0, 20, 0⟩
def MMU_CTX_PASID_BOUND : Fld := ⟨0x500020, 31, 1, 0⟩
def MMU_CTX_STATE_STATE : Fld := ⟨0x500024, 0, 2, 0⟩
def MMU_CTX_STATE_CAUSE : Fld := ⟨0x500024, 8, 8, 0⟩
def MMU_CTX_STATE_SUSPENDED : Fld := ⟨0x500024, 16, 16, 0⟩
def MMU_PIN_IDX_IDX : Fld := ⟨0x500028, 0, 4, 0⟩
def MMU_PIN_VA_VA : Fld := ⟨0x500030, 12, 36, 0⟩
def MMU_PIN_LEN_LEN : Fld := ⟨0x500038, 12, 25, 0⟩
def MMU_PIN_PA_PA : Fld := ⟨0x500040, 12, 32, 0⟩
def MMU_PIN_PA_W : Fld := ⟨0x500040, 0, 1, 0⟩
def MMU_WIN_CTL_EN (i : Nat) : Fld := ⟨0x501000 + 16 * i, 0, 1, 0⟩
def MMU_WIN_CTL_CTX (i : Nat) : Fld := ⟨0x501000 + 16 * i, 16, 12, 0⟩
def MMU_WIN_SRC_SRCMASK (i : Nat) : Fld := ⟨0x501004 + 16 * i, 0, 16, 0⟩
def MMU_WIN_BASE_BASE (i : Nat) : Fld := ⟨0x501008 + 16 * i, 12, 32, 0⟩
def MMU_WIN_REJ_COUNT : Fld := ⟨0x501400, 0, 32, 0⟩
/-! ### Events and pre-emption (09) -/
def CMD_EVT_BASE_LOC : Fld := ⟨0x608000, 0, 1, 0⟩
def CMD_EVT_BASE_ADDR : Fld := ⟨0x608000, 12, 52, 0⟩
def CMD_EVT_CTRL_EN : Fld := ⟨0x608008, 0, 1, 0⟩
def CMD_EVT_CTRL_FAULT_EV : Fld := ⟨0x608008, 1, 1, 0⟩
def CMD_EVT_HEAD_HEAD : Fld := ⟨0x60800c, 0, 12, 0⟩
def CMD_EVT_TAIL_TAIL : Fld := ⟨0x608010, 0, 12, 0⟩
def CMD_EVT_TAIL_PHASE : Fld := ⟨0x608010, 12, 1, 1⟩
def CMD_EVT_STAT_LOST : Fld := ⟨0x608014, 0, 16, 0⟩
def CMD_EVT_STAT_OVERFLOW : Fld := ⟨0x608014, 16, 1, 0⟩
def CMD_EVT_CREDIT_HELD : Fld := ⟨0x608018, 0, 45, 35184372088831⟩
def CMD_EVT_MERGED_PEND : Fld := ⟨0x608020, 0, 45, 0⟩
def CMD_SAVE_POOL_SIZE : Fld := ⟨0x608040, 0, 5, 4⟩
def CMD_PRE_CTRL_GRACE : Fld := ⟨0x608044, 0, 16, 50⟩
def CMD_PRE_CTRL_MIN_RUN : Fld := ⟨0x608044, 16, 16, 200⟩
def CMD_PRE_SEL_CTX : Fld := ⟨0x608048, 0, 12, 0⟩
def CMD_PRE_SPILL_BASE : Fld := ⟨0x608050, 16, 28, 0⟩
def CMD_PRE_SPILL_KEY : Fld := ⟨0x608050, 8, 8, 0⟩
def CMD_PRE_CMD_OP : Fld := ⟨0x608058, 0, 3, 0⟩
def CMD_PRE_CMD_GO : Fld := ⟨0x608058, 8, 1, 0⟩
def CMD_PRE_CMD_BUSY : Fld := ⟨0x608058, 9, 1, 0⟩
def CMD_PRE_CMD_RESULT : Fld := ⟨0x608058, 16, 4, 0⟩
def CMD_PRE_STAT_PSTATE : Fld := ⟨0x60805c, 0, 2, 0⟩
def CMD_PRE_STAT_HOLD : Fld := ⟨0x60805c, 2, 1, 0⟩
def CMD_PRE_STAT_SPILL : Fld := ⟨0x60805c, 3, 1, 0⟩
def CMD_PRE_STAT_COUNT : Fld := ⟨0x60805c, 16, 16, 0⟩
def CMD_PRE_LAT_LAST : Fld := ⟨0x608060, 0, 16, 0⟩
def CMD_PRE_LAT_MAX : Fld := ⟨0x608060, 16, 16, 0⟩
/-! ### Queues (10) -/
def CMD_TILE_QUEUE (i : Nat) : Fld := ⟨0x600100 + 4 * i, 0, 6, 0⟩
def CMD_TILE_LEASED (i : Nat) : Fld := ⟨0x600100 + 4 * i, 8, 1, 0⟩
def CMD_TILE_BUSY (i : Nat) : Fld := ⟨0x600100 + 4 * i, 9, 1, 0⟩
def CMD_TILE_CTX (i : Nat) : Fld := ⟨0x600100 + 4 * i, 16, 12, 0⟩
def Q_CFG_EN (i : Nat) : Fld := ⟨0x601000 + 64 * i, 0, 1, 0⟩
def Q_CFG_PRIO (i : Nat) : Fld := ⟨0x601000 + 64 * i, 1, 3, 0⟩
def Q_CFG_LOG2 (i : Nat) : Fld := ⟨0x601000 + 64 * i, 4, 5, 6⟩
def Q_CFG_CPL_LOG2 (i : Nat) : Fld := ⟨0x601000 + 64 * i, 9, 5, 6⟩
def Q_CFG_CPL_MODE (i : Nat) : Fld := ⟨0x601000 + 64 * i, 14, 1, 0⟩
def Q_CFG_PRIV (i : Nat) : Fld := ⟨0x601000 + 64 * i, 15, 1, 0⟩
def Q_CFG_HALT_ON_FAIL (i : Nat) : Fld := ⟨0x601000 + 64 * i, 16, 1, 0⟩
def Q_CFG_RESUME (i : Nat) : Fld := ⟨0x601000 + 64 * i, 17, 1, 0⟩
def Q_CFG_CTX (i : Nat) : Fld := ⟨0x601000 + 64 * i, 20, 12, 0⟩
def Q_RING_BASE_VA (i : Nat) : Fld := ⟨0x601008 + 64 * i, 0, 48, 0⟩
def Q_CPL_BASE_VA (i : Nat) : Fld := ⟨0x601010 + 64 * i, 0, 48, 0⟩
def Q_HEAD_HEAD (i : Nat) : Fld := ⟨0x601018 + 64 * i, 0, 16, 0⟩
def Q_TAIL_TAIL (i : Nat) : Fld := ⟨0x60101c + 64 * i, 0, 16, 0⟩
def Q_CPL_HEAD_HEAD (i : Nat) : Fld := ⟨0x601020 + 64 * i, 0, 16, 0⟩
def Q_CPL_TAIL_TAIL (i : Nat) : Fld := ⟨0x601024 + 64 * i, 0, 16, 0⟩
def Q_CPL_TAIL_PHASE (i : Nat) : Fld := ⟨0x601024 + 64 * i, 16, 1, 1⟩
def Q_STATUS_STATE (i : Nat) : Fld := ⟨0x601028 + 64 * i, 0, 3, 0⟩
def Q_STATUS_BLOCK (i : Nat) : Fld := ⟨0x601028 + 64 * i, 4, 4, 0⟩
def Q_STATUS_INFLIGHT (i : Nat) : Fld := ⟨0x601028 + 64 * i, 16, 8, 0⟩
def Q_STATUS_LAST_STATUS (i : Nat) : Fld := ⟨0x601028 + 64 * i, 24, 8, 0⟩
def Q_LEASE_L (i : Nat) : Fld := ⟨0x60102c + 64 * i, 0, 16, 0⟩
def SEM_VAL_VALUE (i : Nat) : Fld := ⟨0x604000 + 4 * i, 0, 32, 0⟩
def SEM_CFG_EN (i : Nat) : Fld := ⟨0x610000 + 4 * i, 0, 1, 0⟩
def SEM_CFG_SHARE (i : Nat) : Fld := ⟨0x610000 + 4 * i, 1, 1, 0⟩
def SEM_CFG_WAITERS (i : Nat) : Fld := ⟨0x610000 + 4 * i, 8, 8, 0⟩
def SEM_CFG_CTX (i : Nat) : Fld := ⟨0x610000 + 4 * i, 16, 12, 0⟩
def CMD_DB_TAIL (i : Nat) : Fld := ⟨0x700000 + 4096 * i, 0, 16, 0⟩
/-! ### Matrix array (11) -/
def MT_GANG_SHAPE (n : Nat) : Fld := ⟨tileOff n 0x200, 0, 4, 0⟩
def MT_GANG_ORIGIN (n : Nat) : Fld := ⟨tileOff n 0x200, 4, 4, 0⟩
def MT_GANG_TR (n : Nat) : Fld := ⟨tileOff n 0x200, 8, 2, 0⟩
def MT_GANG_TC (n : Nat) : Fld := ⟨tileOff n 0x200, 10, 2, 0⟩
def MT_GANG_PSHAPE (n : Nat) : Fld := ⟨tileOff n 0x200, 12, 4, 0⟩
def MT_GANG_BANK (n : Nat) : Fld := ⟨tileOff n 0x200, 16, 1, 0⟩
def MT_GANG_PASS_BUSY (n : Nat) : Fld := ⟨tileOff n 0x200, 17, 1, 0⟩
def MT_GANG_ISOLATED (n : Nat) : Fld := ⟨tileOff n 0x200, 18, 1, 0⟩
def MT_PASS_SEQ_SEQ (n : Nat) : Fld := ⟨tileOff n 0x204, 0, 32, 0⟩
def MT_PASSES_COUNT (n : Nat) : Fld := ⟨tileOff n 0x208, 0, 64, 0⟩
def MT_BUSY_CYC_COUNT (n : Nat) : Fld := ⟨tileOff n 0x210, 0, 64, 0⟩
def MT_STALL_ROW_COUNT (n : Nat) : Fld := ⟨tileOff n 0x218, 0, 32, 0⟩
def MT_STALL_COL_COUNT (n : Nat) : Fld := ⟨tileOff n 0x21c, 0, 32, 0⟩
def MT_STALL_MUL_COUNT (n : Nat) : Fld := ⟨tileOff n 0x220, 0, 32, 0⟩
def MT_LOUVRE_CYC_COUNT (n : Nat) : Fld := ⟨tileOff n 0x224, 0, 32, 0⟩
/-! ### Number formats (12) -/
def MT_PASS_ARITH_FMT_A (n : Nat) : Fld := ⟨tileOff n 0x228, 0, 2, 0⟩
def MT_PASS_ARITH_FMT_B (n : Nat) : Fld := ⟨tileOff n 0x228, 2, 2, 0⟩
def MT_PASS_ARITH_FAMILY (n : Nat) : Fld := ⟨tileOff n 0x228, 4, 1, 0⟩
def MT_PASS_ARITH_ANCHOR (n : Nat) : Fld := ⟨tileOff n 0x228, 8, 8, 0⟩
def MT_PASS_ARITH_COND (n : Nat) : Fld := ⟨tileOff n 0x228, 16, 4, 0⟩
/-! ### Drain and conversion (13) -/
def MT_FLAGS_CAUSES (n : Nat) : Fld := ⟨tileOff n 0x240, 0, 10, 0⟩
def MT_FLAG_MASK_MASK (n : Nat) : Fld := ⟨tileOff n 0x244, 0, 10, 115⟩
def MT_FIRST_SEQ_SEQ (n : Nat) : Fld := ⟨tileOff n 0x248, 0, 32, 0⟩
def MT_FIRST_POS_ROW (n : Nat) : Fld := ⟨tileOff n 0x24c, 0, 8, 0⟩
def MT_FIRST_POS_COL (n : Nat) : Fld := ⟨tileOff n 0x24c, 8, 8, 0⟩
def MT_FIRST_POS_CAUSE (n : Nat) : Fld := ⟨tileOff n 0x24c, 16, 4, 0⟩
def MT_FIRST_POS_VALID (n : Nat) : Fld := ⟨tileOff n 0x24c, 31, 1, 0⟩
def MT_QSEQ_SEQ (n : Nat) : Fld := ⟨tileOff n 0x250, 0, 32, 0⟩
def MT_CONV_BUSY (n : Nat) : Fld := ⟨tileOff n 0x254, 0, 1, 0⟩
def MT_CONV_NAR (n : Nat) : Fld := ⟨tileOff n 0x254, 16, 16, 0⟩
def MT_RMAX_BLK_VALUE (n : Nat) : Fld := ⟨tileOff n 0x258, 0, 32, 4286578688⟩
def MT_RMAX_AT_ROW (n : Nat) : Fld := ⟨tileOff n 0x25c, 0, 8, 0⟩
def MT_RMAX_AT_COL (n : Nat) : Fld := ⟨tileOff n 0x25c, 8, 8, 0⟩
def MT_RMAX_VALUE (n i : Nat) : Fld := ⟨tileOff n (0x300 + 4 * i), 0, 32, 4286578688⟩
/-! ### Tile sequencer (14) -/
def MT_SEQ_STATUS_PC (n : Nat) : Fld := ⟨tileOff n 0x0, 0, 23, 0⟩
def MT_SEQ_STATUS_STATE (n : Nat) : Fld := ⟨tileOff n 0x0, 24, 3, 0⟩
def MT_SEQ_STATUS_DEPTH (n : Nat) : Fld := ⟨tileOff n 0x0, 27, 3, 0⟩
def MT_SEQ_RETIRED_COUNT (n : Nat) : Fld := ⟨tileOff n 0x8, 0, 64, 0⟩
/-! ### Vector unit (15) -/
def VU_STATUS_QDEPTH (n : Nat) : Fld := ⟨tileOff n 0x400, 0, 4, 0⟩
def VU_STATUS_BUSY (n : Nat) : Fld := ⟨tileOff n 0x400, 4, 1, 0⟩
def VU_FLAGS_CAUSES (n : Nat) : Fld := ⟨tileOff n 0x404, 0, 5, 0⟩
def VU_FLAG_MASK_MASK (n : Nat) : Fld := ⟨tileOff n 0x408, 0, 5, 7⟩
def VU_FIRST_OPSEQ (n : Nat) : Fld := ⟨tileOff n 0x40c, 0, 16, 0⟩
def VU_FIRST_LANE (n : Nat) : Fld := ⟨tileOff n 0x40c, 16, 6, 0⟩
def VU_FIRST_CAUSE (n : Nat) : Fld := ⟨tileOff n 0x40c, 24, 3, 0⟩
def VU_FIRST_VALID (n : Nat) : Fld := ⟨tileOff n 0x40c, 31, 1, 0⟩
def VU_OPS_COUNT (n : Nat) : Fld := ⟨tileOff n 0x410, 0, 64, 0⟩
def VU_K_MASK (n i : Nat) : Fld := ⟨tileOff n (0x440 + 8 * i), 0, 64, if i = 0 then 0xFFFFFFFFFFFFFFFF else 0⟩
/-! ### Power (16) -/
def PWR_CTRL_REPEAT : Fld := ⟨0x800000, 0, 1, 0⟩
def PWR_CTRL_MC_MODE : Fld := ⟨0x800000, 1, 1, 0⟩
def PWR_CTRL_HOST_FMAX : Fld := ⟨0x800000, 2, 4, 15⟩
def PWR_CTRL_THROTTLE_C : Fld := ⟨0x800000, 6, 8, 95⟩
def PWR_CTRL_SHUT_IDLE : Fld := ⟨0x800000, 16, 14, 1000⟩
def PWR_CAP_CAP_W : Fld := ⟨0x800004, 0, 7, 60⟩
def PWR_CAP_WINDOW : Fld := ⟨0x800004, 8, 8, 10⟩
def PWR_CAP_VSETTLE : Fld := ⟨0x800004, 24, 8, 40⟩
def PWR_STATUS_POINT : Fld := ⟨0x800008, 0, 4, 12⟩
def PWR_STATUS_VCODE : Fld := ⟨0x800008, 4, 6, 31⟩
def PWR_STATUS_LOUVRE : Fld := ⟨0x800008, 10, 7, 64⟩
def PWR_STATUS_REASON : Fld := ⟨0x800008, 17, 3, 0⟩
def PWR_STATUS_SENSE_FAIL : Fld := ⟨0x800008, 20, 1, 0⟩
def PWR_STATUS_REPEAT_HELD : Fld := ⟨0x800008, 21, 1, 0⟩
def PWR_STATUS_VFROZEN : Fld := ⟨0x800008, 22, 1, 0⟩
def PWR_STATUS_PH_LOST : Fld := ⟨0x800008, 23, 4, 0⟩
def PWR_FUSE_CAP_MIN : Fld := ⟨0x80000c, 0, 7, Config.capMin⟩
def PWR_FUSE_CAP_MAX : Fld := ⟨0x80000c, 8, 7, Config.capMax⟩
def PWR_FUSE_REPEAT_IDX : Fld := ⟨0x80000c, 15, 4, Config.repeatIdx⟩
def PWR_FUSE_REPEAT_CAP : Fld := ⟨0x80000c, 19, 7, Config.repeatCap⟩
def PWR_EDC_EDC_A : Fld := ⟨0x800010, 0, 12, Config.edcA⟩
def PWR_EDC_PHASES : Fld := ⟨0x800010, 12, 4, 5⟩
def PWR_EDC_EDC_LIM : Fld := ⟨0x800010, 16, 12, Config.edcA⟩
def PWR_EDC_PHASE_RESTORE : Fld := ⟨0x800010, 31, 1, 0⟩
def PWR_POWER_AVG : Fld := ⟨0x800014, 0, 20, 0⟩
def PWR_MC_MEMBERS : Fld := ⟨0x800018, 0, 16, 0⟩
def PWR_MC_CEIL : Fld := ⟨0x800018, 16, 4, 15⟩
def PWR_MC_PAIR_LS : Fld := ⟨0x800018, 20, 1, 0⟩
def PWR_DEFAULT_TILE_MW : Fld := ⟨0x80001c, 0, 16, 4000⟩
def PWR_RAILS_MASK : Fld := ⟨0x800020, 0, 24, 2047⟩
def PWR_THR_US (i : Nat) : Fld := ⟨0x800040 + 8 * i, 0, 64, 0⟩
def PWR_TEMP_TEMP (i : Nat) : Fld := ⟨0x800100 + 4 * i, 0, 12, 0⟩
def PWR_TEMP_FAIL (i : Nat) : Fld := ⟨0x800100 + 4 * i, 15, 1, 0⟩
def PWR_TMAX_TEMP : Fld := ⟨0x800160, 0, 12, 0⟩
def PWR_TMAX_SENSOR : Fld := ⟨0x800160, 16, 5, 0⟩
def PWR_VF_VCODE (i : Nat) : Fld := ⟨0x800200 + 4 * i, 0, 6, Config.vf (i / 16) (i % 16)⟩
def PWR_TAG_SEL_TAG : Fld := ⟨0x800400, 0, 8, 0⟩
def PWR_TAG_CORE_DC : Fld := ⟨0x800404, 0, 20, 0⟩
def PWR_TAG_CORE_COUNT : Fld := ⟨0x800404, 20, 12, 0⟩
def PWR_TAG_ML_DM : Fld := ⟨0x800408, 0, 16, 0⟩
def PWR_TAG_ML_DL : Fld := ⟨0x800408, 16, 16, 0⟩
def PWR_TAG_HINT_HINT : Fld := ⟨0x80040c, 0, 20, 0⟩
def PWR_TAG_HINT_HINTED : Fld := ⟨0x80040c, 24, 1, 0⟩
def PWR_TAG_HINT_OVERRIDDEN : Fld := ⟨0x80040c, 25, 1, 0⟩
def PWR_TAG_HINT_MISSES : Fld := ⟨0x80040c, 26, 2, 0⟩
def PWR_CTX_SEL_CTX : Fld := ⟨0x800410, 0, 12, 0⟩
def PWR_CTX_ENERGY_UJ : Fld := ⟨0x800418, 0, 64, 0⟩
def PWR_DEV_ENERGY_UJ : Fld := ⟨0x800420, 0, 64, 0⟩
/-! ### Timebase and verdict port (17) -/
def TB_CTRL_EN : Fld := ⟨0x900000, 0, 1, 0⟩
def TB_CTRL_SRC : Fld := ⟨0x900000, 1, 2, 0⟩
def TB_CTRL_LOCK : Fld := ⟨0x900000, 3, 1, 0⟩
def TB_CFG_REVERSE : Fld := ⟨0x900004, 0, 1, 0⟩
def TB_CFG_LOST_POLICY : Fld := ⟨0x900004, 1, 1, 0⟩
def TB_CFG_LATE_POLICY : Fld := ⟨0x900004, 2, 1, 0⟩
def TB_CFG_RECOV_REF : Fld := ⟨0x900004, 3, 1, 0⟩
def TB_CFG_FILTER : Fld := ⟨0x900004, 8, 8, 4⟩
def TB_CFG_LOSS_FACTOR : Fld := ⟨0x900004, 16, 4, 4⟩
def TB_HOLD_HOLDOVER_MAX : Fld := ⟨0x900008, 0, 14, 100⟩
def TB_SLEW_SLEW_MAX : Fld := ⟨0x90000c, 0, 32, 1024⟩
def TB_ZPERIOD_PERIOD : Fld := ⟨0x900010, 0, 32, 1⟩
def TB_ZPHASE_PHASE : Fld := ⟨0x900014, 0, 32, 0⟩
def TB_PULSECNT_COUNTS : Fld := ⟨0x900018, 0, 17, 1⟩
def TB_MINVEL_VMIN : Fld := ⟨0x90001c, 0, 32, 65536⟩
def TB_POS_P : Fld := ⟨0x900020, 0, 64, 0⟩
def TB_POS_SET_P : Fld := ⟨0x900028, 0, 64, 0⟩
def TB_VEL_V : Fld := ⟨0x900030, 0, 32, 0⟩
def TB_HOST_RATE_RATE : Fld := ⟨0x900034, 0, 32, 0⟩
def TB_HOST_STEP_STEP : Fld := ⟨0x900038, 0, 64, 0⟩
def TB_STATUS_QUALITY : Fld := ⟨0x900040, 0, 2, 2⟩
def TB_STATUS_ACQUIRED : Fld := ⟨0x900040, 2, 1, 0⟩
def TB_STATUS_SLEWING : Fld := ⟨0x900040, 3, 1, 0⟩
def TB_STATUS_HOLDBACK : Fld := ⟨0x900040, 4, 1, 0⟩
def TB_STATUS_BACKING : Fld := ⟨0x900040, 5, 1, 0⟩
def TB_ERR_E : Fld := ⟨0x900048, 0, 64, 0⟩
def TB_RAW_N : Fld := ⟨0x900050, 0, 64, 0⟩
def TB_CNT0_STEPS : Fld := ⟨0x900058, 0, 16, 0⟩
def TB_CNT0_LATE : Fld := ⟨0x900058, 16, 16, 0⟩
def TB_CNT1_DROPPED : Fld := ⟨0x90005c, 0, 16, 0⟩
def TB_CNT1_QERR : Fld := ⟨0x90005c, 16, 16, 0⟩
def TB_ALARM_BUSY_BUSY : Fld := ⟨0x900060, 0, 64, 0⟩
def TB_ZMISS_COUNT : Fld := ⟨0x900068, 0, 16, 0⟩
def TB_GATE_CFG_EN (i : Nat) : Fld := ⟨0x900080 + 4 * i, 0, 1, 0⟩
def TB_GATE_CFG_INV (i : Nat) : Fld := ⟨0x900080 + 4 * i, 1, 1, 0⟩
def TB_GATE_CFG_LATE_W (i : Nat) : Fld := ⟨0x900080 + 4 * i, 2, 12, 10⟩
def TB_GATE_CFG_CTX (i : Nat) : Fld := ⟨0x900080 + 4 * i, 16, 12, 0⟩
def TB_GATE_STAT_PENDING (i : Nat) : Fld := ⟨0x900090 + 4 * i, 0, 5, 0⟩
def TB_GATE_STAT_LEVEL (i : Nat) : Fld := ⟨0x900090 + 4 * i, 8, 1, 0⟩
def TB_PULSE_DIV_DIV : Fld := ⟨0x9000a0, 0, 32, 1⟩
def TB_PULSE_CFG_WIDTH : Fld := ⟨0x9000a4, 0, 16, 1⟩
def TB_PULSE_CFG_EN : Fld := ⟨0x9000a4, 31, 1, 0⟩
def TB_PULSE_SKIP_COUNT : Fld := ⟨0x9000a8, 0, 32, 0⟩
def VP_CTRL_CLEAR : Fld := ⟨0x900100, 0, 1, 0⟩
def VP_UPDATES_COUNT : Fld := ⟨0x900104, 0, 32, 0⟩
def VP_BLOCK_EN (i : Nat) : Fld := ⟨0x900140 + 4 * i, 0, 1, 0⟩
def VP_BLOCK_CTX (i : Nat) : Fld := ⟨0x900140 + 4 * i, 16, 12, 0⟩
def VP_TABLE_WORD (i : Nat) : Fld := ⟨0x901000 + 4 * i, 0, 16, 0⟩
/-! ### Card slot (18) -/
def CRD_CFG_AUTO : Fld := ⟨0xa00000, 0, 1, 0⟩
def CRD_CFG_DET_POL : Fld := ⟨0xa00000, 1, 1, 0⟩
def CRD_CFG_PPS_EN : Fld := ⟨0xa00000, 2, 1, 1⟩
def CRD_CFG_CLASSES : Fld := ⟨0xa00000, 3, 3, 4⟩
def CRD_CFG_DEBOUNCE : Fld := ⟨0xa00000, 8, 8, 50⟩
def CRD_TIMING_VCC_SETTLE : Fld := ⟨0xa00004, 0, 8, 10⟩
def CRD_TIMING_RSTLOW : Fld := ⟨0xa00004, 8, 8, 10⟩
def CRD_TIMING_ISO_DIV : Fld := ⟨0xa00004, 16, 9, 104⟩
def CRD_VWIN_LOW (i : Nat) : Fld := ⟨0xa00008 + 4 * i, 0, 12, 0⟩
def CRD_VWIN_HIGH (i : Nat) : Fld := ⟨0xa00008 + 4 * i, 12, 12, 4095⟩
def CRD_T1_IFSD : Fld := ⟨0xa00014, 0, 8, 254⟩
def CRD_AUTOKEY_EN (i : Nat) : Fld := ⟨0xa00018 + 4 * i, 0, 1, 0⟩
def CRD_AUTOKEY_SLOT (i : Nat) : Fld := ⟨0xa00018 + 4 * i, 8, 8, 1⟩
def CRD_AUTOKEY_KEYREF (i : Nat) : Fld := ⟨0xa00018 + 4 * i, 16, 8, 0⟩
def CRD_STATUS_STATE : Fld := ⟨0xa00040, 0, 3, 0⟩
def CRD_STATUS_PRESENT : Fld := ⟨0xa00040, 3, 1, 0⟩
def CRD_STATUS_DET : Fld := ⟨0xa00040, 4, 1, 0⟩
def CRD_STATUS_OC : Fld := ⟨0xa00040, 5, 1, 0⟩
def CRD_STATUS_CLASS : Fld := ⟨0xa00040, 6, 2, 0⟩
def CRD_STATUS_OWNER : Fld := ⟨0xa00040, 8, 1, 0⟩
def CRD_STATUS_PPS_DONE : Fld := ⟨0xa00040, 9, 1, 0⟩
def CRD_STATUS_PPS_FAILED : Fld := ⟨0xa00040, 10, 1, 0⟩
def CRD_STATUS_LAST : Fld := ⟨0xa00040, 12, 4, 0⟩
def CRD_CMD_OP : Fld := ⟨0xa00044, 0, 4, 0⟩
def CRD_CMD_GO : Fld := ⟨0xa00044, 8, 1, 0⟩
def CRD_CMD_BUSY : Fld := ⟨0xa00044, 9, 1, 0⟩
def CRD_CMD_RESULT : Fld := ⟨0xa00044, 12, 4, 0⟩
def CRD_KEY_SLOT : Fld := ⟨0xa00048, 0, 8, 0⟩
def CRD_KEY_KEYREF : Fld := ⟨0xa00048, 8, 8, 0⟩
def CRD_LEN_TX : Fld := ⟨0xa0004c, 0, 12, 0⟩
def CRD_LEN_RX : Fld := ⟨0xa0004c, 16, 12, 0⟩
def CRD_PARAM_FI : Fld := ⟨0xa00050, 0, 4, 1⟩
def CRD_PARAM_DI : Fld := ⟨0xa00050, 4, 4, 1⟩
def CRD_PARAM_N : Fld := ⟨0xa00050, 8, 8, 0⟩
def CRD_PARAM_IFSC : Fld := ⟨0xa00050, 16, 8, 32⟩
def CRD_PARAM_BWI : Fld := ⟨0xa00050, 24, 4, 4⟩
def CRD_PARAM_CWI : Fld := ⟨0xa00050, 28, 4, 13⟩
def CRD_PARAM2_EDC : Fld := ⟨0xa00054, 0, 1, 0⟩
def CRD_PARAM2_XI : Fld := ⟨0xa00054, 1, 2, 0⟩
def CRD_PARAM2_CLS : Fld := ⟨0xa00054, 3, 3, 0⟩
def CRD_PARAM2_DIV : Fld := ⟨0xa00054, 8, 9, 104⟩
def CRD_PARAM2_ATR_LEN : Fld := ⟨0xa00054, 24, 6, 0⟩
def CRD_CNT_REMOVALS : Fld := ⟨0xa00058, 0, 16, 0⟩
def CRD_CNT_OC : Fld := ⟨0xa00058, 16, 8, 0⟩
def CRD_CNT_RETRANS : Fld := ⟨0xa00058, 24, 8, 0⟩
def CRD_ATR_DATA (i : Nat) : Fld := ⟨0xa00060 + 4 * i, 0, 32, 0⟩
def CRD_TXBUF_DATA (i : Nat) : Fld := ⟨0xa00800 + 4 * i, 0, 32, 0⟩
def CRD_RXBUF_DATA (i : Nat) : Fld := ⟨0xa01000 + 4 * i, 0, 32, 0⟩
/-! ### Cartridge protocol (19) -/
def CBP_CFG_RATE : Fld := ⟨0xa02000, 0, 2, 3⟩
def CBP_CFG_SLEEP_IDLE : Fld := ⟨0xa02000, 8, 8, 0⟩
def CBP_CFG_CMD_TIMEOUT : Fld := ⟨0xa02000, 16, 8, 50⟩
def CBP_TIMING_RXDLY : Fld := ⟨0xa02004, 0, 4, 4⟩
def CBP_STATUS_STATE : Fld := ⟨0xa02008, 0, 3, 0⟩
def CBP_STATUS_NS_TX : Fld := ⟨0xa02008, 3, 1, 0⟩
def CBP_STATUS_NS_RX : Fld := ⟨0xa02008, 4, 1, 0⟩
def CBP_STATUS_RATE : Fld := ⟨0xa02008, 5, 2, 0⟩
def CBP_STATUS_FWI : Fld := ⟨0xa02008, 8, 4, 0⟩
def CBP_STATUS_PWP : Fld := ⟨0xa02008, 12, 1, 0⟩
def CBP_STATUS_TWP : Fld := ⟨0xa02008, 13, 1, 0⟩
def CBP_PROT_PR : Fld := ⟨0xa0200c, 0, 32, 0⟩
def CBP_TPROT_TR : Fld := ⟨0xa02010, 0, 32, 0⟩
def CBP_CMD_OP : Fld := ⟨0xa02014, 0, 2, 0⟩
def CBP_CMD_GO : Fld := ⟨0xa02014, 8, 1, 0⟩
def CBP_CMD_BUSY : Fld := ⟨0xa02014, 9, 1, 0⟩
def CBP_CMD_RESULT : Fld := ⟨0xa02014, 16, 4, 0⟩
def CBP_CMD_CSTATUS : Fld := ⟨0xa02014, 24, 8, 0⟩
def CBP_RAW_CODE : Fld := ⟨0xa02018, 0, 8, 0⟩
def CBP_RAW_FLAGS : Fld := ⟨0xa02018, 8, 8, 0⟩
def CBP_RAW_ARG16 : Fld := ⟨0xa02018, 16, 16, 0⟩
def CBP_RAW_ARG_ARG32 : Fld := ⟨0xa0201c, 0, 32, 0⟩
def CBP_CNT_RERR : Fld := ⟨0xa02020, 0, 8, 0⟩
def CBP_CNT_RESYNCH : Fld := ⟨0xa02020, 8, 8, 0⟩
def CBP_CNT_WTX : Fld := ⟨0xa02020, 16, 8, 0⟩
def CBP_CNT_INDET : Fld := ⟨0xa02020, 24, 8, 0⟩
def CBP_ID_DATA (i : Nat) : Fld := ⟨0xa02040 + 4 * i, 0, 32, 0⟩
def CBP_BUF_DATA (i : Nat) : Fld := ⟨0xa08000 + 4 * i, 0, 32, 0⟩
/-! ### Cartridge media (20) -/
def MED_CFG_PATROL_H : Fld := ⟨0xa04000, 0, 8, 24⟩
def MED_CFG_LOG_FLUSH : Fld := ⟨0xa04000, 8, 16, 1000⟩
def MED_WALL_MIN : Fld := ⟨0xa04004, 0, 32, 0⟩
def MED_STATUS_STATE : Fld := ⟨0xa04008, 0, 2, 0⟩
def MED_STATUS_MERR : Fld := ⟨0xa04008, 4, 3, 0⟩
def MED_STATUS_HDR_COPY : Fld := ⟨0xa04008, 8, 2, 0⟩
def MED_STATUS_UNSAVED : Fld := ⟨0xa04008, 10, 1, 0⟩
def MED_STATUS_LOG_READY : Fld := ⟨0xa04008, 11, 1, 0⟩
def MED_CMD_OP : Fld := ⟨0xa0400c, 0, 2, 0⟩
def MED_CMD_GO : Fld := ⟨0xa0400c, 8, 1, 0⟩
def MED_CMD_BUSY : Fld := ⟨0xa0400c, 9, 1, 0⟩
def MED_CMD_RESULT : Fld := ⟨0xa0400c, 16, 4, 0⟩
def MED_LOG_LEN_LEN : Fld := ⟨0xa04010, 0, 11, 0⟩
def MED_CT_MIN : Fld := ⟨0xa04014, 0, 32, 0⟩
def MED_CNT_RETRIES : Fld := ⟨0xa04018, 0, 16, 0⟩
def MED_CNT_REFRESHED : Fld := ⟨0xa04018, 16, 8, 0⟩
def MED_CNT_RETIRED : Fld := ⟨0xa04018, 24, 8, 0⟩
def MED_CNT2_UNCORR : Fld := ⟨0xa0401c, 0, 16, 0⟩
def MED_CNT2_LOG_LOST : Fld := ⟨0xa0401c, 16, 16, 0⟩
def MED_MAXC_BITS : Fld := ⟨0xa04020, 0, 8, 0⟩
def MED_LBUF_DATA (i : Nat) : Fld := ⟨0xa04800 + 4 * i, 0, 32, 0⟩
/-! ### Clasp links (21) -/
def CLS_CTRL_REQ_TIMEOUT : Fld := ⟨0xb00000, 0, 16, 100⟩
def CLS_ROUTE_PORT (i : Nat) : Fld := ⟨0xb00040 + 4 * i, 0, 2, 0⟩
def CLS_ROUTE_VALID (i : Nat) : Fld := ⟨0xb00040 + 4 * i, 2, 1, 0⟩
def CLS_PORT_CFG_EN (i : Nat) : Fld := ⟨0xb00100 + 32 * i, 0, 1, 0⟩
def CLS_PORT_CFG_MAXRATE (i : Nat) : Fld := ⟨0xb00100 + 32 * i, 1, 1, 1⟩
def CLS_PORT_CFG_MINWIDTH (i : Nat) : Fld := ⟨0xb00100 + 32 * i, 2, 1, 0⟩
def CLS_PORT_STAT_STATE (i : Nat) : Fld := ⟨0xb00104 + 32 * i, 0, 3, 0⟩
def CLS_PORT_STAT_RATE (i : Nat) : Fld := ⟨0xb00104 + 32 * i, 3, 1, 0⟩
def CLS_PORT_STAT_WIDTH (i : Nat) : Fld := ⟨0xb00104 + 32 * i, 4, 1, 0⟩
def CLS_PORT_STAT_PEER (i : Nat) : Fld := ⟨0xb00104 + 32 * i, 8, 4, 0⟩
def CLS_PORT_STAT_REASON (i : Nat) : Fld := ⟨0xb00104 + 32 * i, 12, 3, 0⟩
def CLS_PORT_STAT_DISCARDS (i : Nat) : Fld := ⟨0xb00104 + 32 * i, 16, 16, 0⟩
def CLS_PORT_CNT_REPLAYS (i : Nat) : Fld := ⟨0xb00108 + 32 * i, 0, 16, 0⟩
def CLS_PORT_CNT_RETRAINS (i : Nat) : Fld := ⟨0xb00108 + 32 * i, 16, 8, 0⟩
def CLS_PORT_CRC_COUNT (i : Nat) : Fld := ⟨0xb0010c + 32 * i, 0, 32, 0⟩
def CLS_PORT_FWD_COUNT (i : Nat) : Fld := ⟨0xb00110 + 32 * i, 0, 32, 0⟩
/-! ### Pair (22) -/
def PAIR_CFG_HB_US : Fld := ⟨0xc00000, 0, 16, 100⟩
def PAIR_CFG_AUTO : Fld := ⟨0xc00000, 16, 1, 1⟩
def PAIR_CFG_LOCK : Fld := ⟨0xc00000, 31, 1, 0⟩
def PAIR_TIME_TAKEOVER_US : Fld := ⟨0xc00004, 0, 16, 500⟩
def PAIR_TIME_ACK_MS : Fld := ⟨0xc00004, 16, 8, 10⟩
def PAIR_TIME_ALONE : Fld := ⟨0xc00004, 24, 8, 10⟩
def PAIR_GUARD_CNT : Fld := ⟨0xc00008, 0, 16, 64⟩
def PAIR_GUARD_NS : Fld := ⟨0xc00008, 16, 16, 10000⟩
def PAIR_STATUS_ROLE : Fld := ⟨0xc00010, 0, 3, 1⟩
def PAIR_STATUS_PARTNER_UP : Fld := ⟨0xc00010, 3, 1, 0⟩
def PAIR_STATUS_ASLEEP : Fld := ⟨0xc00010, 4, 1, 0⟩
def PAIR_STATUS_PARTNER_LOST : Fld := ⟨0xc00010, 5, 1, 0⟩
def PAIR_STATUS_PARTNER_ID : Fld := ⟨0xc00010, 8, 4, 0⟩
def PAIR_STATUS_LAT : Fld := ⟨0xc00010, 16, 16, 0⟩
def PAIR_CMD_OP : Fld := ⟨0xc00014, 0, 2, 0⟩
def PAIR_CMD_GO : Fld := ⟨0xc00014, 8, 1, 0⟩
def PAIR_CMD_BUSY : Fld := ⟨0xc00014, 9, 1, 0⟩
def PAIR_CMD_RESULT : Fld := ⟨0xc00014, 16, 4, 0⟩
def PAIR_COMMIT_SEQ : Fld := ⟨0xc00018, 0, 32, 0⟩
def PAIR_DRIFT_DP : Fld := ⟨0xc00020, 0, 64, 0⟩
def PAIR_CNT_TAKEOVERS : Fld := ⟨0xc00028, 0, 8, 0⟩
def PAIR_CNT_SPLITS : Fld := ⟨0xc00028, 8, 8, 0⟩
def PAIR_CNT_RESYNCS : Fld := ⟨0xc00028, 16, 8, 0⟩
def PAIR_PEER_DATA (i : Nat) : Fld := ⟨0xc00040 + 4 * i, 0, 32, 0⟩

end F

/-- The access codes of R8. -/
inductive Acc where
  | rw | ro | w1c | w1s | rs | wo
deriving DecidableEq, Repr

/-- A field in the register table: its place, its access code, and the values that are no reserved encoding (R10). -/
structure FieldDef where
  fld : Fld
  acc : Acc
  ok : Nat → Bool := fun _ => true

/-- A register, or an array of registers, of the register table. `fields n i` are the fields of element `i`, in tile `n`
for the registers of a tile block. -/
structure RegDef where
  base : Nat
  stride : Nat := 4
  count : Nat := 1
  wide : Bool := false
  fields : Nat → Nat → List FieldDef

/-- Values from `lo` to `hi` are allowed. -/
def within (lo hi v : Nat) : Bool := decide (lo ≤ v) && decide (v ≤ hi)

/-- A margin step of −10 to +10 as an 8-bit field (R90). -/
def stepOk (v : Nat) : Bool := decide (v ≤ 10) || decide (246 ≤ v)

/-- Registers of chapter 03. -/
def regs03 : List RegDef := [
  { base := 0x100000, fields := fun _ _ => [⟨F.SEQ_CTRL_LOCK, .w1s, fun _ => true⟩,
      ⟨F.SEQ_CTRL_SWRESET, .wo, fun _ => true⟩,
      ⟨F.SEQ_CTRL_FAULTN_REACT, .rw, within 0 2⟩,
      ⟨F.SEQ_CTRL_RST_LIMIT, .rw, fun _ => true⟩,
      ⟨F.SEQ_CTRL_PROG_LIMIT, .rw, within 1 255⟩,
      ⟨F.SEQ_CTRL_PG_DEGLITCH, .rw, within 1 255⟩] },
  { base := 0x100004, fields := fun _ _ => [⟨F.SEQ_STATUS_STATE, .ro, fun _ => true⟩,
      ⟨F.SEQ_STATUS_PC, .ro, fun _ => true⟩,
      ⟨F.SEQ_STATUS_F, .ro, fun _ => true⟩,
      ⟨F.SEQ_STATUS_ROMONLY, .ro, fun _ => true⟩,
      ⟨F.SEQ_STATUS_PROG_REJECTED, .ro, fun _ => true⟩,
      ⟨F.SEQ_STATUS_PMB0_DEGRADED, .ro, fun _ => true⟩,
      ⟨F.SEQ_STATUS_PMB1_DEGRADED, .ro, fun _ => true⟩,
      ⟨F.SEQ_STATUS_RST_COUNT, .ro, fun _ => true⟩,
      ⟨F.SEQ_STATUS_FAULTN_LOW, .ro, fun _ => true⟩,
      ⟨F.SEQ_STATUS_FAULTN_DRIVE, .ro, fun _ => true⟩,
      ⟨F.SEQ_STATUS_GROUP_OFF, .ro, fun _ => true⟩] },
  { base := 0x100008, fields := fun _ _ => [⟨F.SEQ_FAULT_CAUSE, .w1c, fun _ => true⟩] },
  { base := 0x100100, stride := 4, count := 24, fields := fun _ i => [⟨F.SEQ_RAIL_CFG_GROUP i, .rw, fun _ => true⟩,
      ⟨F.SEQ_RAIL_CFG_REACT i, .rw, fun _ => true⟩,
      ⟨F.SEQ_RAIL_CFG_RETRIES i, .rw, fun _ => true⟩,
      ⟨F.SEQ_RAIL_CFG_BACKOFF i, .rw, fun _ => true⟩,
      ⟨F.SEQ_RAIL_CFG_ESSENTIAL i, .rw, fun _ => true⟩,
      ⟨F.SEQ_RAIL_CFG_ADC i, .rw, fun _ => true⟩,
      ⟨F.SEQ_RAIL_CFG_ADC_EN i, .rw, fun _ => true⟩,
      ⟨F.SEQ_RAIL_CFG_PG_TIMEOUT i, .rw, within 1 255⟩,
      ⟨F.SEQ_RAIL_CFG_PG_EN i, .rw, fun _ => true⟩] },
  { base := 0x100200, stride := 4, count := 24, fields := fun _ i => [⟨F.SEQ_RAIL_PMB_EN i, .rw, fun _ => true⟩,
      ⟨F.SEQ_RAIL_PMB_BUS i, .rw, fun _ => true⟩,
      ⟨F.SEQ_RAIL_PMB_ADDR i, .rw, fun _ => true⟩,
      ⟨F.SEQ_RAIL_PMB_PAGE i, .rw, fun _ => true⟩,
      ⟨F.SEQ_RAIL_PMB_PHASES i, .rw, fun _ => true⟩] },
  { base := 0x100300, stride := 4, count := 24, fields := fun _ i => [⟨F.SEQ_RAIL_STAT_LAST_CAUSE i, .ro, fun _ => true⟩,
      ⟨F.SEQ_RAIL_STAT_RETRY_COUNT i, .ro, fun _ => true⟩,
      ⟨F.SEQ_RAIL_STAT_ON i, .ro, fun _ => true⟩,
      ⟨F.SEQ_RAIL_STAT_ARMED i, .ro, fun _ => true⟩,
      ⟨F.SEQ_RAIL_STAT_IN_REACTION i, .ro, fun _ => true⟩,
      ⟨F.SEQ_RAIL_STAT_FAULTS i, .rs, fun _ => true⟩] },
  { base := 0x100400, stride := 4, count := 32, fields := fun _ i => [⟨F.SEQ_ADC_WIN_LOW i, .rw, fun _ => true⟩,
      ⟨F.SEQ_ADC_WIN_HIGH i, .rw, fun _ => true⟩,
      ⟨F.SEQ_ADC_WIN_FILTER i, .rw, fun _ => true⟩,
      ⟨F.SEQ_ADC_WIN_EN i, .rw, fun _ => true⟩] },
  { base := 0x100500, stride := 4, count := 32, fields := fun _ i => [⟨F.SEQ_ADC_VAL_CODE i, .ro, fun _ => true⟩,
      ⟨F.SEQ_ADC_VAL_OUTCNT i, .ro, fun _ => true⟩,
      ⟨F.SEQ_ADC_VAL_OUT i, .ro, fun _ => true⟩,
      ⟨F.SEQ_ADC_VAL_SCAN i, .ro, fun _ => true⟩] },
  { base := 0x100040, stride := 4, count := 8, fields := fun _ i => [⟨F.SEQ_GRP_CFG_SHARED i, .rw, fun _ => true⟩,
      ⟨F.SEQ_GRP_CFG_FOLLOW i, .rw, fun _ => true⟩,
      ⟨F.SEQ_GRP_CFG_OFFDLY i, .rw, within 1 255⟩] },
  { base := 0x100014, fields := fun _ _ => [⟨F.SEQ_PMB_CTRL_FAST0, .rw, fun _ => true⟩,
      ⟨F.SEQ_PMB_CTRL_FAST1, .rw, fun _ => true⟩,
      ⟨F.SEQ_PMB_CTRL_PEC_EN, .rw, fun _ => true⟩,
      ⟨F.SEQ_PMB_CTRL_POLL_MS, .rw, within 1 255⟩] },
  { base := 0x100018, fields := fun _ _ => [⟨F.SEQ_MARGIN_CH, .rw, within 0 23⟩,
      ⟨F.SEQ_MARGIN_STEP, .rw, stepOk⟩,
      ⟨F.SEQ_MARGIN_GO, .wo, fun _ => true⟩,
      ⟨F.SEQ_MARGIN_BUSY, .ro, fun _ => true⟩,
      ⟨F.SEQ_MARGIN_OK, .ro, fun _ => true⟩] },
  { base := 0x10001c, fields := fun _ _ => [⟨F.SEQ_PHASE_CFG_FIRST, .rw, fun _ => true⟩,
      ⟨F.SEQ_PHASE_CFG_COUNT, .rw, fun _ => true⟩,
      ⟨F.SEQ_PHASE_CFG_IMBAL, .rw, within 1 99⟩,
      ⟨F.SEQ_PHASE_CFG_MINCODE, .rw, fun _ => true⟩,
      ⟨F.SEQ_PHASE_CFG_EN, .rw, fun _ => true⟩] },
  { base := 0x10000c, fields := fun _ _ => [⟨F.SEQ_EN_STATE_LEVEL, .ro, fun _ => true⟩] },
  { base := 0x100010, fields := fun _ _ => [⟨F.SEQ_PG_STATE_LEVEL, .ro, fun _ => true⟩] },
  { base := 0x100600, stride := 4, count := 24, fields := fun _ i => [⟨F.SEQ_TELEM_VOUT i, .ro, fun _ => true⟩,
      ⟨F.SEQ_TELEM_IOUT i, .ro, fun _ => true⟩] },
  { base := 0x101000, stride := 4, count := 256, fields := fun _ i => [⟨F.SEQ_PROG_WORD i, .ro, fun _ => true⟩] }]

/-- Registers of chapter 04. -/
def regs04 : List RegDef := [
  { base := 0x108000, fields := fun _ _ => [⟨F.LKT_CFG_VMIN, .rw, fun _ => true⟩] },
  { base := 0x108004, fields := fun _ _ => [⟨F.LKT_CAP_CAP_UF, .rw, fun _ => true⟩,
      ⟨F.LKT_CAP_ILOAD, .rw, fun _ => true⟩,
      ⟨F.LKT_CAP_ICHG, .rw, fun _ => true⟩] },
  { base := 0x108008, fields := fun _ _ => [⟨F.LKT_VSCALE_VSCALE, .rw, fun _ => true⟩] },
  { base := 0x10800c, fields := fun _ _ => [⟨F.LKT_GAUGE_Q, .ro, fun _ => true⟩] },
  { base := 0x108010, fields := fun _ _ => [⟨F.LKT_STATUS_PTR, .ro, fun _ => true⟩,
      ⟨F.LKT_STATUS_READY, .ro, fun _ => true⟩,
      ⟨F.LKT_STATUS_ERASING, .ro, fun _ => true⟩,
      ⟨F.LKT_STATUS_NOR_FAIL, .rs, fun _ => true⟩,
      ⟨F.LKT_STATUS_DISAGREE, .ro, fun _ => true⟩,
      ⟨F.LKT_STATUS_DROPPED, .rs, fun _ => true⟩] },
  { base := 0x108014, fields := fun _ _ => [⟨F.LKT_SEQ_SEQNUM, .ro, fun _ => true⟩] },
  { base := 0x108018, fields := fun _ _ => [⟨F.LKT_RD_IDX_IDX, .rw, fun _ => true⟩,
      ⟨F.LKT_RD_IDX_GO, .wo, fun _ => true⟩,
      ⟨F.LKT_RD_IDX_STATE, .ro, fun _ => true⟩] },
  { base := 0x108040, stride := 4, count := 16, fields := fun _ i => [⟨F.LKT_RD_DATA_DATA i, .ro, fun _ => true⟩] }]

/-- Registers of chapter 05. -/
def regs05 : List RegDef := [
  { base := 0x200000, fields := fun _ _ => [⟨F.BOOT_STATUS_STAGE, .ro, fun _ => true⟩,
      ⟨F.BOOT_STATUS_COPY, .ro, fun _ => true⟩,
      ⟨F.BOOT_STATUS_VERIFIED, .ro, fun _ => true⟩,
      ⟨F.BOOT_STATUS_DRAM_READY, .ro, fun _ => true⟩,
      ⟨F.BOOT_STATUS_DRAM_FAIL, .ro, fun _ => true⟩,
      ⟨F.BOOT_STATUS_CFG_PARTIAL, .ro, fun _ => true⟩,
      ⟨F.BOOT_STATUS_DRAM_BUSY, .ro, fun _ => true⟩] },
  { base := 0x200004, fields := fun _ _ => [⟨F.BOOT_CAUSE_LAST, .ro, fun _ => true⟩,
      ⟨F.BOOT_CAUSE_SEEN, .w1c, fun _ => true⟩,
      ⟨F.BOOT_CAUSE_WDT_COUNT, .rs, fun _ => true⟩] },
  { base := 0x200008, fields := fun _ _ => [⟨F.BOOT_ERR_ERR_A, .ro, fun _ => true⟩,
      ⟨F.BOOT_ERR_ERR_B, .ro, fun _ => true⟩] },
  { base := 0x20000c, fields := fun _ _ => [⟨F.BOOT_GEN_GENERATION, .ro, fun _ => true⟩] },
  { base := 0x200010, fields := fun _ _ => [⟨F.BOOT_SFDP_MODE, .ro, fun _ => true⟩,
      ⟨F.BOOT_SFDP_ERSUSP, .ro, fun _ => true⟩,
      ⟨F.BOOT_SFDP_SIZE_LOG2, .ro, fun _ => true⟩,
      ⟨F.BOOT_SFDP_PRESENT, .ro, fun _ => true⟩] },
  { base := 0x200014, fields := fun _ _ => [⟨F.BOOT_STANDING_STATE, .ro, fun _ => true⟩,
      ⟨F.BOOT_STANDING_CAUSE, .ro, fun _ => true⟩,
      ⟨F.BOOT_STANDING_GO, .wo, fun _ => true⟩] },
  { base := 0x200018, fields := fun _ _ => [⟨F.BOOT_WDT_PERIOD, .rw, fun _ => true⟩,
      ⟨F.BOOT_WDT_SRC, .rw, fun _ => true⟩] },
  { base := 0x20001c, fields := fun _ _ => [⟨F.BOOT_WDT_KICK_KICK, .wo, fun _ => true⟩] },
  { base := 0x200040, stride := 4, count := 12, fields := fun _ i => [⟨F.BOOT_KEYHASH_HASH i, .ro, fun _ => true⟩] }]

/-- Registers of chapter 06. -/
def regs06 : List RegDef := [
  { base := 0x0, fields := fun _ _ => [⟨F.GLB_ID_PART, .ro, fun _ => true⟩,
      ⟨F.GLB_ID_STEP, .ro, fun _ => true⟩] },
  { base := 0x4, fields := fun _ _ => [⟨F.GLB_STRAP_CHIPID, .ro, fun _ => true⟩,
      ⟨F.GLB_STRAP_BOOT, .ro, fun _ => true⟩,
      ⟨F.GLB_STRAP_PAIR, .ro, fun _ => true⟩,
      ⟨F.GLB_STRAP_SEQROM, .ro, fun _ => true⟩] },
  { base := 0x8, wide := true, fields := fun _ _ => [⟨F.GLB_UPTIME_US, .ro, fun _ => true⟩] },
  { base := 0x10, fields := fun _ _ => [⟨F.GLB_FUSE_ENC_EN, .ro, fun _ => true⟩,
      ⟨F.GLB_FUSE_CLASP_EN, .ro, fun _ => true⟩,
      ⟨F.GLB_FUSE_PAIR_EN, .ro, fun _ => true⟩,
      ⟨F.GLB_FUSE_KEYHASH_SET, .ro, fun _ => true⟩] },
  { base := 0x14, fields := fun _ _ => [⟨F.GLB_DOMAIN_CORE_ON, .ro, fun _ => true⟩,
      ⟨F.GLB_DOMAIN_TILE_ON, .ro, fun _ => true⟩] },
  { base := 0x20, stride := 4, count := 4, fields := fun _ i => [⟨F.GLB_SCRATCH_DATA i, .rw, fun _ => true⟩] },
  { base := 0x300000, fields := fun _ _ => [⟨F.PCI_STATUS_SPEED, .ro, fun _ => true⟩,
      ⟨F.PCI_STATUS_WIDTH, .ro, fun _ => true⟩,
      ⟨F.PCI_STATUS_DL_UP, .ro, fun _ => true⟩,
      ⟨F.PCI_STATUS_HCP_STALL, .ro, fun _ => true⟩,
      ⟨F.PCI_STATUS_D3, .ro, fun _ => true⟩] },
  { base := 0x300008, fields := fun _ _ => [⟨F.PCI_ERR_REG_ACCESS, .w1c, fun _ => true⟩,
      ⟨F.PCI_ERR_DOMAIN_OFF, .w1c, fun _ => true⟩,
      ⟨F.PCI_ERR_BAR2_HOLE, .w1c, fun _ => true⟩,
      ⟨F.PCI_ERR_P2P_VIOLATION, .w1c, fun _ => true⟩,
      ⟨F.PCI_ERR_CPL_FAIL, .w1c, fun _ => true⟩,
      ⟨F.PCI_ERR_FIRST, .ro, fun _ => true⟩,
      ⟨F.PCI_ERR_COUNT, .rs, fun _ => true⟩] },
  { base := 0x300010, wide := true, fields := fun _ _ => [⟨F.PCI_ERR_ADDR_ADDR, .ro, fun _ => true⟩] },
  { base := 0x300018, fields := fun _ _ => [⟨F.PCI_ERR_RID_RID, .ro, fun _ => true⟩] },
  { base := 0x300020, fields := fun _ _ => [⟨F.PCI_BAR2_CTRL_EN, .rw, fun _ => true⟩,
      ⟨F.PCI_BAR2_CTRL_KEYSEL, .rw, fun _ => true⟩,
      ⟨F.PCI_BAR2_CTRL_SIZE, .ro, fun _ => true⟩] },
  { base := 0x300028, wide := true, fields := fun _ _ => [⟨F.PCI_BAR2_BASE_BASE, .rw, fun _ => true⟩] },
  { base := 0x300100, stride := 4, count := 128, fields := fun _ i => [⟨F.PCI_IRQ_MAP_VECTOR i, .rw, fun _ => true⟩,
      ⟨F.PCI_IRQ_MAP_EN i, .rw, fun _ => true⟩] },
  { base := 0x300400, fields := fun _ _ => [⟨F.PCI_P2P_CTRL_FILTER, .rw, fun _ => true⟩] },
  { base := 0x300440, stride := 32, count := 8, fields := fun _ i => [⟨F.PCI_AP_CFG_RID i, .rw, fun _ => true⟩,
      ⟨F.PCI_AP_CFG_RID_MASK i, .rw, fun _ => true⟩] },
  { base := 0x300444, stride := 32, count := 8, fields := fun _ i => [⟨F.PCI_AP_CTL_EN i, .rw, fun _ => true⟩,
      ⟨F.PCI_AP_CTL_SLOT_LOG2 i, .rw, within 12 24⟩,
      ⟨F.PCI_AP_CTL_CTX i, .rw, fun _ => true⟩] },
  { base := 0x300448, stride := 32, count := 8, fields := fun _ i => [⟨F.PCI_AP_SEM_SEM i, .rw, fun _ => true⟩] },
  { base := 0x30044c, stride := 32, count := 8, fields := fun _ i => [⟨F.PCI_AP_DROPS_DROPS i, .ro, fun _ => true⟩] },
  { base := 0x300450, stride := 32, count := 8, wide := true, fields := fun _ i => [⟨F.PCI_AP_BASE_ADDR i, .rw, fun _ => true⟩] },
  { base := 0x300458, stride := 32, count := 8, wide := true, fields := fun _ i => [⟨F.PCI_AP_LIMIT_ADDR i, .rw, fun _ => true⟩] }]

/-- Registers of chapter 07. -/
def regs07 : List RegDef := [
  { base := 0x400000, fields := fun _ _ => [⟨F.MEM_CHAN_MASK, .ro, fun _ => true⟩] },
  { base := 0x400004, fields := fun _ _ => [⟨F.MEM_CFG_RATE, .ro, fun _ => true⟩,
      ⟨F.MEM_CFG_DENSITY, .ro, fun _ => true⟩,
      ⟨F.MEM_CFG_ECC, .ro, fun _ => true⟩] },
  { base := 0x400008, wide := true, fields := fun _ _ => [⟨F.MEM_SIZE_BYTES, .ro, fun _ => true⟩] },
  { base := 0x400010, fields := fun _ _ => [⟨F.MEM_SCRUB_PERIOD, .rw, fun _ => true⟩,
      ⟨F.MEM_SCRUB_ACTIVE, .ro, fun _ => true⟩] },
  { base := 0x400018, fields := fun _ _ => [⟨F.MEM_ECC_STAT_UE, .w1c, fun _ => true⟩,
      ⟨F.MEM_ECC_STAT_SRAM_CE, .ro, fun _ => true⟩,
      ⟨F.MEM_ECC_STAT_DRAM_CE, .rs, fun _ => true⟩] },
  { base := 0x400020, wide := true, fields := fun _ _ => [⟨F.MEM_ERR_ADDR_ADDR, .ro, fun _ => true⟩] },
  { base := 0x400028, fields := fun _ _ => [⟨F.MEM_ERR_INFO_CHANNEL, .ro, fun _ => true⟩,
      ⟨F.MEM_ERR_INFO_SOURCE, .ro, fun _ => true⟩,
      ⟨F.MEM_ERR_INFO_CTX, .ro, fun _ => true⟩] },
  { base := 0x400040, fields := fun _ _ => [⟨F.MEM_KEY_CMD_OP, .rw, within 0 2⟩,
      ⟨F.MEM_KEY_CMD_SLOT, .rw, fun _ => true⟩,
      ⟨F.MEM_KEY_CMD_GO, .wo, fun _ => true⟩] },
  { base := 0x400044, fields := fun _ _ => [⟨F.MEM_KEY_STAT_BUSY, .ro, fun _ => true⟩,
      ⟨F.MEM_KEY_STAT_RESULT, .ro, fun _ => true⟩,
      ⟨F.MEM_KEY_STAT_STATE, .ro, fun _ => true⟩] },
  { base := 0x400080, stride := 4, count := 16, fields := fun _ i => [⟨F.MEM_KEY_DATA_DATA i, .wo, fun _ => true⟩] },
  { base := 0x400100, stride := 4, count := 32, fields := fun _ i => [⟨F.MEM_TRAIN_STATUS i, .ro, fun _ => true⟩,
      ⟨F.MEM_TRAIN_ATTEMPTS i, .ro, fun _ => true⟩] }]

/-- Registers of chapter 08. -/
def regs08 : List RegDef := [
  { base := 0x500000, fields := fun _ _ => [⟨F.MMU_CTRL_PRI_TIMEOUT, .rw, within 1 65535⟩,
      ⟨F.MMU_CTRL_PRI_ATTEMPTS, .rw, within 1 15⟩] },
  { base := 0x500004, fields := fun _ _ => [⟨F.MMU_STATUS_ATS_EN, .ro, fun _ => true⟩,
      ⟨F.MMU_STATUS_PRI_EN, .ro, fun _ => true⟩,
      ⟨F.MMU_STATUS_PRI_STOPPED, .ro, fun _ => true⟩,
      ⟨F.MMU_STATUS_ADVISE_ERR, .ro, fun _ => true⟩,
      ⟨F.MMU_STATUS_PRG_OUT, .ro, fun _ => true⟩,
      ⟨F.MMU_STATUS_INV_OUT, .ro, fun _ => true⟩] },
  { base := 0x500010, fields := fun _ _ => [⟨F.MMU_CTX_SEL_CTX, .rw, fun _ => true⟩] },
  { base := 0x500014, fields := fun _ _ => [⟨F.MMU_CTX_CMD_OP, .rw, fun _ => true⟩,
      ⟨F.MMU_CTX_CMD_GO, .wo, fun _ => true⟩,
      ⟨F.MMU_CTX_CMD_BUSY, .ro, fun _ => true⟩,
      ⟨F.MMU_CTX_CMD_RESULT, .ro, fun _ => true⟩] },
  { base := 0x500018, wide := true, fields := fun _ _ => [⟨F.MMU_CTX_ROOT_ROOT, .rw, fun _ => true⟩] },
  { base := 0x500020, fields := fun _ _ => [⟨F.MMU_CTX_PASID_PASID, .rw, fun _ => true⟩,
      ⟨F.MMU_CTX_PASID_BOUND, .ro, fun _ => true⟩] },
  { base := 0x500024, fields := fun _ _ => [⟨F.MMU_CTX_STATE_STATE, .ro, fun _ => true⟩,
      ⟨F.MMU_CTX_STATE_CAUSE, .ro, fun _ => true⟩,
      ⟨F.MMU_CTX_STATE_SUSPENDED, .ro, fun _ => true⟩] },
  { base := 0x500028, fields := fun _ _ => [⟨F.MMU_PIN_IDX_IDX, .rw, fun _ => true⟩] },
  { base := 0x500030, wide := true, fields := fun _ _ => [⟨F.MMU_PIN_VA_VA, .rw, fun _ => true⟩] },
  { base := 0x500038, wide := true, fields := fun _ _ => [⟨F.MMU_PIN_LEN_LEN, .rw, fun _ => true⟩] },
  { base := 0x500040, wide := true, fields := fun _ _ => [⟨F.MMU_PIN_PA_PA, .ro, fun _ => true⟩,
      ⟨F.MMU_PIN_PA_W, .ro, fun _ => true⟩] },
  { base := 0x501000, stride := 16, count := 64, fields := fun _ i => [⟨F.MMU_WIN_CTL_EN i, .rw, fun _ => true⟩,
      ⟨F.MMU_WIN_CTL_CTX i, .rw, fun _ => true⟩] },
  { base := 0x501004, stride := 16, count := 64, fields := fun _ i => [⟨F.MMU_WIN_SRC_SRCMASK i, .rw, fun _ => true⟩] },
  { base := 0x501008, stride := 16, count := 64, wide := true, fields := fun _ i => [⟨F.MMU_WIN_BASE_BASE i, .rw, fun _ => true⟩] },
  { base := 0x501400, fields := fun _ _ => [⟨F.MMU_WIN_REJ_COUNT, .ro, fun _ => true⟩] }]

/-- Registers of chapter 09. -/
def regs09 : List RegDef := [
  { base := 0x608000, wide := true, fields := fun _ _ => [⟨F.CMD_EVT_BASE_LOC, .rw, fun _ => true⟩,
      ⟨F.CMD_EVT_BASE_ADDR, .rw, fun _ => true⟩] },
  { base := 0x608008, fields := fun _ _ => [⟨F.CMD_EVT_CTRL_EN, .rw, fun _ => true⟩,
      ⟨F.CMD_EVT_CTRL_FAULT_EV, .rw, fun _ => true⟩] },
  { base := 0x60800c, fields := fun _ _ => [⟨F.CMD_EVT_HEAD_HEAD, .rw, fun _ => true⟩] },
  { base := 0x608010, fields := fun _ _ => [⟨F.CMD_EVT_TAIL_TAIL, .ro, fun _ => true⟩,
      ⟨F.CMD_EVT_TAIL_PHASE, .ro, fun _ => true⟩] },
  { base := 0x608014, fields := fun _ _ => [⟨F.CMD_EVT_STAT_LOST, .ro, fun _ => true⟩,
      ⟨F.CMD_EVT_STAT_OVERFLOW, .w1c, fun _ => true⟩] },
  { base := 0x608018, wide := true, fields := fun _ _ => [⟨F.CMD_EVT_CREDIT_HELD, .ro, fun _ => true⟩] },
  { base := 0x608020, wide := true, fields := fun _ _ => [⟨F.CMD_EVT_MERGED_PEND, .ro, fun _ => true⟩] },
  { base := 0x608040, fields := fun _ _ => [⟨F.CMD_SAVE_POOL_SIZE, .rw, within 1 16⟩] },
  { base := 0x608044, fields := fun _ _ => [⟨F.CMD_PRE_CTRL_GRACE, .rw, fun _ => true⟩,
      ⟨F.CMD_PRE_CTRL_MIN_RUN, .rw, fun _ => true⟩] },
  { base := 0x608048, fields := fun _ _ => [⟨F.CMD_PRE_SEL_CTX, .rw, fun _ => true⟩] },
  { base := 0x608050, wide := true, fields := fun _ _ => [⟨F.CMD_PRE_SPILL_BASE, .rw, fun _ => true⟩,
      ⟨F.CMD_PRE_SPILL_KEY, .rw, fun _ => true⟩] },
  { base := 0x608058, fields := fun _ _ => [⟨F.CMD_PRE_CMD_OP, .rw, within 0 5⟩,
      ⟨F.CMD_PRE_CMD_GO, .wo, fun _ => true⟩,
      ⟨F.CMD_PRE_CMD_BUSY, .ro, fun _ => true⟩,
      ⟨F.CMD_PRE_CMD_RESULT, .ro, fun _ => true⟩] },
  { base := 0x60805c, fields := fun _ _ => [⟨F.CMD_PRE_STAT_PSTATE, .ro, fun _ => true⟩,
      ⟨F.CMD_PRE_STAT_HOLD, .ro, fun _ => true⟩,
      ⟨F.CMD_PRE_STAT_SPILL, .ro, fun _ => true⟩,
      ⟨F.CMD_PRE_STAT_COUNT, .ro, fun _ => true⟩] },
  { base := 0x608060, fields := fun _ _ => [⟨F.CMD_PRE_LAT_LAST, .ro, fun _ => true⟩,
      ⟨F.CMD_PRE_LAT_MAX, .ro, fun _ => true⟩] }]

/-- Registers of chapter 10. -/
def regs10 : List RegDef := [
  { base := 0x600100, stride := 4, count := 16, fields := fun _ i => [⟨F.CMD_TILE_QUEUE i, .ro, fun _ => true⟩,
      ⟨F.CMD_TILE_LEASED i, .ro, fun _ => true⟩,
      ⟨F.CMD_TILE_BUSY i, .ro, fun _ => true⟩,
      ⟨F.CMD_TILE_CTX i, .ro, fun _ => true⟩] },
  { base := 0x601000, stride := 64, count := 64, fields := fun _ i => [⟨F.Q_CFG_EN i, .rw, fun _ => true⟩,
      ⟨F.Q_CFG_PRIO i, .rw, fun _ => true⟩,
      ⟨F.Q_CFG_LOG2 i, .rw, fun _ => true⟩,
      ⟨F.Q_CFG_CPL_LOG2 i, .rw, fun _ => true⟩,
      ⟨F.Q_CFG_CPL_MODE i, .rw, fun _ => true⟩,
      ⟨F.Q_CFG_PRIV i, .rw, fun _ => true⟩,
      ⟨F.Q_CFG_HALT_ON_FAIL i, .rw, fun _ => true⟩,
      ⟨F.Q_CFG_RESUME i, .wo, fun _ => true⟩,
      ⟨F.Q_CFG_CTX i, .rw, fun _ => true⟩] },
  { base := 0x601008, stride := 64, count := 64, wide := true, fields := fun _ i => [⟨F.Q_RING_BASE_VA i, .rw, fun _ => true⟩] },
  { base := 0x601010, stride := 64, count := 64, wide := true, fields := fun _ i => [⟨F.Q_CPL_BASE_VA i, .rw, fun _ => true⟩] },
  { base := 0x601018, stride := 64, count := 64, fields := fun _ i => [⟨F.Q_HEAD_HEAD i, .ro, fun _ => true⟩] },
  { base := 0x60101c, stride := 64, count := 64, fields := fun _ i => [⟨F.Q_TAIL_TAIL i, .rw, fun _ => true⟩] },
  { base := 0x601020, stride := 64, count := 64, fields := fun _ i => [⟨F.Q_CPL_HEAD_HEAD i, .rw, fun _ => true⟩] },
  { base := 0x601024, stride := 64, count := 64, fields := fun _ i => [⟨F.Q_CPL_TAIL_TAIL i, .ro, fun _ => true⟩,
      ⟨F.Q_CPL_TAIL_PHASE i, .ro, fun _ => true⟩] },
  { base := 0x601028, stride := 64, count := 64, fields := fun _ i => [⟨F.Q_STATUS_STATE i, .ro, fun _ => true⟩,
      ⟨F.Q_STATUS_BLOCK i, .ro, fun _ => true⟩,
      ⟨F.Q_STATUS_INFLIGHT i, .ro, fun _ => true⟩,
      ⟨F.Q_STATUS_LAST_STATUS i, .ro, fun _ => true⟩] },
  { base := 0x60102c, stride := 64, count := 64, fields := fun _ i => [⟨F.Q_LEASE_L i, .ro, fun _ => true⟩] },
  { base := 0x604000, stride := 4, count := 4096, fields := fun _ i => [⟨F.SEM_VAL_VALUE i, .rw, fun _ => true⟩] },
  { base := 0x610000, stride := 4, count := 4096, fields := fun _ i => [⟨F.SEM_CFG_EN i, .rw, fun _ => true⟩,
      ⟨F.SEM_CFG_SHARE i, .rw, fun _ => true⟩,
      ⟨F.SEM_CFG_WAITERS i, .ro, fun _ => true⟩,
      ⟨F.SEM_CFG_CTX i, .rw, fun _ => true⟩] },
  { base := 0x700000, stride := 4096, count := 64, fields := fun _ i => [⟨F.CMD_DB_TAIL i, .wo, fun _ => true⟩] }]

/-- Registers of chapter 16. -/
def regs16 : List RegDef := [
  { base := 0x800000, fields := fun _ _ => [⟨F.PWR_CTRL_REPEAT, .rw, fun _ => true⟩,
      ⟨F.PWR_CTRL_MC_MODE, .rw, fun _ => true⟩,
      ⟨F.PWR_CTRL_HOST_FMAX, .rw, fun _ => true⟩,
      ⟨F.PWR_CTRL_THROTTLE_C, .rw, within 60 100⟩,
      ⟨F.PWR_CTRL_SHUT_IDLE, .rw, fun _ => true⟩] },
  { base := 0x800004, fields := fun _ _ => [⟨F.PWR_CAP_CAP_W, .rw, within Config.capMin Config.capMax⟩,
      ⟨F.PWR_CAP_WINDOW, .rw, within 1 255⟩,
      ⟨F.PWR_CAP_VSETTLE, .rw, within 1 255⟩] },
  { base := 0x800008, fields := fun _ _ => [⟨F.PWR_STATUS_POINT, .ro, fun _ => true⟩,
      ⟨F.PWR_STATUS_VCODE, .ro, fun _ => true⟩,
      ⟨F.PWR_STATUS_LOUVRE, .ro, fun _ => true⟩,
      ⟨F.PWR_STATUS_REASON, .ro, fun _ => true⟩,
      ⟨F.PWR_STATUS_SENSE_FAIL, .ro, fun _ => true⟩,
      ⟨F.PWR_STATUS_REPEAT_HELD, .ro, fun _ => true⟩,
      ⟨F.PWR_STATUS_VFROZEN, .ro, fun _ => true⟩,
      ⟨F.PWR_STATUS_PH_LOST, .ro, fun _ => true⟩] },
  { base := 0x80000c, fields := fun _ _ => [⟨F.PWR_FUSE_CAP_MIN, .ro, fun _ => true⟩,
      ⟨F.PWR_FUSE_CAP_MAX, .ro, fun _ => true⟩,
      ⟨F.PWR_FUSE_REPEAT_IDX, .ro, fun _ => true⟩,
      ⟨F.PWR_FUSE_REPEAT_CAP, .ro, fun _ => true⟩] },
  { base := 0x800010, fields := fun _ _ => [⟨F.PWR_EDC_EDC_A, .ro, fun _ => true⟩,
      ⟨F.PWR_EDC_PHASES, .rw, fun _ => true⟩,
      ⟨F.PWR_EDC_EDC_LIM, .ro, fun _ => true⟩,
      ⟨F.PWR_EDC_PHASE_RESTORE, .wo, fun _ => true⟩] },
  { base := 0x800014, fields := fun _ _ => [⟨F.PWR_POWER_AVG, .ro, fun _ => true⟩] },
  { base := 0x800018, fields := fun _ _ => [⟨F.PWR_MC_MEMBERS, .rw, fun _ => true⟩,
      ⟨F.PWR_MC_CEIL, .ro, fun _ => true⟩,
      ⟨F.PWR_MC_PAIR_LS, .ro, fun _ => true⟩] },
  { base := 0x80001c, fields := fun _ _ => [⟨F.PWR_DEFAULT_TILE_MW, .rw, fun _ => true⟩] },
  { base := 0x800020, fields := fun _ _ => [⟨F.PWR_RAILS_MASK, .rw, fun _ => true⟩] },
  { base := 0x800040, stride := 8, count := 8, wide := true, fields := fun _ i => [⟨F.PWR_THR_US i, .ro, fun _ => true⟩] },
  { base := 0x800100, stride := 4, count := 24, fields := fun _ i => [⟨F.PWR_TEMP_TEMP i, .ro, fun _ => true⟩,
      ⟨F.PWR_TEMP_FAIL i, .ro, fun _ => true⟩] },
  { base := 0x800160, fields := fun _ _ => [⟨F.PWR_TMAX_TEMP, .ro, fun _ => true⟩,
      ⟨F.PWR_TMAX_SENSOR, .ro, fun _ => true⟩] },
  { base := 0x800200, stride := 4, count := 80, fields := fun _ i => [⟨F.PWR_VF_VCODE i, .ro, fun _ => true⟩] },
  { base := 0x800400, fields := fun _ _ => [⟨F.PWR_TAG_SEL_TAG, .rw, fun _ => true⟩] },
  { base := 0x800404, fields := fun _ _ => [⟨F.PWR_TAG_CORE_DC, .ro, fun _ => true⟩,
      ⟨F.PWR_TAG_CORE_COUNT, .ro, fun _ => true⟩] },
  { base := 0x800408, fields := fun _ _ => [⟨F.PWR_TAG_ML_DM, .ro, fun _ => true⟩,
      ⟨F.PWR_TAG_ML_DL, .ro, fun _ => true⟩] },
  { base := 0x80040c, fields := fun _ _ => [⟨F.PWR_TAG_HINT_HINT, .ro, fun _ => true⟩,
      ⟨F.PWR_TAG_HINT_HINTED, .ro, fun _ => true⟩,
      ⟨F.PWR_TAG_HINT_OVERRIDDEN, .ro, fun _ => true⟩,
      ⟨F.PWR_TAG_HINT_MISSES, .ro, fun _ => true⟩] },
  { base := 0x800410, fields := fun _ _ => [⟨F.PWR_CTX_SEL_CTX, .rw, fun _ => true⟩] },
  { base := 0x800418, wide := true, fields := fun _ _ => [⟨F.PWR_CTX_ENERGY_UJ, .ro, fun _ => true⟩] },
  { base := 0x800420, wide := true, fields := fun _ _ => [⟨F.PWR_DEV_ENERGY_UJ, .ro, fun _ => true⟩] }]

/-- Registers of chapter 17. -/
def regs17 : List RegDef := [
  { base := 0x900000, fields := fun _ _ => [⟨F.TB_CTRL_EN, .rw, fun _ => true⟩,
      ⟨F.TB_CTRL_SRC, .rw, fun _ => true⟩,
      ⟨F.TB_CTRL_LOCK, .w1s, fun _ => true⟩] },
  { base := 0x900004, fields := fun _ _ => [⟨F.TB_CFG_REVERSE, .rw, fun _ => true⟩,
      ⟨F.TB_CFG_LOST_POLICY, .rw, fun _ => true⟩,
      ⟨F.TB_CFG_LATE_POLICY, .rw, fun _ => true⟩,
      ⟨F.TB_CFG_RECOV_REF, .rw, fun _ => true⟩,
      ⟨F.TB_CFG_FILTER, .rw, fun _ => true⟩,
      ⟨F.TB_CFG_LOSS_FACTOR, .rw, within 2 15⟩] },
  { base := 0x900008, fields := fun _ _ => [⟨F.TB_HOLD_HOLDOVER_MAX, .rw, within 1 10000⟩] },
  { base := 0x90000c, fields := fun _ _ => [⟨F.TB_SLEW_SLEW_MAX, .rw, fun _ => true⟩] },
  { base := 0x900010, fields := fun _ _ => [⟨F.TB_ZPERIOD_PERIOD, .rw, within 1 4294967295⟩] },
  { base := 0x900014, fields := fun _ _ => [⟨F.TB_ZPHASE_PHASE, .rw, fun _ => true⟩] },
  { base := 0x900018, fields := fun _ _ => [⟨F.TB_PULSECNT_COUNTS, .rw, within 1 65536⟩] },
  { base := 0x90001c, fields := fun _ _ => [⟨F.TB_MINVEL_VMIN, .rw, fun _ => true⟩] },
  { base := 0x900020, wide := true, fields := fun _ _ => [⟨F.TB_POS_P, .ro, fun _ => true⟩] },
  { base := 0x900028, wide := true, fields := fun _ _ => [⟨F.TB_POS_SET_P, .rw, fun _ => true⟩] },
  { base := 0x900030, fields := fun _ _ => [⟨F.TB_VEL_V, .ro, fun _ => true⟩] },
  { base := 0x900034, fields := fun _ _ => [⟨F.TB_HOST_RATE_RATE, .rw, fun _ => true⟩] },
  { base := 0x900038, wide := true, fields := fun _ _ => [⟨F.TB_HOST_STEP_STEP, .wo, fun _ => true⟩] },
  { base := 0x900040, fields := fun _ _ => [⟨F.TB_STATUS_QUALITY, .ro, fun _ => true⟩,
      ⟨F.TB_STATUS_ACQUIRED, .ro, fun _ => true⟩,
      ⟨F.TB_STATUS_SLEWING, .ro, fun _ => true⟩,
      ⟨F.TB_STATUS_HOLDBACK, .ro, fun _ => true⟩,
      ⟨F.TB_STATUS_BACKING, .ro, fun _ => true⟩] },
  { base := 0x900048, wide := true, fields := fun _ _ => [⟨F.TB_ERR_E, .ro, fun _ => true⟩] },
  { base := 0x900050, wide := true, fields := fun _ _ => [⟨F.TB_RAW_N, .ro, fun _ => true⟩] },
  { base := 0x900058, fields := fun _ _ => [⟨F.TB_CNT0_STEPS, .ro, fun _ => true⟩,
      ⟨F.TB_CNT0_LATE, .ro, fun _ => true⟩] },
  { base := 0x90005c, fields := fun _ _ => [⟨F.TB_CNT1_DROPPED, .ro, fun _ => true⟩,
      ⟨F.TB_CNT1_QERR, .ro, fun _ => true⟩] },
  { base := 0x900060, wide := true, fields := fun _ _ => [⟨F.TB_ALARM_BUSY_BUSY, .ro, fun _ => true⟩] },
  { base := 0x900068, fields := fun _ _ => [⟨F.TB_ZMISS_COUNT, .ro, fun _ => true⟩] },
  { base := 0x900080, stride := 4, count := 4, fields := fun _ i => [⟨F.TB_GATE_CFG_EN i, .rw, fun _ => true⟩,
      ⟨F.TB_GATE_CFG_INV i, .rw, fun _ => true⟩,
      ⟨F.TB_GATE_CFG_LATE_W i, .rw, within 1 4095⟩,
      ⟨F.TB_GATE_CFG_CTX i, .rw, fun _ => true⟩] },
  { base := 0x900090, stride := 4, count := 4, fields := fun _ i => [⟨F.TB_GATE_STAT_PENDING i, .ro, fun _ => true⟩,
      ⟨F.TB_GATE_STAT_LEVEL i, .ro, fun _ => true⟩] },
  { base := 0x9000a0, fields := fun _ _ => [⟨F.TB_PULSE_DIV_DIV, .rw, within 1 4294967295⟩] },
  { base := 0x9000a4, fields := fun _ _ => [⟨F.TB_PULSE_CFG_WIDTH, .rw, within 1 65535⟩,
      ⟨F.TB_PULSE_CFG_EN, .rw, fun _ => true⟩] },
  { base := 0x9000a8, fields := fun _ _ => [⟨F.TB_PULSE_SKIP_COUNT, .ro, fun _ => true⟩] },
  { base := 0x900100, fields := fun _ _ => [⟨F.VP_CTRL_CLEAR, .wo, fun _ => true⟩] },
  { base := 0x900104, fields := fun _ _ => [⟨F.VP_UPDATES_COUNT, .ro, fun _ => true⟩] },
  { base := 0x900140, stride := 4, count := 16, fields := fun _ i => [⟨F.VP_BLOCK_EN i, .rw, fun _ => true⟩,
      ⟨F.VP_BLOCK_CTX i, .rw, fun _ => true⟩] },
  { base := 0x901000, stride := 4, count := 1024, fields := fun _ i => [⟨F.VP_TABLE_WORD i, .ro, fun _ => true⟩] }]

/-- Registers of chapter 18. -/
def regs18 : List RegDef := [
  { base := 0xa00000, fields := fun _ _ => [⟨F.CRD_CFG_AUTO, .rw, fun _ => true⟩,
      ⟨F.CRD_CFG_DET_POL, .rw, fun _ => true⟩,
      ⟨F.CRD_CFG_PPS_EN, .rw, fun _ => true⟩,
      ⟨F.CRD_CFG_CLASSES, .rw, fun _ => true⟩,
      ⟨F.CRD_CFG_DEBOUNCE, .rw, within 1 255⟩] },
  { base := 0xa00004, fields := fun _ _ => [⟨F.CRD_TIMING_VCC_SETTLE, .rw, within 1 255⟩,
      ⟨F.CRD_TIMING_RSTLOW, .rw, within 4 255⟩,
      ⟨F.CRD_TIMING_ISO_DIV, .rw, within 21 416⟩] },
  { base := 0xa00008, stride := 4, count := 3, fields := fun _ i => [⟨F.CRD_VWIN_LOW i, .rw, fun _ => true⟩,
      ⟨F.CRD_VWIN_HIGH i, .rw, fun _ => true⟩] },
  { base := 0xa00014, fields := fun _ _ => [⟨F.CRD_T1_IFSD, .rw, within 1 254⟩] },
  { base := 0xa00018, stride := 4, count := 4, fields := fun _ i => [⟨F.CRD_AUTOKEY_EN i, .rw, fun _ => true⟩,
      ⟨F.CRD_AUTOKEY_SLOT i, .rw, within 1 255⟩,
      ⟨F.CRD_AUTOKEY_KEYREF i, .rw, fun _ => true⟩] },
  { base := 0xa00040, fields := fun _ _ => [⟨F.CRD_STATUS_STATE, .ro, fun _ => true⟩,
      ⟨F.CRD_STATUS_PRESENT, .ro, fun _ => true⟩,
      ⟨F.CRD_STATUS_DET, .ro, fun _ => true⟩,
      ⟨F.CRD_STATUS_OC, .ro, fun _ => true⟩,
      ⟨F.CRD_STATUS_CLASS, .ro, fun _ => true⟩,
      ⟨F.CRD_STATUS_OWNER, .ro, fun _ => true⟩,
      ⟨F.CRD_STATUS_PPS_DONE, .ro, fun _ => true⟩,
      ⟨F.CRD_STATUS_PPS_FAILED, .ro, fun _ => true⟩,
      ⟨F.CRD_STATUS_LAST, .ro, fun _ => true⟩] },
  { base := 0xa00044, fields := fun _ _ => [⟨F.CRD_CMD_OP, .rw, within 0 6⟩,
      ⟨F.CRD_CMD_GO, .wo, fun _ => true⟩,
      ⟨F.CRD_CMD_BUSY, .ro, fun _ => true⟩,
      ⟨F.CRD_CMD_RESULT, .ro, fun _ => true⟩] },
  { base := 0xa00048, fields := fun _ _ => [⟨F.CRD_KEY_SLOT, .rw, fun _ => true⟩,
      ⟨F.CRD_KEY_KEYREF, .rw, fun _ => true⟩] },
  { base := 0xa0004c, fields := fun _ _ => [⟨F.CRD_LEN_TX, .rw, within 0 2047⟩,
      ⟨F.CRD_LEN_RX, .ro, fun _ => true⟩] },
  { base := 0xa00050, fields := fun _ _ => [⟨F.CRD_PARAM_FI, .ro, fun _ => true⟩,
      ⟨F.CRD_PARAM_DI, .ro, fun _ => true⟩,
      ⟨F.CRD_PARAM_N, .ro, fun _ => true⟩,
      ⟨F.CRD_PARAM_IFSC, .ro, fun _ => true⟩,
      ⟨F.CRD_PARAM_BWI, .ro, fun _ => true⟩,
      ⟨F.CRD_PARAM_CWI, .ro, fun _ => true⟩] },
  { base := 0xa00054, fields := fun _ _ => [⟨F.CRD_PARAM2_EDC, .ro, fun _ => true⟩,
      ⟨F.CRD_PARAM2_XI, .ro, fun _ => true⟩,
      ⟨F.CRD_PARAM2_CLS, .ro, fun _ => true⟩,
      ⟨F.CRD_PARAM2_DIV, .ro, fun _ => true⟩,
      ⟨F.CRD_PARAM2_ATR_LEN, .ro, fun _ => true⟩] },
  { base := 0xa00058, fields := fun _ _ => [⟨F.CRD_CNT_REMOVALS, .ro, fun _ => true⟩,
      ⟨F.CRD_CNT_OC, .ro, fun _ => true⟩,
      ⟨F.CRD_CNT_RETRANS, .ro, fun _ => true⟩] },
  { base := 0xa00060, stride := 4, count := 9, fields := fun _ i => [⟨F.CRD_ATR_DATA i, .ro, fun _ => true⟩] },
  { base := 0xa00800, stride := 4, count := 512, fields := fun _ i => [⟨F.CRD_TXBUF_DATA i, .rw, fun _ => true⟩] },
  { base := 0xa01000, stride := 4, count := 512, fields := fun _ i => [⟨F.CRD_RXBUF_DATA i, .ro, fun _ => true⟩] }]

/-- Registers of chapter 19. -/
def regs19 : List RegDef := [
  { base := 0xa02000, fields := fun _ _ => [⟨F.CBP_CFG_RATE, .rw, fun _ => true⟩,
      ⟨F.CBP_CFG_SLEEP_IDLE, .rw, fun _ => true⟩,
      ⟨F.CBP_CFG_CMD_TIMEOUT, .rw, within 1 255⟩] },
  { base := 0xa02004, fields := fun _ _ => [⟨F.CBP_TIMING_RXDLY, .rw, fun _ => true⟩] },
  { base := 0xa02008, fields := fun _ _ => [⟨F.CBP_STATUS_STATE, .ro, fun _ => true⟩,
      ⟨F.CBP_STATUS_NS_TX, .ro, fun _ => true⟩,
      ⟨F.CBP_STATUS_NS_RX, .ro, fun _ => true⟩,
      ⟨F.CBP_STATUS_RATE, .ro, fun _ => true⟩,
      ⟨F.CBP_STATUS_FWI, .ro, fun _ => true⟩,
      ⟨F.CBP_STATUS_PWP, .ro, fun _ => true⟩,
      ⟨F.CBP_STATUS_TWP, .ro, fun _ => true⟩] },
  { base := 0xa0200c, fields := fun _ _ => [⟨F.CBP_PROT_PR, .ro, fun _ => true⟩] },
  { base := 0xa02010, fields := fun _ _ => [⟨F.CBP_TPROT_TR, .ro, fun _ => true⟩] },
  { base := 0xa02014, fields := fun _ _ => [⟨F.CBP_CMD_OP, .rw, fun _ => true⟩,
      ⟨F.CBP_CMD_GO, .wo, fun _ => true⟩,
      ⟨F.CBP_CMD_BUSY, .ro, fun _ => true⟩,
      ⟨F.CBP_CMD_RESULT, .ro, fun _ => true⟩,
      ⟨F.CBP_CMD_CSTATUS, .ro, fun _ => true⟩] },
  { base := 0xa02018, fields := fun _ _ => [⟨F.CBP_RAW_CODE, .rw, fun _ => true⟩,
      ⟨F.CBP_RAW_FLAGS, .rw, fun _ => true⟩,
      ⟨F.CBP_RAW_ARG16, .rw, fun _ => true⟩] },
  { base := 0xa0201c, fields := fun _ _ => [⟨F.CBP_RAW_ARG_ARG32, .rw, fun _ => true⟩] },
  { base := 0xa02020, fields := fun _ _ => [⟨F.CBP_CNT_RERR, .ro, fun _ => true⟩,
      ⟨F.CBP_CNT_RESYNCH, .ro, fun _ => true⟩,
      ⟨F.CBP_CNT_WTX, .ro, fun _ => true⟩,
      ⟨F.CBP_CNT_INDET, .ro, fun _ => true⟩] },
  { base := 0xa02040, stride := 4, count := 16, fields := fun _ i => [⟨F.CBP_ID_DATA i, .ro, fun _ => true⟩] },
  { base := 0xa08000, stride := 4, count := 4608, fields := fun _ i => [⟨F.CBP_BUF_DATA i, .rw, fun _ => true⟩] }]

/-- Registers of chapter 20. -/
def regs20 : List RegDef := [
  { base := 0xa04000, fields := fun _ _ => [⟨F.MED_CFG_PATROL_H, .rw, fun _ => true⟩,
      ⟨F.MED_CFG_LOG_FLUSH, .rw, fun _ => true⟩] },
  { base := 0xa04004, fields := fun _ _ => [⟨F.MED_WALL_MIN, .rw, fun _ => true⟩] },
  { base := 0xa04008, fields := fun _ _ => [⟨F.MED_STATUS_STATE, .ro, fun _ => true⟩,
      ⟨F.MED_STATUS_MERR, .ro, fun _ => true⟩,
      ⟨F.MED_STATUS_HDR_COPY, .ro, fun _ => true⟩,
      ⟨F.MED_STATUS_UNSAVED, .ro, fun _ => true⟩,
      ⟨F.MED_STATUS_LOG_READY, .ro, fun _ => true⟩] },
  { base := 0xa0400c, fields := fun _ _ => [⟨F.MED_CMD_OP, .rw, fun _ => true⟩,
      ⟨F.MED_CMD_GO, .wo, fun _ => true⟩,
      ⟨F.MED_CMD_BUSY, .ro, fun _ => true⟩,
      ⟨F.MED_CMD_RESULT, .ro, fun _ => true⟩] },
  { base := 0xa04010, fields := fun _ _ => [⟨F.MED_LOG_LEN_LEN, .rw, within 0 2046⟩] },
  { base := 0xa04014, fields := fun _ _ => [⟨F.MED_CT_MIN, .ro, fun _ => true⟩] },
  { base := 0xa04018, fields := fun _ _ => [⟨F.MED_CNT_RETRIES, .ro, fun _ => true⟩,
      ⟨F.MED_CNT_REFRESHED, .ro, fun _ => true⟩,
      ⟨F.MED_CNT_RETIRED, .ro, fun _ => true⟩] },
  { base := 0xa0401c, fields := fun _ _ => [⟨F.MED_CNT2_UNCORR, .ro, fun _ => true⟩,
      ⟨F.MED_CNT2_LOG_LOST, .ro, fun _ => true⟩] },
  { base := 0xa04020, fields := fun _ _ => [⟨F.MED_MAXC_BITS, .ro, fun _ => true⟩] },
  { base := 0xa04800, stride := 4, count := 512, fields := fun _ i => [⟨F.MED_LBUF_DATA i, .rw, fun _ => true⟩] }]

/-- Registers of chapter 21. -/
def regs21 : List RegDef := [
  { base := 0xb00000, fields := fun _ _ => [⟨F.CLS_CTRL_REQ_TIMEOUT, .rw, within 1 65535⟩] },
  { base := 0xb00040, stride := 4, count := 16, fields := fun _ i => [⟨F.CLS_ROUTE_PORT i, .rw, fun _ => true⟩,
      ⟨F.CLS_ROUTE_VALID i, .rw, fun _ => true⟩] },
  { base := 0xb00100, stride := 32, count := 4, fields := fun _ i => [⟨F.CLS_PORT_CFG_EN i, .rw, fun _ => true⟩,
      ⟨F.CLS_PORT_CFG_MAXRATE i, .rw, fun _ => true⟩,
      ⟨F.CLS_PORT_CFG_MINWIDTH i, .rw, fun _ => true⟩] },
  { base := 0xb00104, stride := 32, count := 4, fields := fun _ i => [⟨F.CLS_PORT_STAT_STATE i, .ro, fun _ => true⟩,
      ⟨F.CLS_PORT_STAT_RATE i, .ro, fun _ => true⟩,
      ⟨F.CLS_PORT_STAT_WIDTH i, .ro, fun _ => true⟩,
      ⟨F.CLS_PORT_STAT_PEER i, .ro, fun _ => true⟩,
      ⟨F.CLS_PORT_STAT_REASON i, .ro, fun _ => true⟩,
      ⟨F.CLS_PORT_STAT_DISCARDS i, .ro, fun _ => true⟩] },
  { base := 0xb00108, stride := 32, count := 4, fields := fun _ i => [⟨F.CLS_PORT_CNT_REPLAYS i, .ro, fun _ => true⟩,
      ⟨F.CLS_PORT_CNT_RETRAINS i, .ro, fun _ => true⟩] },
  { base := 0xb0010c, stride := 32, count := 4, fields := fun _ i => [⟨F.CLS_PORT_CRC_COUNT i, .ro, fun _ => true⟩] },
  { base := 0xb00110, stride := 32, count := 4, fields := fun _ i => [⟨F.CLS_PORT_FWD_COUNT i, .ro, fun _ => true⟩] }]

/-- Registers of chapter 22. -/
def regs22 : List RegDef := [
  { base := 0xc00000, fields := fun _ _ => [⟨F.PAIR_CFG_HB_US, .rw, within 10 10000⟩,
      ⟨F.PAIR_CFG_AUTO, .rw, fun _ => true⟩,
      ⟨F.PAIR_CFG_LOCK, .w1s, fun _ => true⟩] },
  { base := 0xc00004, fields := fun _ _ => [⟨F.PAIR_TIME_TAKEOVER_US, .rw, fun _ => true⟩,
      ⟨F.PAIR_TIME_ACK_MS, .rw, within 1 255⟩,
      ⟨F.PAIR_TIME_ALONE, .rw, within 1 255⟩] },
  { base := 0xc00008, fields := fun _ _ => [⟨F.PAIR_GUARD_CNT, .rw, fun _ => true⟩,
      ⟨F.PAIR_GUARD_NS, .rw, fun _ => true⟩] },
  { base := 0xc00010, fields := fun _ _ => [⟨F.PAIR_STATUS_ROLE, .ro, fun _ => true⟩,
      ⟨F.PAIR_STATUS_PARTNER_UP, .ro, fun _ => true⟩,
      ⟨F.PAIR_STATUS_ASLEEP, .ro, fun _ => true⟩,
      ⟨F.PAIR_STATUS_PARTNER_LOST, .ro, fun _ => true⟩,
      ⟨F.PAIR_STATUS_PARTNER_ID, .ro, fun _ => true⟩,
      ⟨F.PAIR_STATUS_LAT, .ro, fun _ => true⟩] },
  { base := 0xc00014, fields := fun _ _ => [⟨F.PAIR_CMD_OP, .rw, within 0 2⟩,
      ⟨F.PAIR_CMD_GO, .wo, fun _ => true⟩,
      ⟨F.PAIR_CMD_BUSY, .ro, fun _ => true⟩,
      ⟨F.PAIR_CMD_RESULT, .ro, fun _ => true⟩] },
  { base := 0xc00018, fields := fun _ _ => [⟨F.PAIR_COMMIT_SEQ, .ro, fun _ => true⟩] },
  { base := 0xc00020, wide := true, fields := fun _ _ => [⟨F.PAIR_DRIFT_DP, .ro, fun _ => true⟩] },
  { base := 0xc00028, fields := fun _ _ => [⟨F.PAIR_CNT_TAKEOVERS, .ro, fun _ => true⟩,
      ⟨F.PAIR_CNT_SPLITS, .ro, fun _ => true⟩,
      ⟨F.PAIR_CNT_RESYNCS, .ro, fun _ => true⟩] },
  { base := 0xc00040, stride := 4, count := 4, fields := fun _ i => [⟨F.PAIR_PEER_DATA i, .ro, fun _ => true⟩] }]

/-- Registers of chapter 11. -/
def regs11 : List RegDef := [
  { base := 0x200, fields := fun n _ => [⟨F.MT_GANG_SHAPE n, .ro, fun _ => true⟩,
      ⟨F.MT_GANG_ORIGIN n, .ro, fun _ => true⟩,
      ⟨F.MT_GANG_TR n, .ro, fun _ => true⟩,
      ⟨F.MT_GANG_TC n, .ro, fun _ => true⟩,
      ⟨F.MT_GANG_PSHAPE n, .ro, fun _ => true⟩,
      ⟨F.MT_GANG_BANK n, .ro, fun _ => true⟩,
      ⟨F.MT_GANG_PASS_BUSY n, .ro, fun _ => true⟩,
      ⟨F.MT_GANG_ISOLATED n, .ro, fun _ => true⟩] },
  { base := 0x204, fields := fun n _ => [⟨F.MT_PASS_SEQ_SEQ n, .ro, fun _ => true⟩] },
  { base := 0x208, wide := true, fields := fun n _ => [⟨F.MT_PASSES_COUNT n, .ro, fun _ => true⟩] },
  { base := 0x210, wide := true, fields := fun n _ => [⟨F.MT_BUSY_CYC_COUNT n, .ro, fun _ => true⟩] },
  { base := 0x218, fields := fun n _ => [⟨F.MT_STALL_ROW_COUNT n, .ro, fun _ => true⟩] },
  { base := 0x21c, fields := fun n _ => [⟨F.MT_STALL_COL_COUNT n, .ro, fun _ => true⟩] },
  { base := 0x220, fields := fun n _ => [⟨F.MT_STALL_MUL_COUNT n, .ro, fun _ => true⟩] },
  { base := 0x224, fields := fun n _ => [⟨F.MT_LOUVRE_CYC_COUNT n, .ro, fun _ => true⟩] }]

/-- Registers of chapter 12. -/
def regs12 : List RegDef := [
  { base := 0x228, fields := fun n _ => [⟨F.MT_PASS_ARITH_FMT_A n, .ro, fun _ => true⟩,
      ⟨F.MT_PASS_ARITH_FMT_B n, .ro, fun _ => true⟩,
      ⟨F.MT_PASS_ARITH_FAMILY n, .ro, fun _ => true⟩,
      ⟨F.MT_PASS_ARITH_ANCHOR n, .ro, fun _ => true⟩,
      ⟨F.MT_PASS_ARITH_COND n, .ro, fun _ => true⟩] }]

/-- Registers of chapter 13. -/
def regs13 : List RegDef := [
  { base := 0x240, fields := fun n _ => [⟨F.MT_FLAGS_CAUSES n, .w1c, fun _ => true⟩] },
  { base := 0x244, fields := fun n _ => [⟨F.MT_FLAG_MASK_MASK n, .rw, fun _ => true⟩] },
  { base := 0x248, fields := fun n _ => [⟨F.MT_FIRST_SEQ_SEQ n, .ro, fun _ => true⟩] },
  { base := 0x24c, fields := fun n _ => [⟨F.MT_FIRST_POS_ROW n, .ro, fun _ => true⟩,
      ⟨F.MT_FIRST_POS_COL n, .ro, fun _ => true⟩,
      ⟨F.MT_FIRST_POS_CAUSE n, .ro, fun _ => true⟩,
      ⟨F.MT_FIRST_POS_VALID n, .w1c, fun _ => true⟩] },
  { base := 0x250, fields := fun n _ => [⟨F.MT_QSEQ_SEQ n, .ro, fun _ => true⟩] },
  { base := 0x254, fields := fun n _ => [⟨F.MT_CONV_BUSY n, .ro, fun _ => true⟩,
      ⟨F.MT_CONV_NAR n, .ro, fun _ => true⟩] },
  { base := 0x258, fields := fun n _ => [⟨F.MT_RMAX_BLK_VALUE n, .ro, fun _ => true⟩] },
  { base := 0x25c, fields := fun n _ => [⟨F.MT_RMAX_AT_ROW n, .ro, fun _ => true⟩,
      ⟨F.MT_RMAX_AT_COL n, .ro, fun _ => true⟩] },
  { base := 0x300, stride := 4, count := 64, fields := fun n i => [⟨F.MT_RMAX_VALUE n i, .ro, fun _ => true⟩] }]

/-- Registers of chapter 14. -/
def regs14 : List RegDef := [
  { base := 0x0, fields := fun n _ => [⟨F.MT_SEQ_STATUS_PC n, .ro, fun _ => true⟩,
      ⟨F.MT_SEQ_STATUS_STATE n, .ro, fun _ => true⟩,
      ⟨F.MT_SEQ_STATUS_DEPTH n, .ro, fun _ => true⟩] },
  { base := 0x8, wide := true, fields := fun n _ => [⟨F.MT_SEQ_RETIRED_COUNT n, .ro, fun _ => true⟩] }]

/-- Registers of chapter 15. -/
def regs15 : List RegDef := [
  { base := 0x400, fields := fun n _ => [⟨F.VU_STATUS_QDEPTH n, .ro, fun _ => true⟩,
      ⟨F.VU_STATUS_BUSY n, .ro, fun _ => true⟩] },
  { base := 0x404, fields := fun n _ => [⟨F.VU_FLAGS_CAUSES n, .w1c, fun _ => true⟩] },
  { base := 0x408, fields := fun n _ => [⟨F.VU_FLAG_MASK_MASK n, .rw, fun _ => true⟩] },
  { base := 0x40c, fields := fun n _ => [⟨F.VU_FIRST_OPSEQ n, .ro, fun _ => true⟩,
      ⟨F.VU_FIRST_LANE n, .ro, fun _ => true⟩,
      ⟨F.VU_FIRST_CAUSE n, .ro, fun _ => true⟩,
      ⟨F.VU_FIRST_VALID n, .w1c, fun _ => true⟩] },
  { base := 0x410, wide := true, fields := fun n _ => [⟨F.VU_OPS_COUNT n, .ro, fun _ => true⟩] },
  { base := 0x440, stride := 8, count := 8, wide := true, fields := fun n i => [⟨F.VU_K_MASK n i, .ro, fun _ => true⟩] }]

/-- The registers outside the tile blocks. -/
def flatRegs : List RegDef := regs03 ++ regs04 ++ regs05 ++ regs06 ++ regs07 ++ regs08 ++ regs09 ++ regs10 ++ regs16 ++ regs17 ++ regs18 ++ regs19 ++ regs20 ++ regs21 ++ regs22

/-- The registers of a tile block, at offsets within the block. -/
def tileRegs : List RegDef := regs11 ++ regs12 ++ regs13 ++ regs14 ++ regs15

end Sys2Proof.Machine
end

