-- ==== Sys2Proof/Machine/Domains.lean ====
section
/-! DEFINITION. Which power domains run (R18, R44, R117): a domain without its supply, or held in reset by RESET_N, does nothing. -/

namespace Sys2Proof.Machine

/-- Whether SEQ_EN of channel `n` is high. -/
def Aon.on (a : Aon) (n : Nat) : Bool := a.is (F.SEQ_RAIL_STAT_ON n)
/-- Whether channel `n` is armed (R60). -/
def Aon.armed (a : Aon) (n : Nat) : Bool := a.is (F.SEQ_RAIL_STAT_ARMED n)

/-- Whether the always-on domain and the PERI domain run: VDD_PERI is on channel 0 (R62), and RESET_N is high (R117). -/
def State.periRuns (s : State) : Bool := s.aon.supplyOk && s.aon.resetN && s.aon.armed 0

/-- Whether the CORE domain runs: VDD_CORE is on channel 6 (R62), the domains above it run (R18), and the clear of shared SRAM that
precedes every agent's work has ended (R528). -/
def State.coreRuns (s : State) : Bool := s.periRuns && s.aon.armed 6 && s.dev.sramReady

/-- The outcome `r` where the PERI domain runs; elsewhere its event cannot happen (log entries 5, 17). -/
def State.inPeri (s : State) (r : Res) : Res := if s.periRuns then r else .next s
/-- The outcome `r` where the CORE domain runs; elsewhere its event cannot happen (log entries 5, 17). -/
def State.inCore (s : State) (r : Res) : Res := if s.coreRuns then r else .next s
/-- A change of PERI blocks that an always-on event brings about, where they run. -/
def State.onPeri (s : State) (f : Dev → Dev) : State := if s.periRuns then s.onDev f else s
/-- The next state after a change that blocks of the PERI domain make. -/
def State.nextPeri (s : State) (f : Dev → Dev) : Res := s.inPeri (s.nextDev f)
/-- The next state after a change that blocks of the CORE domain make. -/
def State.nextCore (s : State) (f : Dev → Dev) : Res := s.inCore (s.nextDev f)

end Sys2Proof.Machine
end

