-- ==== Sys2Proof/Machine/RegAccess.lean ====
section
/-! DEFINITION. How a register access finds its register and acts on its fields (R8, R10). -/

namespace Sys2Proof.Machine

/-- Where an offset falls in a register of the table: the register, its index, and whether it is the high half. -/
structure Hit where
  reg : RegDef
  i : Nat
  high : Bool

/-- The register of a list that holds offset `o`. -/
def findReg : List RegDef → Nat → Option Hit
  | [], _ => none
  | r :: rs, o =>
    let k := o - r.base
    let st := max r.stride (if r.wide then 8 else 4)
    if r.base ≤ o && k / st < r.count && (k % st == 0 || (r.wide && k % st == 4)) then some ⟨r, k / st, k % st == 4⟩
    else findReg rs o

/-- The tile of a tile-block offset (R7). -/
def tileOfOff (off : Nat) : Nat := (off - 0x1000000) / 0x40000
/-- The offset within a tile block. -/
def inTile (off : Nat) : Nat := (off - 0x1000000) % 0x40000
/-- Whether an offset lies in a tile block: 16 blocks from 0x100_0000 (R7). -/
def isTileOff (off : Nat) : Bool := decide (0x1000000 ≤ off) && decide (off < 0x1400000)

/-- The register at a BAR0 offset. -/
def hitAt (off : Nat) : Option Hit :=
  if isTileOff off then findReg tileRegs (inTile off) else findReg flatRegs off

/-- The fields of the register at an offset. -/
def Hit.fields (h : Hit) (off : Nat) : List FieldDef := h.reg.fields (tileOfOff off) h.i

/-- The bits a read returns: every field but the write-only ones, reserved bits zero (R8, R10). -/
def readFields (m : FMap Nat) : List FieldDef → Nat
  | [] => 0
  | f :: fs => (if f.acc = .wo then 0 else rd m f.fld * 2 ^ f.fld.lo) + readFields m fs

/-- What a write of `v` stores (R8, R10): RW takes the value unless it is a reserved encoding, a 1 clears a W1C bit, a 1
sets a W1S bit; the rest is unchanged. -/
def writeFields (m : FMap Nat) (v : Nat) : List FieldDef → FMap Nat
  | [] => m
  | f :: fs =>
    let x := bits v f.fld.lo f.fld.len
    let m := match f.acc with
      | .rw => if f.ok x then wr m f.fld x else m
      | .w1c => wr m f.fld (rd m f.fld - (rd m f.fld &&& x))
      | .w1s => wr m f.fld (rd m f.fld ||| x)
      | _ => m
    writeFields m v fs

/-- The registers that lie in the always-on domain: SEQ_, LKT_, GLB_STRAP, GLB_UPTIME, BOOT_CAUSE, BOOT_KEYHASH (R94,
R114, R137, R160). -/
def aonOff (off : Nat) : Bool :=
  (decide (0x100000 ≤ off) && decide (off < 0x200000)) || (decide (4 ≤ off) && decide (off < 0x10)) ||
    off / 4 == 0x80001 || (decide (0x200040 ≤ off) && decide (off < 0x200070))

/-- The registers of the CORE domain: MMU_ and CMD_ (R208, R232, R258). -/
def coreOff (off : Nat) : Bool := decide (0x500000 ≤ off) && decide (off < 0x800000)

/-- Whether a field of key `k` is one of the sticky fields outside the always-on domain (R12). -/
def stickyKey (k : Nat) : Bool := k == F.PCI_ERR_COUNT.key || k == F.MEM_ECC_STAT_DRAM_CE.key

/-- Drops the fields whose register offset meets `p`: they have their reset values again (R13). -/
def dropRegs (p : Nat → Bool) (m : FMap Nat) : FMap Nat := m.filter fun e => !p (e.1 / 64)

/-- Gives the fields of an array of tile-block registers of tile `n` their reset values. -/
def tileBlockOff (n off : Nat) : Bool := decide (tileOff n 0 ≤ off) && decide (off < tileOff (n + 1) 0)

/-- Whether `off` names an implemented register that REG_INIT may set: aligned, below the tile blocks (R128). The MSI-X table and PBA
of R527 are tables, not registers, and count as none (DESIGN CHOICE, log entry 105). -/
def regInitOk (off : Nat) : Bool := off % 4 == 0 && decide (off < 0x1000000) && (hitAt off).isSome

end Sys2Proof.Machine
end

