-- ==== Sys2Proof/Machine/Notify.lean ====
section
/-! DEFINITION. What the host interface tells the host (chapter 06): interrupt vectors (R150, R151, R527) and the error
capture (R162). -/

namespace Sys2Proof.Machine

/-- The MSI-X table entry of vector `v` (R527). -/
def Dev.msixEntry (d : Dev) (v : Nat) : MsixEntry := (fget d.pci.msix v).getD {}

/-- Whether vector `v` is pending. -/
def Dev.pending (d : Dev) (v : Nat) : Bool := (fget d.pci.pba v).getD false

/-- Sets or clears the pending bit of vector `v`. -/
def Dev.setPending (d : Dev) (v : Nat) (on : Bool) : Dev :=
  { d with pci := { d.pci with pba := if on then fset d.pci.pba v true else fdel d.pci.pba v } }

/-- Whether a message of vector `v` can be sent now: MSI-X enabled, neither mask set, not in D3hot (R151, R154). -/
def Dev.canSend (d : Dev) (v : Nat) : Bool :=
  d.pci.msixEnable && !d.pci.funcMask && !(d.msixEntry v).mask && !d.is F.PCI_STATUS_D3

/-- The pool has given one credit; when it is empty, the time at which it ran out is noted (R33, R161). -/
def Dev.takeCredit (d : Dev) : Dev :=
  { d with pci := { d.pci with credits := d.pci.credits - 1,
                               emptySince := if d.pci.credits ≤ 1 then some d.uptime else d.pci.emptySince } }

/-- A host-bound posted request (R33, R39): sent when the host credit pool has a credit and none waits before it, or held. All of them
keep their order, so a message never overtakes the record or entry that it announces (R151). -/
def Dev.postOut (d : Dev) (p : Posted) : Dev :=
  if d.pci.stalled.isEmpty && decide (0 < d.pci.credits) then d.takeCredit.send p.out
  else { d with pci := { d.pci with stalled := d.pci.stalled ++ [p] } }

/-- Raises vector `v` (R151): one message, or the pending bit. -/
def Dev.raiseVec (d : Dev) (v : Nat) : Dev :=
  if d.canSend v then
    if d.pending v then d else d.postOut { out := .msix (d.msixEntry v).addr (d.msixEntry v).data }
  else d.setPending v true

/-- Interrupt source `i` raises its vector while its EN bit is 1 (R150, R151). -/
def Dev.irq (d : Dev) (i : Nat) : Dev :=
  if d.is (F.PCI_IRQ_MAP_EN i) then d.raiseVec (d.rd (F.PCI_IRQ_MAP_VECTOR i)) else d

/-- Sends the message of a vector that is pending and no longer masked (R151). -/
def Dev.flushVec (d : Dev) (v : Nat) : Dev :=
  if d.pending v && d.canSend v then
    (d.setPending v false).postOut { out := .msix (d.msixEntry v).addr (d.msixEntry v).data }
  else d

/-- The error bit of PCI_ERR with index `k` (R162). -/
def pciErrBit (k : Nat) : Fld :=
  match k with
  | 0 => F.PCI_ERR_REG_ACCESS
  | 1 => F.PCI_ERR_DOMAIN_OFF
  | 2 => F.PCI_ERR_BAR2_HOLE
  | 3 => F.PCI_ERR_P2P_VIOLATION
  | _ => F.PCI_ERR_CPL_FAIL

/-- Records error `k` at `addr` from requester `rid` (R162): its bit and COUNT always, FIRST, ERR_ADDR and ERR_RID for the
first error after every bit was clear. -/
def Dev.pciErr (d : Dev) (k addr rid : Nat) : Dev :=
  let d := if d.rd F.PCI_ERR_FIRST = 0xFF then
      ((d.wr F.PCI_ERR_FIRST k).wr F.PCI_ERR_ADDR_ADDR addr).wr F.PCI_ERR_RID_RID rid else d
  (d.wr (pciErrBit k) 1).sat F.PCI_ERR_COUNT

/-- Signals an Uncorrectable Internal Error through AER while the link is up (R142): its status bit, bit 22, and the message unless it
is masked. -/
def Dev.aerInternal (d : Dev) : Dev :=
  if d.is F.PCI_STATUS_DL_UP then
    let d' := { d with pci := { d.pci with aerUncor := d.pci.aerUncor ||| 2 ^ 22 } }
    if d.pci.aerUncorMask.testBit 22 then d' else d'.send .aerInternal
  else d

/-- Reports an Unsupported Request of requester `rid` through AER, advisory non-fatal (R158): the status bits, 20 and 13, and the message
unless it is masked. -/
def Dev.aerAdvisory (d : Dev) (rid : Nat) : Dev :=
  let d' := { d with pci := { d.pci with aerUncor := d.pci.aerUncor ||| 2 ^ 20, aerCor := d.pci.aerCor ||| 2 ^ 13 } }
  if d.pci.aerCorMask.testBit 13 then d' else d'.send (.aerP2p rid)

/-- HCP_STALL shows once the pool has had no credit for more than 1 ms (R161). -/
def Dev.creditTick (d : Dev) : Dev :=
  match d.pci.emptySince with
  | some t => if t + 1000 < d.uptime then d.wr F.PCI_STATUS_HCP_STALL 1 else d
  | none => d

/-! ### Register accesses by their own commands (R144, R154) -/

/-- Whether a requester is on the host link. -/
def isHost (r : Requester) : Bool :=
  match r with
  | .host _ => true
  | .mover _ => false

/-- The requester ID that ERR_RID records (R161): 0 for the device's own movers. -/
def ridOf (r : Requester) : Nat :=
  match r with
  | .host i => i
  | .mover _ => 0

/-- Whether an access at `off` falls in a power domain that is off (R18, R144): the CORE domain while VDD_CORE is not armed, or a tile,
which VDD_CORE feeds behind its shutter. It covers the unimplemented offsets of such a block too, although R10 records no access to
one elsewhere (DESIGN CHOICE, log entry 106). -/
def State.domainOff (s : State) (off : Nat) : Bool :=
  (coreOff off && !s.aon.armed 6) ||
    (isTileOff off && (!s.aon.armed 6 || ((fget s.dev.tiles (tileOfOff off)).getD {}).shutter != .opened))

/-- What a command that is a write of the register at `off` does (R144, R154): the host's is an Unsupported Request in D3hot, one to a
domain that is off is discarded and logged, and without the PERI domain there is no access. -/
def State.atReg (s : State) (req : Requester) (off : Nat) (r : Res) : Res :=
  s.inPeri (
    if isHost req && s.dev.is F.PCI_STATUS_D3 then s.nextDev fun d => d.send .unsupported
    else if s.domainOff off then s.nextDev fun d => d.pciErr 1 off (ridOf req)
    else r)

/-- The same, for a write that changes only the part outside the always-on domain. -/
def State.devReg (s : State) (req : Requester) (off : Nat) (f : Dev → Dev) : Res := s.atReg req off (s.nextDev f)

/-- Sets BOOT_STATUS.STAGE and raises source 66 when it changes (R119, R150). -/
def Dev.setStage (d : Dev) (n : Nat) : Dev :=
  if d.rd F.BOOT_STATUS_STAGE = n then d else (d.wr F.BOOT_STATUS_STAGE n).irq 66

/-- Sets BOOT_STANDING.STATE and raises source 66 when it changes (R135, R150). -/
def Dev.setStanding (d : Dev) (n : Nat) : Dev :=
  if d.rd F.BOOT_STANDING_STATE = n then d else (d.wr F.BOOT_STANDING_STATE n).irq 66

end Sys2Proof.Machine
end

