-- ==== Sys2Proof/Machine/LocketOps.lean ====
section
/-! DEFINITION. The locket (chapter 04): records, the ring in flash and its writer, the gauge. -/

namespace Sys2Proof.Machine

/-- One bit of the CRC register of R101, reflected. -/
def crcBit (c : BitVec 32) : BitVec 32 := if c.getLsbD 0 then (c >>> 1) ^^^ 0xEDB88320#32 else c >>> 1

/-- One byte into the CRC register of R101. -/
def crcByte (c : BitVec 32) (b : Byte) : BitVec 32 :=
  crcBit <| crcBit <| crcBit <| crcBit <| crcBit <| crcBit <| crcBit <| crcBit <| c ^^^ b.zeroExtend 32

/-- CRC-32 of R101. -/
def crc32 (bs : List Byte) : BitVec 32 := (bs.foldl crcByte 0xFFFFFFFF#32) ^^^ 0xFFFFFFFF#32

/-- The bytes of a 64-byte record, lowest first. -/
def slotBytes (r : BitVec 512) : List Byte := toBytes 64 r.toNat

/-- The erased slot (R100). -/
def slotErased : BitVec 512 := BitVec.allOnes 512

/-- The content of slot `i` of the ring. -/
def Locket.slot (l : Locket) (i : Nat) : BitVec 512 := (fget l.slots i).getD slotErased

/-- Whether a slot is valid (R102): MAGIC is 0x4B4C and the CRC over bytes 0 to 59 matches. -/
def slotValid (r : BitVec 512) : Bool :=
  r.toNat % 65536 == 0x4B4C && (crc32 ((slotBytes r).take 60)).toNat == bits r.toNat 480 32

/-- Field accessors of a record (R100). -/
def recSeq (r : BitVec 512) : Nat := bits r.toNat 32 32
/-- POR_COUNT of a record (R100). -/
def recPor (r : BitVec 512) : Nat := bits r.toNat 64 16

/-- The record as programmed: MAGIC, TYPE, FLAGS, SEQNUM, POR_COUNT, bytes 10 to 55, and the CRC (R100). -/
def mkRecord (r : LRec) (flags seq por : Nat) : BitVec 512 :=
  let lo := 0x4B4C + r.type * 2 ^ 16 + flags * 2 ^ 24 + seq % 2 ^ 32 * 2 ^ 32 + por % 2 ^ 16 * 2 ^ 64 + r.mid % 2 ^ 384 * 2 ^ 64
  BitVec.ofNat 512 (lo + (crc32 (toBytes 60 lo)).toNat * 2 ^ 480)

/-- SEQ_EN levels (R94). -/
def Aon.enState (a : Aon) : Nat := listMask ((List.range 24).filter fun n => a.is (F.SEQ_RAIL_STAT_ON n))
/-- The rail channel `n` beside its registers. -/
def Aon.rail (a : Aon) (n : Nat) : Rail := (fget a.rails n).getD {}
/-- SEQ_PG levels (R94). -/
def Aon.pgState (a : Aon) : Nat := listMask ((List.range 24).filter fun n => (a.rail n).pg)

/-- Bytes 8 to 55 of a record raised now with sensor reading `tmax` of sensor `tsensor`, POR_COUNT still zero (R100). -/
def Aon.recBody (a : Aon) (cause ch payload tmax tsensor : Nat) : Nat :=
  a.rd F.GLB_UPTIME_US % 2 ^ 48 * 2 ^ 16 + cause % 256 * 2 ^ 64 + ch % 256 * 2 ^ 72 +
    a.rd F.SEQ_STATUS_STATE * 2 ^ 80 + a.rd F.SEQ_STATUS_PC * 2 ^ 88 + a.enState * 2 ^ 96 + a.pgState * 2 ^ 120 +
    a.rd (F.SEQ_ADC_VAL_CODE 31) * 2 ^ 144 + a.rd F.LKT_GAUGE_Q * 2 ^ 160 + tmax % 2 ^ 16 * 2 ^ 192 +
    tsensor % 256 * 2 ^ 208 + payload % 2 ^ 160 * 2 ^ 224
/-- Bytes 8 to 55 of a record raised now (R100), with the highest sensor reading. -/
def Aon.recMid (a : Aon) (cause ch payload : Nat) : Nat := a.recBody cause ch payload a.locket.tmax a.locket.tsensor

/-- Slot 63 of a sector takes only BROWNOUT and THERMTRIP records (R98). -/
def LRec.urgent (r : LRec) : Bool := r.type == 4 || r.type == 5

/-- Whether every slot of sector `k` is empty. -/
def Locket.sectorEmpty (l : Locket) (k : Nat) : Bool :=
  (List.range 64).all fun i => l.slot (64 * k + i) == slotErased

/-- The slot after `i` for a normal record (R98). -/
def nextSlot (i : Nat) : Nat := if i % 64 ≥ 62 then (i / 64 + 1) % 64 * 64 else i + 1

/-- Whether a record may go into slot `i` now: not into a sector whose erase is wanted or running (R99). -/
def Locket.free (l : Locket) (i : Nat) : Bool :=
  l.erasing != some (i / 64) && !l.needErase.contains (i / 64)

/-- The first empty slot from `i` on in ring order, slot 63 skipped (R105), within `n` slots. -/
def Locket.firstEmpty (l : Locket) : Nat → Nat → Option Nat
  | 0, _ => none
  | n + 1, i => if i % 64 != 63 && l.slot i == slotErased then some i else l.firstEmpty n ((i + 1) % 4096)

/-- The slot that a normal record waits for, from `i` on: the first that is empty or whose sector is still to be erased, slot 63
skipped (R98, R99, R102), within `n` slots. -/
def Locket.seek (l : Locket) : Nat → Nat → Option Nat
  | 0, _ => none
  | n + 1, i => if i % 64 != 63 && (l.slot i == slotErased || !l.free i) then some i else l.seek n ((i + 1) % 4096)

/-- Where a record can go now when the write pointer is `p`, never into a torn or valid slot (R102): a BROWNOUT or THERMTRIP record
takes slot 63 of a sector whose slots 0 to 62 are used (R98). -/
def Locket.target (l : Locket) (p : Nat) (r : LRec) : Option Nat :=
  let e := (p + 4095) % 4096
  if r.urgent && p % 64 == 0 && l.hasNewest && l.slot e == slotErased && !l.sectorEmpty (e / 64) && l.free e then some e
  else (l.seek 4096 p).filter l.free

/-- The slot while only bytes 4 to 63 of a record are programmed: torn (R102). -/
def slotBody (r : BitVec 512) : BitVec 512 := r ||| 0xFFFFFFFF#512

/-- Takes `r` from its queue and starts programming its bytes 4 to 63 into slot `i` (R102). -/
def Aon.lktProgram (a : Aon) (r : LRec) (i : Nat) : Aon :=
  let l := a.locket
  let fl := r.flags + (if l.droppedBefore then 4 else 0)
  let seq := if l.hasNewest then a.rd F.LKT_SEQ_SEQNUM + 1 else 0
  let w := mkRecord r fl seq l.porCount
  { a with locket := { l with
      prog := .body i w, cur := some r, droppedBefore := false, slots := fset l.slots i (slotBody w),
      urgent := if r.urgent then l.urgent.drop 1 else l.urgent,
      queue := if r.urgent then l.queue else l.queue.erase r } }

/-- The record that the writer takes next: an urgent one ahead of every queued one (R104); in a brown-out no queued record but a
GAUGE_DISAGREE (R108, R110). -/
def Aon.lktNext (a : Aon) : Option LRec :=
  match a.locket.urgent with
  | r :: _ => some r
  | [] => if a.locket.started then a.locket.queue.find? fun r => !a.brown.tripped || r.type == 6 else none

/-- The writer starts the next record when it is idle and the record has a slot to go into (R99, R104); after a refusal it starts
none (R107). -/
def Aon.lktKick (a : Aon) : Aon :=
  if a.locket.prog != .none || !a.is F.LKT_STATUS_READY || a.is F.LKT_STATUS_NOR_FAIL || a.brown.refused then a else
    match a.lktNext with
    | some r =>
      match a.locket.target (a.rd F.LKT_STATUS_PTR) r with
      | some i => a.lktProgram r i
      | none => a
    | none => a

/-- A record that finds no room is dropped and counted (R104). -/
def Aon.lktDrop (a : Aon) : Aon :=
  ({ a with locket := { a.locket with droppedBefore := true } }).sat F.LKT_STATUS_DROPPED

/-- A record enters the writer's queue, or is dropped (R104, R115). -/
def Aon.lktAdd (a : Aon) (r : LRec) : Aon :=
  if a.is F.LKT_STATUS_NOR_FAIL then a.lktDrop
  else if r.urgent then ({ a with locket := { a.locket with urgent := a.locket.urgent ++ [r] } }).lktKick
  else if a.locket.queue.length < 8 then ({ a with locket := { a.locket with queue := a.locket.queue ++ [r] } }).lktKick
  else a.lktDrop

/-- Raises a record with its state taken now. -/
def Aon.record (a : Aon) (type : Nat) (cause : Nat := 0) (ch : Nat := 0xFF) (payload : Nat := 0) (flags : Nat := 0) : Aon :=
  a.lktAdd { type := type, flags := flags, mid := a.recMid cause ch payload }

/-- Starts the erase of sector `k` (R99). -/
def Aon.lktErase (a : Aon) (k : Nat) : Aon :=
  ({ a with locket := { a.locket with erasing := some k, needErase := a.locket.needErase.filter (· != k) } }).wr
    F.LKT_STATUS_ERASING 1

/-- Starts a wanted erase when none runs; a brown-out starts none (R110). -/
def Aon.lktEraseKick (a : Aon) : Aon :=
  if a.brown.tripped then a else
  match a.locket.erasing, a.locket.needErase with
  | none, k :: _ => a.lktErase k
  | _, _ => a

/-- A failed or overlong program or erase (R115): the slot stays torn, the writer uses the next one, three failures in
succession disable the locket. What ends a run of failures is not stated; here a committed record or a completed erase does, a first
program that succeeds does not (DESIGN CHOICE, log entry 98). -/
def Aon.lktFail (a : Aon) : Aon :=
  let l := a.locket
  let a := { a with locket := { l with fails := l.fails + 1 } }
  if l.fails + 1 ≥ 3 then
    ({ a with locket := { a.locket with prog := .none, cur := none, queue := [], urgent := [] } }.sat F.LKT_STATUS_DROPPED
      (l.queue.length + l.urgent.length + if l.cur.isSome then 1 else 0)).wr F.LKT_STATUS_NOR_FAIL 1
  else a

/-- The voltage estimate of the stored charge for code `c`, in µC (chapter 04, Hold-up). -/
def Aon.qOf (a : Aon) (c : Nat) : Nat := a.rd F.LKT_CAP_CAP_UF * c * a.rd F.LKT_VSCALE_VSCALE / 1000000
/-- Qreq (chapter 04, Hold-up). -/
def Aon.qReq (a : Aon) : Nat := a.qOf (a.rd F.LKT_CFG_VMIN)
/-- Whether gauge and voltage differ on whether the charge reaches Qreq (R108). -/
def Aon.gaugeDiffers (a : Aon) (c : Nat) : Bool :=
  decide (a.qReq ≤ a.rd F.LKT_GAUGE_Q) != decide (a.qReq ≤ a.qOf c)
/-- Sets the gauge, in nC. -/
def Aon.setGauge (a : Aon) (nc : Nat) : Aon :=
  ({ a with locket := { a.locket with frac := nc % 1000 } }).wr F.LKT_GAUGE_Q (min (nc / 1000) (2 ^ 24 - 1))

/-- The gauge over one microsecond (R108): ICHG and ILOAD in mA are nC per µs, and it saturates at the capacitance times the voltage
of the last scan; after a trip it subtracts ILOAD only. -/
def Aon.gaugeStep (a : Aon) : Aon :=
  let q := a.rd F.LKT_GAUGE_Q * 1000 + a.locket.frac
  if a.brown.tripped then a.setGauge (q - a.rd F.LKT_CAP_ILOAD)
  else a.setGauge (min (q + a.rd F.LKT_CAP_ICHG - a.rd F.LKT_CAP_ILOAD) (a.qOf (a.rd (F.SEQ_ADC_VAL_CODE 31)) * 1000))

/-- A valid record's slots, newest first (R106): valid slots ordered by falling SEQNUM. -/
def Locket.newestFirst (l : Locket) : List Nat :=
  (((l.slots.filter fun p => slotValid p.2).map fun p => (recSeq p.2, p.1)).insertionSort fun x y => y.1 ≤ x.1).map (·.2)

end Sys2Proof.Machine
end

