-- ==== Sys2Proof/Machine/MemOps.lean ====
section
/-! DEFINITION. The device physical map, byte memory, encryption and memory errors (chapter 07). -/

namespace Sys2Proof.Machine

/-! ### Byte memory -/

/-- What a byte that nothing has written reads as: zero (R528, R131), or, in DRAM whose initialisation was skipped, a free
value (log entry 10). -/
def Memory.dflt (m : Memory) (a : Nat) : Byte :=
  match m.undef with
  | some e => if a < 2 ^ 36 then Config.freeByte e a else 0
  | none => 0

/-- One byte of memory. -/
def Memory.get (m : Memory) (a : Nat) : Byte := (fget m.cells a).getD (m.dflt a)

/-- Writes one byte, keeping the canonical form: no entry equals what an unlisted address reads as. -/
def Memory.set (m : Memory) (a : Nat) (v : Byte) : Memory :=
  { m with cells := if v = m.dflt a then fdel m.cells a else fset m.cells a v }

/-- `n` bytes from `a`. -/
def Memory.read (m : Memory) (a : Nat) : Nat → List Byte
  | 0 => []
  | n + 1 => m.get a :: m.read (a + 1) n

/-- Writes the bytes of a list from `a` on. -/
def Memory.write (m : Memory) (a : Nat) : List Byte → Memory
  | [] => m
  | b :: bs => (m.set a b).write (a + 1) bs

/-- Clears addresses `lo` to `hi - 1` to zero (R20, R528); they lie outside DRAM. -/
def Memory.clear (m : Memory) (lo hi : Nat) : Memory :=
  { m with cells := m.cells.filter fun c => !(decide (lo ≤ c.1) && decide (c.1 < hi)) }

/-- Strictly rising addresses. -/
def risingFrom : Nat → List Host.Cell → Bool
  | _, [] => true
  | lo, c :: cs => decide (lo ≤ c.1) && risingFrom (c.1 + 1) cs

/-- The canonical form: addresses strictly rising, no entry equal to what an unlisted address reads as. -/
def Memory.wf (m : Memory) : Bool := risingFrom 0 m.cells && m.cells.all fun c => c.2 != m.dflt c.1

/-! ### The physical map (R163) -/

/-- Base of shared SRAM. -/
def sramBase : Nat := 0x1000000000
/-- Size of shared SRAM. -/
def sramSize : Nat := 0x2000000
/-- Base of the memory of tile `n`. -/
def tileBase (n : Nat) : Nat := 0x1010000000 + n * 0x800000
/-- Size of a tile memory. -/
def tileSize : Nat := 0x600000
/-- Base of the clasp apertures. -/
def claspBase : Nat := 0x2000000000
/-- Base of the MMIO region. -/
def mmioBase : Nat := 0xF0000000000

/-- What a device physical address names (R163). -/
inductive Region where
  | dram | sram | tile (n : Nat) | clasp (c o : Nat) | mmio (off : Nat) | hole
deriving DecidableEq, Repr

/-- Visible DRAM in bytes (R170). -/
def Dev.memSize (d : Dev) : Nat := d.rd F.MEM_SIZE_BYTES
/-- Where the save pool begins (R228). -/
def Dev.poolBase (d : Dev) : Nat := sramBase + sramSize - d.rd F.CMD_SAVE_POOL_SIZE * 2 ^ 20

/-- The region of a device physical address; the save pool is a hole for every agent (R228). -/
def Dev.region (d : Dev) (p : Nat) : Region :=
  if p < d.memSize then .dram
  else if sramBase ≤ p && p < d.poolBase then .sram
  else if tileBase 0 ≤ p && p < tileBase 16 && (p - tileBase 0) % 0x800000 < tileSize then .tile ((p - tileBase 0) / 0x800000)
  else if claspBase ≤ p && p < claspBase + 2 ^ 40 then .clasp ((p - claspBase) / 2 ^ 36) (p % 2 ^ 36)
  else if mmioBase ≤ p && p < mmioBase + 2 ^ 26 then .mmio (p - mmioBase)
  else .hole

/-- Whether `n` bytes from `p` lie wholly in visible DRAM. -/
def Dev.inDram (d : Dev) (p n : Nat) : Bool := decide (p + n ≤ d.memSize)
/-- Whether `n` bytes from `p` lie wholly in shared SRAM outside the save pool. -/
def Dev.inSram (d : Dev) (p n : Nat) : Bool := decide (sramBase ≤ p) && decide (p + n ≤ d.poolBase)
/-- Whether `n` bytes from `p` lie wholly in DRAM or wholly in shared SRAM outside the save pool. -/
def Dev.inMem (d : Dev) (p n : Nat) : Bool := d.inDram p n || d.inSram p n
/-- Whether `n` bytes from `p` meet the save pool. -/
def Dev.meetsPool (d : Dev) (p n : Nat) : Bool := decide (p < sramBase + sramSize) && decide (d.poolBase < p + n)

/-- The number of populated channels (R169). -/
def Dev.nch (d : Dev) : Nat := ((List.range 32).filter fun k => (d.rd F.MEM_CHAN_MASK).testBit k).length
/-- The channel of a DRAM address (R169). -/
def Dev.channel (d : Dev) (p : Nat) : Nat := if d.nch = 0 then 0 else p / 256 % d.nch
/-- Where in its channel a DRAM address is placed (R169). -/
def Dev.channelOffset (d : Dev) (p : Nat) : Nat := if d.nch = 0 then p else p / 256 / d.nch * 256 + p % 256
/-- The DRAM address at offset `o` of channel `k` (R169). -/
def Dev.placeAt (d : Dev) (k o : Nat) : Nat := (o / 256 * d.nch + k) * 256 + o % 256

/-! ### Keys (R175, R176) -/

/-- Key slot `s`. -/
def Dev.key (d : Dev) (s : Nat) : KeySlot := (fget d.keys s).getD {}
/-- Sets key slot `s`; an EMPTY slot is not listed. -/
def Dev.setKey (d : Dev) (s : Nat) (k : KeySlot) : Dev :=
  { d with keys := if k.st = .empty then fdel d.keys s else fset d.keys s k }
/-- Whether key slot `s` can be used: 0, or not EMPTY. -/
def Dev.keyOk (d : Dev) (s : Nat) : Bool := s == 0 || (d.key s).st != .empty

/-- The code of a key state in MEM_KEY_STAT (R180). -/
def KeyState.code : KeyState → Nat
  | .empty => 0
  | .host => 1
  | .card => 2

/-! ### Reads and writes of stored bytes -/

/-- The bytes of the 16-byte blocks from block number `b` on, decrypted under key slot `s` (R175). -/
def Dev.decBlocks (d : Dev) (k : List (List Byte) × List (List Byte)) : Nat → Nat → List Byte
  | _, 0 => []
  | b, n + 1 => xtsDec k (b / 256) (b % 256) (d.mem.read (16 * b) 16) ++ d.decBlocks k (b + 1) n

/-- Encrypts and writes the 16-byte blocks of a byte string from block number `b` on (R175). -/
def encBlocks (k : List (List Byte) × List (List Byte)) (m : Memory) : Nat → Nat → List Byte → Memory
  | _, 0, _ => m
  | b, n + 1, bs => encBlocks k (m.write (16 * b) (xtsEnc k (b / 256) (b % 256) (bs.take 16))) (b + 1) n (bs.drop 16)

/-- `n` bytes at physical address `p`, under key slot `s` where `p` lies in DRAM. -/
def Dev.readMem (d : Dev) (s p n : Nat) : List Byte :=
  if s = 0 || 2 ^ 36 ≤ p then d.mem.read p n
  else
    let b := p / 16
    let c := (p + n + 15) / 16 - b
    ((d.decBlocks (xtsKeys (d.key s).key) b c).drop (p % 16)).take n

/-- The size of an ECC granule: 64 bytes in DRAM (R171), a 64-bit word in SRAM (R168). -/
def granSize (p : Nat) : Nat := if p < 2 ^ 36 then 64 else 8

/-- Whether `n` bytes at `p` touch the granule at `g`. -/
def touches (p n g : Nat) : Bool := decide (g < p + n) && decide (p < g + granSize g)
/-- Whether `n` bytes at `p` cover the granule at `g`. -/
def covers (p n g : Nat) : Bool := decide (p ≤ g) && decide (g + granSize g ≤ p + n)

/-- Whether a word reads as uncorrectable: two wrong bits, or POISON (R168, R171). -/
def Ecc.bad (e : Ecc) : Bool := e != .one

/-- The first uncorrectable granule that `n` bytes at `p` touch. -/
def Dev.badGran (d : Dev) (p n : Nat) : Option Nat :=
  (d.ecc.find? fun e => e.2.bad && touches p n e.1).map (·.1)

/-- What a read of `n` bytes at `p` does to words with one wrong bit (R168, R171, R179): each is corrected and counted. In SRAM it is
written back; in DRAM it stays until a write or a scrub. -/
def Dev.correct (d : Dev) (p n : Nat) : Dev :=
  let hit := d.ecc.filter fun e => !e.2.bad && touches p n e.1
  if hit.isEmpty then d
  else
    let dr := hit.filter fun e => decide (e.1 < 2 ^ 36)
    (({ d with ecc := d.ecc.filter fun e => e.2.bad || decide (e.1 < 2 ^ 36) || !touches p n e.1 }).sat
      F.MEM_ECC_STAT_DRAM_CE dr.length).sat F.MEM_ECC_STAT_SRAM_CE (hit.length - dr.length)

/-- A bit of the granule that holds `p` goes wrong, or two do. -/
def Dev.upsetMem (d : Dev) (p : Nat) (two : Bool) : Dev :=
  let g := p / granSize p * granSize p
  { d with ecc := fset d.ecc g (match fget d.ecc g with
      | some .poison => .poison
      | some _ => .two
      | none => if two then .two else .one) }

/-- Captures an uncorrectable error (R179): the first one until software clears UE. -/
def Dev.logUe (d : Dev) (addr source ctx : Nat) : Dev :=
  if d.is F.MEM_ECC_STAT_UE then d
  else d.wrs [(F.MEM_ECC_STAT_UE, 1), (F.MEM_ERR_ADDR_ADDR, addr), (F.MEM_ERR_INFO_SOURCE, source),
    (F.MEM_ERR_INFO_CTX, ctx), (F.MEM_ERR_INFO_CHANNEL, if addr < 2 ^ 36 && source != 3 then d.channel addr else 0)]

/-- The read of a read-modify-write corrects the words that `n` bytes at `p` cover in part, and the write stores them good. -/
def Dev.correctPart (d : Dev) (p n : Nat) : Dev :=
  let hit := d.ecc.filter fun e => !e.2.bad && touches p n e.1 && !covers p n e.1
  let d := hit.foldl (fun d e => if e.1 < 2 ^ 36 then d.sat F.MEM_ECC_STAT_DRAM_CE else d.sat F.MEM_ECC_STAT_SRAM_CE) d
  { d with ecc := d.ecc.filter fun e => e.2.bad || !touches p n e.1 }

/-- A write enters the DRAM write queue (rank 6 of R30). When the queue is full it waits for its oldest entry, which retires by itself:
the wait ends within the command (log entry 107). -/
def Dev.queueWrite (d : Dev) (p : Nat) : Dev :=
  { d with writeQ := (if d.writeQ.length < Config.writeQueue + 1 then d.writeQ else d.writeQ.drop 1) ++ [p] }

/-- The oldest entry of the DRAM write queue has been written to the DRAM device (R30). -/
def Dev.retireWrite (d : Dev) : Dev := { d with writeQ := d.writeQ.drop 1 }

/-- Writes bytes at physical address `p` under key slot `s`; `source` and `ctx` name the writer. An uncorrectable granule written in part
is poisoned and logged; one written whole is good again (R168, R171). A write to DRAM passes through its write queue. -/
def Dev.writeMem (d : Dev) (s p : Nat) (bs : List Byte) (source ctx : Nat) : Dev :=
  let n := bs.length
  let d := match d.ecc.find? fun e => e.2.bad && touches p n e.1 && !covers p n e.1 with
    | some g => d.logUe g.1 source ctx
    | none => d
  let d := d.correctPart p n
  let d := if p < 2 ^ 36 then d.queueWrite p else d
  let mem :=
    if s = 0 || 2 ^ 36 ≤ p then d.mem.write p bs
    else
      let b := p / 16
      let c := (p + n + 15) / 16 - b
      let k := xtsKeys (d.key s).key
      let old := d.decBlocks k b c
      encBlocks k d.mem b c (old.take (p % 16) ++ bs ++ old.drop (p % 16 + n))
  { d with mem := mem, ecc := (d.ecc.filter fun e => !covers p n e.1).map fun e => if touches p n e.1 then (e.1, .poison) else e }

/-! ### Host-bound writes (R33, R39, R140) -/

/-- The length of the next request to host address `a` for `n` bytes (R140, R173): it crosses no 256-byte boundary and is at most `most`. -/
def reqLen (a n most : Nat) : Nat := min n (min (256 - a % 256) most)

/-- Posted writes of bytes to host memory, split into requests (R33, R39, R140), on behalf of a context and a descriptor. -/
def Dev.hostWriteFor (d : Dev) (dst : HostAt) (ctx : Option Nat) (own : Option (Nat × Nat)) : Nat → List Byte → Dev
  | 0, _ => d
  | fuel + 1, bs =>
    if bs.isEmpty then d
    else
      let k := reqLen dst.addr bs.length (max 1 d.pci.mps)
      (d.postOut { out := .hostWrite dst (bs.take k), ctx := ctx, own := own }).hostWriteFor { dst with addr := dst.addr + k } ctx own
        fuel (bs.drop k)

/-- A posted write of the device itself to a bus address (R229). -/
def Dev.hostWrite (d : Dev) (a : Nat) (bs : List Byte) : Dev := d.hostWriteFor { addr := a } none none bs.length bs

end Sys2Proof.Machine
end

