-- ==== Sys2Proof/Machine/ClaspOps.lean ====
section
/-! DEFINITION. Clasp messages and flits, their routing and sending (chapter 21). -/

namespace Sys2Proof.Machine

/-- This chip's clasp ID (R55). -/
def Dev.chip (d : Dev) : Nat := bits d.strap.toNat 0 4
/-- Whether this chip is a member of a pair (R55). -/
def Dev.paired (d : Dev) : Bool := d.strap.getLsbD 6
/-- Whether this member is one of a pair at all (R496). -/
def Dev.isPair (d : Dev) : Bool := d.paired && d.is F.GLB_FUSE_PAIR_EN
/-- The role (R495): 0 SINGLE, 1 PAIRING, 2 ACTIVE, 3 STANDBY, 4 HALTED, 5 MISMATCH. -/
def Dev.role (d : Dev) : Nat := if d.isPair then d.rd F.PAIR_STATUS_ROLE else 0
/-- Whether the member drives the machine outputs (R495, R498, R507). -/
def Dev.drives (d : Dev) : Bool := (d.role == 0 || d.role == 2) && d.tb.driving

/-- Clasp port `p`. -/
def Dev.port (d : Dev) (p : Nat) : Port := (fget d.cls.ports p).getD {}
/-- Sets clasp port `p`. -/
def Dev.setPort (d : Dev) (p : Nat) (x : Port) : Dev :=
  { d with cls := { d.cls with ports := if x = {} then fdel d.cls.ports p else fset d.cls.ports p x } }
/-- The state of port `p` (R494): 0 DISABLED, 1 TRAINING, 2 UP, 3 RETRAINING, 4 FAILED. -/
def Dev.portState (d : Dev) (p : Nat) : Nat := d.rd (F.CLS_PORT_STAT_STATE p)

/-- The class of a message (R482): 0 REQ, 1 CPL, 2 CTL. -/
def mclass (t : Nat) : Nat := if t = 1 || t = 2 then 0 else if t = 3 || t = 4 || t = 5 then 1 else 2

/-- The 24-byte message header (R482). -/
def msgHeader (m : ClaspMsg) : List Byte :=
  toBytes 1 m.mtype ++ toBytes 1 (m.src % 16 + 16 * (m.dst % 16)) ++ toBytes 2 (m.tag % 4096) ++ toBytes 2 (m.sctx % 4096) ++
    toBytes 2 (m.len % 256) ++ toBytes 8 m.offset ++ toBytes 8 m.arg

/-- Pieces of 24 bytes, the last one padded with zero (R482). -/
def pieces : Nat → List Byte → List (List Byte)
  | 0, _ => []
  | n + 1, bs => (bs.take 24 ++ List.replicate (24 - bs.length) 0) :: pieces n (bs.drop 24)

/-- A flit without its SEQ, ACK and CRC (R478). -/
def mkFlit (vc hop : Nat) (som : Bool) (payload : List Byte) : BitVec 256 :=
  BitVec.ofNat 256 (vc * 2 ^ 25 + hop % 4 * 2 ^ 27 + (if som then 2 ^ 29 else 0) + ofBytes payload % 2 ^ 192 * 2 ^ 32)

/-- The flits of a message (R482). -/
def msgFlits (hop : Nat) (m : ClaspMsg) : List (BitVec 256) :=
  let c := mclass m.mtype
  mkFlit c hop true (msgHeader m) :: (pieces ((m.data.length + 23) / 24) m.data).map (mkFlit c hop false)

/-- A flit with its SEQ, ACK and CRC (R478). -/
def sealFlit (seq ack : Nat) (nak : Bool) (f : BitVec 256) : BitVec 256 :=
  let lo := f.toNat / 2 ^ 25 % 2 ^ 199 * 2 ^ 25 + seq % 4096 + ack % 4096 * 2 ^ 12 + (if nak then 2 ^ 24 else 0)
  BitVec.ofNat 256 (lo + (crc32 (toBytes 28 lo)).toNat * 2 ^ 224)

/-- VC of a flit. -/
def flitVc (f : BitVec 256) : Nat := bits f.toNat 25 2
/-- The credit pool of a flit: four times its class plus its hop index (R480). -/
def flitPool (f : BitVec 256) : Nat := 4 * flitVc f + bits f.toNat 27 2
/-- The receiver's buffer of a pool (R480). -/
def poolSize (k : Nat) : Nat := if k < 8 then 128 else 16
/-- Flits of a pool whose credit has not come back. -/
def Port.used (x : Port) (k : Nat) : Nat := (fget x.credits k).getD 0

/-- An IDLE flit of port `p` with its ACK and the credit of one received flit of pool `k`. -/
def Dev.idleSend (d : Dev) (p : Nat) (nak : Bool) (k : Option Nat) : Dev :=
  let x := d.port p
  let payload := (List.range 12).flatMap fun j => toBytes 2 (if k == some j then 1 else 0)
  (d.setPort p { x with sinceIdle := 0 }).send (.flit p (sealFlit x.nextSeq x.lastIn nak (mkFlit 3 0 false payload)))

/-- A flit of port `p` has gone out: at least every 64th flit is an IDLE flit (R480). -/
def Dev.flitSent (d : Dev) (p : Nat) (f : BitVec 256) : Dev :=
  let x := d.port p
  let d := (d.setPort p { x with sinceIdle := x.sinceIdle + 1 }).send (.flit p f)
  if x.sinceIdle + 1 < 63 then d else d.idleSend p false none

/-- Sends the waiting flits of port `p` that have credits, while the replay buffer has room (R479, R480, R487): the flits of one pool keep
their order, and a pool without credit holds up no other; `kept` are those that go on waiting. -/
def Dev.pump (d : Dev) (p : Nat) (kept : List (BitVec 256)) : List (BitVec 256) → Dev
  | [] => d.setPort p { d.port p with waiting := kept }
  | f :: fs =>
    let x := d.port p
    if d.portState p == 2 && x.used (flitPool f) < poolSize (flitPool f) && x.replay.length < 1024 &&
        kept.all fun g => flitPool g != flitPool f then
      let g := sealFlit x.nextSeq x.lastIn false f
      let x := { x with nextSeq := (x.nextSeq + 1) % 4096, replay := x.replay ++ [g],
                        credits := fset x.credits (flitPool f) (x.used (flitPool f) + 1) }
      ((d.setPort p x).flitSent p g).pump p kept fs
    else d.pump p (kept ++ [f]) fs

/-- Sends what port `p` can send. -/
def Dev.portKick (d : Dev) (p : Nat) : Dev := d.pump p [] (d.port p).waiting

/-- Sends a message out of port `p` with hop index `hop`. -/
def Dev.sendOn (d : Dev) (p hop : Nat) (m : ClaspMsg) : Dev :=
  let x := d.port p
  (d.setPort p { x with waiting := x.waiting ++ msgFlits hop m }).portKick p

/-- The port of a chip by the route table, when its entry is valid and its port may carry it (R476, R484, R494). -/
def Dev.route (d : Dev) (c : Nat) : Option Nat :=
  let p := d.rd (F.CLS_ROUTE_PORT c)
  if d.is (F.CLS_ROUTE_VALID c) && d.is F.GLB_FUSE_CLASP_EN && !(p == 3 && d.paired) then some p else none

/-- Sends a message to the chip it names, at hop index 0, when it has a valid route (R484). -/
def Dev.claspSend (d : Dev) (m : ClaspMsg) : Dev :=
  match d.route m.dst with
  | some p => d.sendOn p 0 m
  | none => d

/-! ### Barriers (R488, R489) -/

/-- Barrier entry `b`. -/
def Dev.bar (d : Dev) (b : Nat) : Barrier := (fget d.cls.bars b).getD {}
/-- Sets barrier entry `b`. -/
def Dev.setBar (d : Dev) (b : Nat) (x : Barrier) : Dev :=
  { d with cls := { d.cls with bars := if x = {} then fdel d.cls.bars b else fset d.cls.bars b x } }

/-- ARRIVE or ABANDON of barrier `b` to every other member (R488, R489). -/
def Dev.barSend (d : Dev) (mtype b : Nat) (gen : Bool) (members : Nat) (ctx : Nat) : Dev :=
  (maskList 16 members).foldl (fun d c =>
    if c = d.chip then d
    else d.claspSend { mtype := mtype, src := d.chip, dst := c, tag := 0, sctx := ctx, offset := 0,
                       arg := b + (if gen then 256 else 0) + members * 2 ^ 16, data := [] }) d

/-- The entry discards both generations' arrivals and toggles GEN (R489). -/
def Barrier.abandoned (x : Barrier) : Barrier := { x with wait := none, arr0 := [], arr1 := [], gen := !x.gen }

/-- The members that have arrived at barrier `b` in its present generation, this chip among them (R488). -/
def Dev.barMask (d : Dev) (b : Nat) : Nat :=
  let x := d.bar b
  listMask (d.chip :: (if x.gen then x.arr1 else x.arr0).map (·.1))

/-- A local barrier that waits ends without release: ABANDON goes to the other members (R489). -/
def Dev.barAbandon (d : Dev) (b : Nat) : Dev :=
  let x := d.bar b
  match x.wait with
  | some (_, _, members) => (d.barSend 0x11 b x.gen members (x.owner.getD 0)).setBar b x.abandoned
  | none => d

end Sys2Proof.Machine
end

