-- ==== Sys2Proof/Machine/EventOps.lean ====
section
/-! DEFINITION. The event ring (chapter 09, R229–R231). -/

namespace Sys2Proof.Machine

/-- An event before it is written (R229). -/
structure Ev where
  cls : Nat
  src : Nat
  code : Nat
  ctx : Option Nat := none
  q : Option Nat := none
  addr : Nat := 0
  data : Nat := 0

/-- KILL and DEVICE entries are fatal (R229). -/
def Ev.fatal (e : Ev) : Bool := e.cls == 3 || e.cls == 4

/-- The 32 bytes of an entry (R229). -/
def Dev.evBytes (d : Dev) (e : Ev) : List Byte :=
  toBytes 4 (d.rd F.CMD_EVT_TAIL_PHASE + e.cls * 2 + (if e.fatal then 16 else 0) + (if d.evt.lostBefore then 32 else 0) +
      e.src % 256 * 2 ^ 8 + e.code % 65536 * 2 ^ 16) ++
    toBytes 4 (e.ctx.getD 0 % 4096 + e.q.getD 0 % 64 * 2 ^ 12 + (if e.ctx.isSome then 2 ^ 18 else 0) +
      (if e.q.isSome then 2 ^ 19 else 0)) ++
    toBytes 8 d.uptime ++ toBytes 8 e.addr ++ toBytes 8 e.data

/-- Writes bytes at offset `o` of the ring, in device memory or host memory (R229). -/
def Dev.evStore (d : Dev) (o : Nat) (bs : List Byte) : Dev :=
  let base := d.rd F.CMD_EVT_BASE_ADDR * 4096
  if d.is F.CMD_EVT_BASE_LOC then d.hostWrite (base + o) bs else d.writeMem 0 (base + o) bs 6 0

/-- Whether source `s` holds its fatal credit (R230). -/
def Dev.hasCredit (d : Dev) (s : Nat) : Bool := (d.rd F.CMD_EVT_CREDIT_HELD).testBit s

/-- Writes an entry at TAIL, bytes 4 to 31 before bytes 0 to 3, advances TAIL and PHASE, and raises sources 0 and 1 (R150, R229).
Chapter 09 states no condition that source 0 rises on: every entry written counts as one rise, whatever is unread (DESIGN CHOICE, log
entry 108). -/
def Dev.evWrite (d : Dev) (e : Ev) : Dev :=
  let t := d.rd F.CMD_EVT_TAIL_TAIL
  let bs := d.evBytes e
  let d := (d.evStore (32 * t + 4) (bs.drop 4)).evStore (32 * t) (bs.take 4)
  let cs := if e.fatal then d.evt.creditSlots ++ [(t, e.src)] else d.evt.creditSlots
  let d := { d with evt := { d.evt with lostBefore := false, unread := d.evt.unread + 1, creditSlots := cs } }
  let d := if e.fatal then d.clrf F.CMD_EVT_CREDIT_HELD (2 ^ e.src) else d
  let d := if t = 4095 then (d.wr F.CMD_EVT_TAIL_TAIL 0).wr F.CMD_EVT_TAIL_PHASE (1 - d.rd F.CMD_EVT_TAIL_PHASE)
           else d.wr F.CMD_EVT_TAIL_TAIL (t + 1)
  let d := d.irq 0
  if e.fatal then d.irq 1 else d

/-- The number of fatal credits held (R230). -/
def Dev.credits (d : Dev) : Nat := (maskList 45 (d.rd F.CMD_EVT_CREDIT_HELD)).length

/-- Posts an event (R229, R230): a non-fatal one is dropped and counted without room, a fatal one of a source without its
credit is merged. -/
def Dev.post (d : Dev) (e : Ev) : Dev :=
  let en := d.is F.CMD_EVT_CTRL_EN
  if e.fatal then
    if en && d.hasCredit e.src then d.evWrite e
    else
      let m := (fget d.evt.merged e.src).getD (0, 0, none)
      ({ d with evt := { d.evt with merged := fset d.evt.merged e.src (m.1 + 1, e.cls, e.ctx.or m.2.2) } }).orf
        F.CMD_EVT_MERGED_PEND (2 ^ e.src)
  else if e.cls == 2 && !d.is F.CMD_EVT_CTRL_FAULT_EV then d
  else if en && decide (d.credits < 4096 - d.evt.unread) then d.evWrite e
  else ({ d with evt := { d.evt with lostBefore := true } }).sat F.CMD_EVT_STAT_LOST

/-- Source `s` writes its FATAL_MERGED entry when it holds its credit and has merged fatals (R230). -/
def Dev.evMerged (d : Dev) (s : Nat) : Dev :=
  match fget d.evt.merged s with
  | some (n, cls, ctx) =>
    if d.is F.CMD_EVT_CTRL_EN && d.hasCredit s then
      (({ d with evt := { d.evt with merged := fdel d.evt.merged s } }).clrf F.CMD_EVT_MERGED_PEND (2 ^ s)).evWrite
        { cls := cls, src := s, code := 3, ctx := ctx, data := n }
    else d
  | none => d

/-- FATAL_MERGED entries of every source that can write one. -/
def Dev.evMergedAll (d : Dev) : Dev := (List.range 45).foldl Dev.evMerged d

/-- A write of CMD_EVT_HEAD (R231): a value beyond TAIL is discarded with OVERFLOW; the credits of the entries passed
return. -/
def Dev.evHead (d : Dev) (h : Nat) : Dev :=
  let h0 := d.rd F.CMD_EVT_HEAD_HEAD
  let n := (h % 4096 + 4096 - h0) % 4096
  if d.evt.unread < n then d.wr F.CMD_EVT_STAT_OVERFLOW 1
  else
    let passed : Nat × Nat → Bool := fun c => decide ((c.1 + 4096 - h0) % 4096 < n)
    let back := listMask ((d.evt.creditSlots.filter passed).map (·.2))
    let cs := d.evt.creditSlots.filter fun c => !passed c
    let d := { d with evt := { d.evt with unread := d.evt.unread - n, creditSlots := cs } }
    ((d.wr F.CMD_EVT_HEAD_HEAD h).orf F.CMD_EVT_CREDIT_HELD back).evMergedAll

/-- Whether the event ring may lie at its base (R229). -/
def Dev.evRingOk (d : Dev) : Bool :=
  let b := d.rd F.CMD_EVT_BASE_ADDR * 4096
  d.is F.CMD_EVT_BASE_LOC || (d.is F.BOOT_STATUS_DRAM_READY && d.inDram b 0x20000) || d.inSram b 0x20000

/-- A REQUEST event of no descriptor (R3, R229). -/
def Dev.postRequest (d : Dev) (src code : Nat) (ctx q : Option Nat) (addr data : Nat) : Dev :=
  d.post { cls := 1, src := src, code := 0x200 + code, ctx := ctx, q := q, addr := addr, data := data }

/-- A write of CMD_EVT_CTRL (R229): EN is taken only where the ring may lie; LOST clears when EN goes from 0 to 1. -/
def Dev.evCtrl (d : Dev) (v : Nat) : Dev :=
  let d := d.wr F.CMD_EVT_CTRL_FAULT_EV (bits v 1 1)
  if bits v 0 1 = 0 then d.wr F.CMD_EVT_CTRL_EN 0
  else if d.is F.CMD_EVT_CTRL_EN || !d.evRingOk then d
  else
    let d := ((d.wr F.CMD_EVT_CTRL_EN 1).wr F.CMD_EVT_STAT_LOST 0).evMergedAll
    if d.boot.strapErr then { d with boot := { d.boot with strapErr := false } }.postRequest 44 0x81 none none 0 0 else d

/-- An INFO event (R229). -/
def Dev.postInfo (d : Dev) (src code data : Nat) (addr : Nat := 0) (ctx : Option Nat := none) (q : Option Nat := none) : Dev :=
  d.post { cls := 0, src := src, code := code, ctx := ctx, q := q, addr := addr, data := data }

end Sys2Proof.Machine
end

