-- ==== Sys2Proof/Machine/Trans.lean ====
section
/-! DEFINITION. Contexts, the walk of the device tables and the translation of an access (chapter 08). -/

namespace Sys2Proof.Machine

/-- Context `c`. -/
def Dev.ctx (d : Dev) (c : Nat) : Ctx := (fget d.ctxs c).getD {}
/-- Sets context `c`; a FREE context with no state is not listed. -/
def Dev.setCtx (d : Dev) (c : Nat) (x : Ctx) : Dev :=
  { d with ctxs := if x = {} then fdel d.ctxs c else fset d.ctxs c x }
/-- Whether context `c` is ACTIVE (R181). -/
def Dev.active (d : Dev) (c : Nat) : Bool := (d.ctx c).state == 1

/-- A leaf found by a walk. -/
structure Leaf where
  base : Nat
  size : Nat
  key : Nat
  w : Bool
  r : Bool
  pin : Bool
deriving DecidableEq, Repr

/-- How a walk ends: a leaf, a kill cause of R209, or an uncorrectable error. -/
inductive WalkR where
  | leaf (l : Leaf)
  | err (cause : Nat)
  | ue (addr : Nat)
deriving DecidableEq, Repr

/-! ### Entries (R186, R188) -/

/-- V. -/
def pteV (e : Nat) : Bool := e.testBit 0
/-- LEAF. -/
def pteLeaf (e : Nat) : Bool := e.testBit 1
/-- C64. -/
def pteC64 (e : Nat) : Bool := e.testBit 5
/-- ADDR as a byte address. -/
def pteAddr (e : Nat) : Nat := bits e 12 32 * 4096
/-- KEY. -/
def pteKey (e : Nat) : Nat := bits e 48 8
/-- The span of an entry of level `l` (R185). -/
def spanOf (l : Nat) : Nat := 2 ^ (12 + 9 * l)

/-- Whether 4 KiB at `a` lie in populated DRAM or anywhere in shared SRAM, the save pool included (R188). -/
def Dev.tableIn (d : Dev) (a : Nat) : Bool :=
  d.inDram a 4096 || (decide (sramBase ≤ a) && decide (a + 4096 ≤ sramBase + sramSize))

/-- Whether an entry with V = 1 is malformed at level `l` (R188); `as4k` says that the walk uses it as a 4 KiB entry. -/
def Dev.malformed (d : Dev) (l e : Nat) (as4k : Bool) : Bool :=
  bits e 6 6 != 0 || bits e 44 4 != 0 ||
    (if pteLeaf e then
      l == 3 || (l != 0 && (pteC64 e || pteAddr e % spanOf l != 0)) ||
        (l == 0 && pteC64 e && (as4k || pteAddr e % 65536 != 0))
    else
      l == 0 || bits e 2 4 != 0 || pteKey e != 0 || !d.tableIn (pteAddr e))

/-- Whether a window entry with V = 1 breaks its layout (R188, R206): a leaf of 2 MiB with C64 = 0 and PIN = 0. -/
def Dev.winMalformed (d : Dev) (e : Nat) : Bool := d.malformed 0 e false || pteC64 e || e.testBit 4 || bits e 12 9 != 0

/-- The leaf an entry gives. -/
def mkLeaf (e size : Nat) : Leaf :=
  { base := pteAddr e, size := size, key := pteKey e, w := e.testBit 2, r := e.testBit 3, pin := e.testBit 4 }

/-- The 8-byte entry at index `i` of the table at `t`: plaintext whatever the key slot of its own mapping (R185). -/
def Dev.pte (d : Dev) (t i : Nat) : Nat := ofBytes (d.readMem 0 (t + 8 * i) 8)

/-- Index of VA at level `l` (R185). -/
def vaIdx (l va : Nat) : Nat := va / spanOf l % 512

/-- Where the boot controller keeps the device tables of context 0 (R134): the spec names no place for them, and this range, a hole
to every other agent, stands for it (log entry 34). -/
def privBase : Nat := sramBase + sramSize
/-- Whether an address lies in the boot controller's tables of context 0. -/
def isPriv (a : Nat) : Bool := decide (privBase ≤ a) && decide (a < privBase + 0x10000)
/-- Whether a table may lie at `t` (R188), or is one of the boot controller's. -/
def Dev.tableMem (d : Dev) (t : Nat) : Bool := d.inMem t 4096 || isPriv t
/-- Whether an entry of a table of the boot controller links another one of it. -/
def linkPriv (t e : Nat) : Bool := isPriv t && !pteLeaf e && isPriv (pteAddr e)

/-- The walk from the table at `t`, at level `l`, down (R185–R188). -/
def Dev.walkFrom (d : Dev) (va : Nat) : Nat → Nat → WalkR
  | 0, t =>
    if !d.tableMem t then .err 4 else
      let g := vaIdx 0 va / 16 * 16
      match d.badGran (t + 8 * g) 128 with
      | some a => .ue a
      | none =>
        let e := d.pte t g
        if pteV e && pteC64 e then
          if d.malformed 0 e false then .err 1 else .leaf (mkLeaf e 65536)
        else
          let e := d.pte t (vaIdx 0 va)
          if !pteV e then .err 2 else if d.malformed 0 e true then .err 1 else .leaf (mkLeaf e 4096)
  | l + 1, t =>
    if !d.tableMem t then .err 4 else
      match d.badGran (t + 8 * vaIdx (l + 1) va) 8 with
      | some a => .ue a
      | none =>
        let e := d.pte t (vaIdx (l + 1) va)
        if !pteV e then .err 2
        else if !linkPriv t e && d.malformed (l + 1) e false then .err 1
        else if pteLeaf e then .leaf (mkLeaf e (spanOf (l + 1)))
        else d.walkFrom va l (pteAddr e)

/-- The walk of a device-half address of context `c`. -/
def Dev.walk (d : Dev) (c va : Nat) : WalkR := d.walkFrom va 3 (d.ctx c).root

/-! ### The tables of context 0 (R134) -/

/-- A leaf of the load area: readable, writable, pinned. -/
def loadLeaf (va key : Nat) : Nat := 0x1F + va + key * 2 ^ 48

/-- Writes the leaf of `va` at level `l` below the table at `t` of level `m`; `used` pages of the boot controller's range are
taken. -/
def mapAt (va key l : Nat) : Nat → Nat → Dev × Nat → Dev × Nat
  | 0, t, r => (r.1.writeMem 0 (t + 8 * vaIdx 0 va) (toBytes 8 (loadLeaf va key)) 0 0, r.2)
  | m + 1, t, r =>
    let a := t + 8 * vaIdx (m + 1) va
    if m + 1 = l then (r.1.writeMem 0 a (toBytes 8 (loadLeaf va key)) 0 0, r.2)
    else
      let e := r.1.pte t (vaIdx (m + 1) va)
      if pteV e then mapAt va key l m (pteAddr e) r
      else
        let n := privBase + 4096 * r.2
        mapAt va key l m n (r.1.writeMem 0 a (toBytes 8 (1 + n)) 0 0, r.2 + 1)

/-- The largest level whose span fits `len` bytes at `va`. -/
def mapLevel (va len : Nat) : Nat :=
  if va % spanOf 2 = 0 && spanOf 2 ≤ len then 2 else if va % spanOf 1 = 0 && spanOf 1 ≤ len then 1 else 0

/-- Maps `len` bytes at `va`, each at its own physical address, under a key slot (R134). -/
def mapLoad (key : Nat) : Nat → Nat → Nat → Dev × Nat → Dev × Nat
  | 0, _, _, r => r
  | k + 1, va, len, r =>
    if len = 0 then r
    else
      let l := mapLevel va len
      mapLoad key k (va + spanOf l) (len - spanOf l) (mapAt va key l 3 privBase r)

/-- Context 0 is created with the load area mapped and pinned (R134, R181, R228). -/
def Dev.createZero (d : Dev) (base max key : Nat) : Dev :=
  let len := (max + 4095) / 4096 * 4096
  let d := { d with mem := d.mem.clear privBase (privBase + 0x10000) }
  let d := d.setCtx 0 { state := 1, root := privBase, saveRec := some 0,
                        pins := [(0, { base := base, len := len, key := key, w := true, va := base })] }
  (mapLoad key 8192 base len (d, 1)).1

/-! ### Accesses of a mover (R164, R184, R188, R245) -/

/-- Whether tile `n` is leased to a queue of context `c`. -/
def Dev.leasedTo (d : Dev) (n c : Nat) : Bool := d.is (F.CMD_TILE_LEASED n) && d.rd (F.CMD_TILE_CTX n) == c

/-- Where an access of a mover lands: device memory, a clasp window, a register, host memory; what it waits for; or what it kills
with. -/
inductive Xl where
  | mem (pa key left : Nat)
  | clasp (chip off left : Nat)
  | mmio (off left : Nat)
  | host (dst : HostAt) (left : Nat)
  | ats
  | kill (cause : Nat)
  | ue (addr : Nat)
deriving DecidableEq, Repr

/-- Where physical address `pa`, mapped with key slot `key`, lands for a mover of context `c`; `left` bytes of its page
follow. -/
def Dev.land (d : Dev) (c pa key left : Nat) : Xl :=
  match d.region pa with
  | .dram => if d.keyOk key then .mem pa key (min left (d.memSize - pa)) else .kill 0xB
  | .sram => .mem pa 0 (min left (d.poolBase - pa))
  | .tile n => if d.leasedTo n c then .mem pa 0 (min left (tileBase n + tileSize - pa)) else .kill 4
  | .clasp k o => if k == d.chip || (d.route k).isNone then .kill 4 else .clasp k o (min left (2 ^ 36 - o))
  | .mmio o => .mmio o left
  | .hole => .kill 4

/-- Whether a leaf permits the access. -/
def Leaf.allows (l : Leaf) (write : Bool) : Bool := if write then l.w else l.r

/-- Whether a held translation is of the stream `dst` and of the page of `va`. -/
def HeldTr.at_ (h : HeldTr) (dst : Bool) (va : Nat) : Bool := h.dst == dst && decide (h.va ≤ va) && decide (va < h.va + h.size)

/-- The translations that a stream holds once it is at `va` (R190): those of the pages it has left are discarded, oldest first. -/
def leavePages (held : List HeldTr) (dst : Bool) (va : Nat) : List HeldTr :=
  ((held.filter fun h => h.dst == dst).dropWhile fun h => !h.at_ dst va) ++ held.filter fun h => h.dst != dst

/-- Adds a translation to those of its stream, which holds at most `depth` pages ahead of its current one (R190). -/
def holdTr (depth : Nat) (h : HeldTr) (l : List HeldTr) : List HeldTr :=
  (((l.filter fun x => x.dst == h.dst && x.va != h.va) ++ [h]).take (depth + 1)) ++ l.filter fun x => x.dst != h.dst

/-- The translation of a device-half page of context `c` for a stream that writes or not (R188), or what it kills with. -/
def Dev.walkTr (d : Dev) (c va : Nat) (write : Bool) : Except Xl HeldTr :=
  match d.walk c va with
  | .err k => .error (.kill k)
  | .ue a => .error (.ue a)
  | .leaf l =>
    if l.allows write then
      .ok { va := va / l.size * l.size, pa := l.base, key := l.key, size := l.size, dst := write }
    else .error (.kill 3)

/-- Where an access at `va` lands by a held translation of its page. -/
def Dev.through (d : Dev) (c va : Nat) (h : HeldTr) : Xl :=
  let left := h.va + h.size - va
  if h.host then
    .host { addr := if h.untr then va - 2 ^ 47 else h.pa + (va - h.va), pasid := (d.ctx c).pasid, translated := !h.untr } left
  else d.land c (h.pa + (va - h.va)) h.key left

/-- Whether host-half pages are translated by ATS: both Enables are set (R192, R195). -/
def Dev.atsOn (d : Dev) : Bool := d.is F.MMU_STATUS_ATS_EN && d.is F.MMU_STATUS_PRI_EN

/-- Translates an access of context `c` at `va` (R184, R188, R192, R195) by a held translation, else by a walk, or, for host memory, by
ATS, for which it waits, or untranslated. -/
def Dev.xlate (d : Dev) (c : Nat) (held : List HeldTr) (va : Nat) (write : Bool) : Xl :=
  match held.find? fun h => h.at_ write va with
  | some h => d.through c va h
  | none =>
    if va < 2 ^ 47 then
      match d.walkTr c va write with
      | .error x => x
      | .ok h => d.through c va h
    else
      match (d.ctx c).pasid with
      | none => .kill 5
      | some p => if d.atsOn then .ats else .host { addr := va - 2 ^ 47, pasid := some p } (4096 - va % 4096)

/-- The entries that the walk of `va` reads from the table at `t` of level `l` down: their addresses and lengths (R187, R189). -/
def Dev.walkReads (d : Dev) (va : Nat) : Nat → Nat → List (Nat × Nat)
  | 0, t => [(t + 8 * (vaIdx 0 va / 16 * 16), 128)]
  | l + 1, t =>
    let e := d.pte t (vaIdx (l + 1) va)
    (t + 8 * vaIdx (l + 1) va, 8) :: (if pteV e && !pteLeaf e && d.tableMem (pteAddr e) then d.walkReads va l (pteAddr e) else [])

/-- A walk of context `c` corrects the words with one wrong bit that it reads (R179). -/
def Dev.walkCorrect (d : Dev) (c va : Nat) : Dev :=
  if va < 2 ^ 47 then (d.walkReads va 3 (d.ctx c).root).foldl (fun d r => d.correct r.1 r.2) d else d

end Sys2Proof.Machine
end

