-- ==== Sys2Proof/Machine/QueueOps.lean ====
section
/-! DEFINITION. Queues, issued descriptors, completion records, semaphores, tile leases and the kill of a context
(chapters 09 and 10), as the operations every command of those chapters shares. -/

namespace Sys2Proof.Machine

/-! ### Queues and tiles -/

/-- Queue `q` beside its registers. -/
def Dev.queue (d : Dev) (q : Nat) : Queue := (fget d.queues q).getD {}
/-- Sets queue `q`; one with nothing in it is not listed. -/
def Dev.setQueue (d : Dev) (q : Nat) (x : Queue) : Dev :=
  { d with queues := if x = {} then fdel d.queues q else fset d.queues q x }
/-- The state of queue `q` (R233): 0 DISABLED, 1 RUNNING, 2 HALTED, 3 KILLED, 4 DRAINING. -/
def Dev.qstate (d : Dev) (q : Nat) : Nat := d.rd (F.Q_STATUS_STATE q)
/-- The context of queue `q`. -/
def Dev.qctx (d : Dev) (q : Nat) : Nat := d.rd (F.Q_CFG_CTX q)
/-- The queues of context `c` that are not DISABLED. -/
def Dev.queuesOf (d : Dev) (c : Nat) : List Nat :=
  (List.range 64).filter fun q => d.qctx q == c && d.qstate q != 0

/-- Tile `n` beside its registers and memory. -/
def Dev.tile (d : Dev) (n : Nat) : Tile := (fget d.tiles n).getD {}
/-- Sets tile `n`; a closed one with nothing in it is not listed. -/
def Dev.setTile (d : Dev) (n : Nat) (t : Tile) : Dev :=
  { d with tiles := if t = {} then fdel d.tiles n else fset d.tiles n t }

/-- Tile `n` as its shutter opens or its lease ends (R20): memory and quire RAM zero, registers at their reset values. -/
def Dev.tileReset (d : Dev) (n : Nat) (sh : Shutter) : Dev :=
  let d := { d with regs := dropRegsOf (fun o => decide (tileOff n 0 ≤ o) && decide (o < tileOff (n + 1) 0)) d.regs,
                    mem := d.mem.clear (tileBase n) (tileBase n + tileSize),
                    ecc := d.ecc.filter fun e => !(decide (tileBase n ≤ e.1) && decide (e.1 < tileBase n + tileSize)) }
  d.setTile n { shutter := sh }
where
  dropRegsOf (p : Nat → Bool) (m : FMap Nat) : FMap Nat := m.filter fun e => !p (e.1 / 64)

/-- Whether tile `n` can be leased: unleased, not being cleared, its shutter open or waking (R20, R244). -/
def Dev.tileFree (d : Dev) (n : Nat) : Bool :=
  !d.is (F.CMD_TILE_LEASED n) && !(d.tile n).clearing && (d.tile n).shutter != .closed

/-- Leases the tiles of a mask to queue `q` in one step (R21, R244). -/
def Dev.lease (d : Dev) (q : Nat) (m : Nat) : Dev :=
  let d := (maskList 16 m).foldl (fun d n => d.wrs [(F.CMD_TILE_QUEUE n, q), (F.CMD_TILE_LEASED n, 1), (F.CMD_TILE_CTX n, d.qctx q)]) d
  let d := d.wr (F.Q_LEASE_L q) m
  d.setQueue q { d.queue q with leaseSeq := d.issueSeq }

/-- The tiles of a mask that lie in the lease of queue `q` leave it and begin to be cleared (R244). -/
def Dev.unlease (d : Dev) (q : Nat) (m : Nat) : Dev :=
  let m := m &&& d.rd (F.Q_LEASE_L q)
  let d := (maskList 16 m).foldl (fun d n =>
    (d.wr (F.CMD_TILE_LEASED n) 0).setTile n { d.tile n with clearing := true, running := false, idleSince := false }) d
  d.clrf (F.Q_LEASE_L q) m

/-! ### Descriptors (R253, R254) -/

/-- `n` bits of a descriptor from bit `b` of byte `o`. -/
def dfld (x : Desc) (o b n : Nat) : Nat := bits x.toNat (8 * o + b) n
/-- OPCODE. -/
def dOp (x : Desc) : Nat := dfld x 0 0 8
/-- CPL. -/
def dCpl (x : Desc) : Bool := dfld x 0 8 1 == 1
/-- IRQ. -/
def dIrq (x : Desc) : Bool := dfld x 0 9 1 == 1
/-- ORDER. -/
def dOrder (x : Desc) : Bool := dfld x 0 10 1 == 1
/-- TAG. -/
def dTag (x : Desc) : Nat := dfld x 0 16 8
/-- USER. -/
def dUser (x : Desc) : Nat := dfld x 4 0 32

/-- The issued descriptor of queue `q` with ring index `idx`, the oldest one. -/
def Dev.issued (d : Dev) (q idx : Nat) : Option Issued := (d.queue q).issued.find? fun i => i.idx == idx

/-- Replaces the issued descriptor of queue `q` that has the sequence number of `i`. -/
def Dev.setIssued (d : Dev) (q : Nat) (i : Issued) : Dev :=
  d.setQueue q { d.queue q with issued := (d.queue q).issued.map fun j => if j.seq = i.seq then i else j }

/-- Whether queue `q` is neither being pre-empted nor pre-empted. -/
def Dev.unpre (d : Dev) (q : Nat) : Bool := (d.queue q).pre == .running

/-- A free value (log entry 12), and the state that has used it. -/
def Dev.fresh (d : Dev) : Nat × Dev := ((Config.freeValue d.free).toNat, { d with free := d.free + 1 })

/-- A kill that is due: the context, its cause, and the source, ADDR and DATA of its event (R215, R219). -/
structure KillReq where
  c : Nat
  cause : Nat
  src : Nat := 1
  addr : Nat := 0
  data : Nat := 0
deriving DecidableEq, Repr

/-! ### Completion (R242, R243, R256) -/

/-- The 32 bytes of a completion record (R256). -/
def Dev.recBytes (d : Dev) (q : Nat) (r : PendRec) : List Byte :=
  toBytes 4 (d.rd (F.Q_CPL_TAIL_PHASE q) + r.st % 256 * 2 ^ 8 + dOp r.i.d * 2 ^ 16) ++ toBytes 4 (dUser r.i.d) ++
    toBytes 4 (r.i.idx % 65536 + q % 64 * 2 ^ 16) ++ toBytes 4 r.time ++ toBytes 8 r.d0 ++ toBytes 8 r.d1

/-- Asks for the translation of a host-half page for a stream of queue `q` (R192), unless it is asked for already; a request beyond
the limit of R140 waits. -/
def Dev.atsAsk (d : Dev) (q : Nat) (own : Own) (va : Nat) (write : Bool) : Dev :=
  let r : AtsReq := { q := q, own := own, va := va / 4096 * 4096, write := write }
  if d.atsOut.contains r || d.atsWait.contains r then d
  else if d.atsOut.length < 32 then
    { d with atsOut := d.atsOut ++ [r] }.send (.atsRequest ((d.ctx (d.qctx q)).pasid.getD 0) (r.va - 2 ^ 47) (!write))
  else { d with atsWait := d.atsWait ++ [r] }

/-- Changes what the ring transfers of queue `q` wait for. -/
def Dev.onRec (d : Dev) (q : Nat) (f : RingSide → RingSide) : Dev := d.setQueue q { d.queue q with rrec := f (d.queue q).rrec }

/-- Where a transfer of a queue's context to a ring address lands (R235). -/
def Dev.ringXl (d : Dev) (q va : Nat) (tr : Option HeldTr) (write : Bool) : Xl := d.xlate (d.qctx q) tr.toList va write

/-- The kill of a device-half error on a ring address is RING_ACCESS (R235). -/
def ringKill (c cause va : Nat) : KillReq := { c := c, cause := if cause = 5 then 5 else 0x17, addr := va }

/-- The record of a completion has been written (R234, R242, R256): CPL_TAIL advances, and the interrupt rises. -/
def Dev.recDone (d : Dev) (q : Nat) (r : PendRec) : Dev :=
  let t := d.rd (F.Q_CPL_TAIL_TAIL q)
  let n := 2 ^ d.rd (F.Q_CFG_CPL_LOG2 q)
  let d := if t + 1 ≥ n then (d.wr (F.Q_CPL_TAIL_TAIL q) 0).wr (F.Q_CPL_TAIL_PHASE q) (1 - d.rd (F.Q_CPL_TAIL_PHASE q))
           else d.wr (F.Q_CPL_TAIL_TAIL q) (t + 1)
  let d := d.setQueue q { d.queue q with unread := min ((d.queue q).unread + 1) n, recs := (d.queue q).recs.drop 1 }
  let d := d.onRec q fun x => { x with waits := false, tries := 0 }
  if r.st != 0 || dIrq r.i.d then d.irq (2 + q) else d

/-- Writes the completion records of queue `q` that wait, in order, bytes 4 to 31 of each before bytes 0 to 3 (R242, R256); at a host
page that is not translated the queue waits (R235). -/
def Dev.writeRecs : Nat → Dev → Nat → Dev × List KillReq
  | 0, d, _ => (d, [])
  | n + 1, d, q =>
    match (d.queue q).recs with
    | [] => (d.onRec q fun x => { x with tr := none }, [])
    | r :: _ =>
      let c := d.qctx q
      let va := d.rd (F.Q_CPL_BASE_VA q) + 32 * d.rd (F.Q_CPL_TAIL_TAIL q)
      let bs := d.recBytes q r
      let d := d.walkCorrect c va
      match d.ringXl q va (d.queue q).rrec.tr true with
      | .mem pa key _ => (((d.writeMem key (pa + 4) (bs.drop 4) 0 c).writeMem key pa (bs.take 4) 0 c).recDone q r).writeRecs n q
      | .host a _ =>
        let d := d.setCtx c { d.ctx c with lastHost := some a }
        let d := (d.hostWriteFor { a with addr := a.addr + 4 } (some c) none 28 (bs.drop 4)).hostWriteFor a (some c) none 4 (bs.take 4)
        (d.recDone q r).writeRecs n q
      | .ats => ((d.onRec q fun x => { x with waits := true, va := va, tr := none }).atsAsk q (.ring true) va true, [])
      | .ue a => (d.logUe a 1 c, [{ c := c, cause := 0x10, addr := a }])
      | .kill k => (d, [ringKill c k va])
      | _ => (d, [ringKill c 4 va])

/-- The completion record of a descriptor is to be written (R242). -/
def Dev.record (d : Dev) (q : Nat) (i : Issued) (st d0 d1 : Nat) : Dev × List KillReq :=
  let x := d.queue q
  (d.setQueue q { x with recs := x.recs ++ [{ i := i, time := d.uptime, st := st, d0 := d0, d1 := d1 }] }).writeRecs (x.recs.length + 2) q

/-- Whether a KILL or PREEMPT of context `c` is still in progress (R215, R223). -/
def Dev.preBusy (d : Dev) (c : Nat) : Bool :=
  (d.ctx c).revoking || (d.queuesOf c).any fun q =>
    (d.queue q).pre == .stop || (d.queue q).pre == .save || (d.queue q).pre == .clear || d.preQ.contains q

/-- CMD_PRE_CMD.BUSY clears when the KILL or PREEMPT it stands for has ended (R232, log entry 51). -/
def Dev.preSettle (d : Dev) : Dev :=
  if d.is F.CMD_PRE_CMD_BUSY && !d.preBusy (d.rd F.CMD_PRE_SEL_CTX) then d.wr F.CMD_PRE_CMD_BUSY 0 else d

/-- A queue that drains becomes DISABLED when its issued work has ended, and its lease is released (R239). -/
def Dev.drainCheck (d : Dev) (q : Nat) : Dev :=
  if d.qstate q == 4 && (d.queue q).issued.isEmpty && (d.queue q).recs.isEmpty then
    (((d.unlease q (d.rd (F.Q_LEASE_L q))).wr (F.Q_STATUS_STATE q) 0).setQueue q {}).preSettle else d

/-- An issued descriptor completes with a status (R242, R243, R257): its record, interrupt and event, and what the end of its
work does to its queue. Answers the kills that follow. -/
def Dev.finish (d : Dev) (q : Nat) (i : Issued) (st d0 d1 : Nat) : Dev × List KillReq :=
  let d := d.setQueue q { d.queue q with issued := (d.queue q).issued.filter fun j => j.seq != i.seq }
  let d := if st = 0 then d else d.wr (F.Q_STATUS_LAST_STATUS q) st
  let (d, ks) := if dCpl i.d || st != 0 then d.record q i st d0 d1 else (d, [])
  let d := if 0x80 ≤ st then
      d.postRequest 0 st (some (d.qctx q)) (some q) (d.rd (F.Q_RING_BASE_VA q) + 64 * i.idx) i.idx else d
  let d := if 1 ≤ st && st ≤ 0xF && d.is (F.Q_CFG_HALT_ON_FAIL q) && d.qstate q == 1 then d.wr (F.Q_STATUS_STATE q) 2 else d
  (d.drainCheck q, ks)

/-! ### Semaphores (R247–R249) -/

/-- The enabled semaphores. -/
def Dev.enabledSems (d : Dev) : List Nat :=
  (List.filter (fun e : Nat × Nat => e.2 == 1 && decide (0x610000 * 64 ≤ e.1) && decide (e.1 < 0x614000 * 64) && e.1 % 256 == 0)
    d.regs).map fun e => (e.1 / 64 - 0x610000) / 4

/-- The owner of semaphore `s`: none while it is disabled (R247). -/
def Dev.semOwner (d : Dev) (s : Nat) : Option Nat := if d.is (F.SEM_CFG_EN s) then some (d.rd (F.SEM_CFG_CTX s)) else none
/-- Whether context `c` may SIGNAL or WAIT on semaphore `s` (R247). -/
def Dev.semPerm (d : Dev) (c s : Nat) : Bool :=
  d.is (F.SEM_CFG_EN s) && (d.rd (F.SEM_CFG_CTX s) == c || d.is (F.SEM_CFG_SHARE s))

/-- SEM of a WAIT or SIGNAL. -/
def dSem (x : Desc) : Nat := dfld x 8 0 12

/-- Puts a waiter in its place by issue order. -/
def insWaiter (x : Nat × Issued) : List (Nat × Issued) → List (Nat × Issued)
  | [] => [x]
  | y :: ys => if x.2.seq < y.2.seq then x :: y :: ys else y :: insWaiter x ys

/-- The issued descriptors of every queue that meet `p`, in issue order. -/
def Dev.collect (d : Dev) (p : Nat → Issued → Bool) : List (Nat × Issued) :=
  d.queues.foldl (fun l e => (e.2.issued.filter (p e.1)).foldl (fun l i => insWaiter (e.1, i) l) l) []

/-- The WAITs on semaphore `s`, in the order in which they began to wait. -/
def Dev.waiters (d : Dev) (s : Nat) : List (Nat × Issued) := d.collect fun _ i => dOp i.d == 5 && dSem i.d == s

/-- Whether a WAIT's condition holds for value `v` (R248). -/
def condHolds (x : Desc) (v : Nat) : Bool :=
  match dfld x 10 0 2 with
  | 0 => decide (dfld x 12 0 32 ≤ v)
  | 1 => v == dfld x 12 0 32
  | _ => v != dfld x 12 0 32

/-- A WAIT whose condition holds completes (R248). What DEC leaves of a value below VALUE is a free value (log entry 49). -/
def Dev.waitFire (d : Dev) (q : Nat) (i : Issued) : Dev × List KillReq :=
  let s := dSem i.d
  let v := d.rd (F.SEM_VAL_VALUE s)
  let (v', d) : Nat × Dev :=
    if dfld i.d 10 2 1 != 1 then (v, d)
    else if dfld i.d 12 0 32 ≤ v then (v - dfld i.d 12 0 32, d)
    else (d.fresh.1 % 2 ^ 32, d.fresh.2)
  (d.wr (F.SEM_VAL_VALUE s) v').finish q i 0 v' 0

/-- Runs an operation over waiters in order and collects the kills. -/
def Dev.eachWaiter (d : Dev) (f : Dev → Nat → Issued → Dev × List KillReq) : List (Nat × Issued) → Dev × List KillReq
  | [] => (d, [])
  | w :: ws =>
    let r := f d w.1 w.2
    let r' := r.1.eachWaiter f ws
    (r'.1, r.2 ++ r'.2)

/-- Evaluates the WAITs on semaphore `s` at its present value (R248): the one that began to wait first and whose condition holds
completes, and since its DEC is a change too, all are evaluated again. -/
def Dev.semEval : Nat → Dev → Nat → Dev × List KillReq
  | 0, d, _ => (d, [])
  | n + 1, d, s =>
    match (d.waiters s).find? fun w => condHolds w.2.d (d.rd (F.SEM_VAL_VALUE s)) && d.unpre w.1 with
    | none => (d, [])
    | some w =>
      let r := d.waitFire w.1 w.2
      let r' := r.1.semEval n s
      (r'.1, r.2 ++ r'.2)

/-- Evaluates every WAIT on semaphore `s` until none is satisfied. -/
def Dev.semChange (d : Dev) (s : Nat) : Dev × List KillReq := d.semEval (d.waiters s).length s

/-- Semaphore `s` takes value `v` and its waiters are evaluated in order (R248). -/
def Dev.semSet (d : Dev) (s v : Nat) : Dev × List KillReq := (d.wr (F.SEM_VAL_VALUE s) v).semChange s

/-- Adds `v` to semaphore `s`, saturating (R247). -/
def Dev.semAdd (d : Dev) (s v : Nat) : Dev × List KillReq := d.semSet s (min (d.rd (F.SEM_VAL_VALUE s) + v) (2 ^ 32 - 1))

/-- Semaphore `s` is disabled: every WAIT on it completes with ABANDONED (R217, R249). -/
def Dev.semOff (d : Dev) (s : Nat) : Dev × List KillReq :=
  (d.wr (F.SEM_CFG_EN s) 0).eachWaiter (fun d q i => d.finish q i 1 (d.rd (F.SEM_VAL_VALUE s)) 0) (d.waiters s)

/-- Disables several semaphores. -/
def Dev.semsOff (d : Dev) : List Nat → Dev × List KillReq
  | [] => (d, [])
  | s :: ss =>
    let r := d.semOff s
    let r' := r.1.semsOff ss
    (r'.1, r.2 ++ r'.2)

/-! ### Kill (R215) -/

/-- The queues of `qs` are KILLED: nothing of theirs stays issued, fetched or saved (R215). -/
def Dev.killQueues (d : Dev) : List Nat → Dev
  | [] => d
  | q :: qs =>
    (({ d with saved := fdel d.saved q, tb := { d.tb with waits := fdel d.tb.waits q } }.setQueue q {}).wrs
      [(F.Q_STATUS_STATE q, 3), (F.Q_STATUS_BLOCK q, 0), (F.Q_LEASE_L q, 0)]).killQueues qs

/-- The tiles leased to context `c` stop; they stay leased to no queue until they have been cleared (R40). -/
def Dev.killTiles (d : Dev) (c : Nat) : Dev :=
  (List.range 16).foldl (fun d n =>
    if d.leasedTo n c then
      let t := d.tile n
      (d.wr (F.CMD_TILE_LEASED n) 0).setTile n { t with
        running := false, wait := .none, mma := none, passes := [], conv := none, vq := [], stores := [],
        resv := none, clearing := true }
    else d) d

/-- What context `c` holds in the timebase is released (R216, R401): a pulse already begun completes. -/
def Tb.release (t : Tb) (c : Nat) : Tb :=
  { t with alarms := t.alarms.filter fun a => a.2.ctx != c, verdicts := t.verdicts.filter fun v => v.ctx != c,
           gates := List.map (fun g : Nat × List GEntry => (g.1, g.2.filter fun e => e.active || e.ctx != c)) t.gates }

/-- Apertures and inbound windows that name context `c` are disabled (R159, R207). -/
def Dev.killWindows (d : Dev) (c : Nat) : Dev :=
  let d := (List.range 8).foldl (fun d k =>
    if d.is (F.PCI_AP_CTL_EN k) && d.rd (F.PCI_AP_CTL_CTX k) == c then d.wr (F.PCI_AP_CTL_EN k) 0 else d) d
  (List.range 64).foldl (fun d w =>
    if d.is (F.MMU_WIN_CTL_EN w) && d.rd (F.MMU_WIN_CTL_CTX w) == c then d.wr (F.MMU_WIN_CTL_EN w) 0 else d) d

/-- The media clients of queues that are no more leave the media engine. -/
def Dev.killMedia (d : Dev) (qs : List Nat) : Dev :=
  { d with med := { d.med with clients := d.med.clients.filter fun j =>
      match j with | .recipe q _ _ => !qs.contains q | .partition q _ _ => !qs.contains q | _ => true } }

/-- What the requests of a killed context still held go with it (R39, R215): its writes that wait for credits, its clasp requests that
wait for a tag and its reads and translation requests that have not been sent; those sent stay out until they are answered or time out. -/
def Dev.killRequests (d : Dev) (c : Nat) (qs : List Nat) : Dev :=
  { d with pci := { d.pci with stalled := d.pci.stalled.filter fun p => p.ctx != some c,
                               readWait := d.pci.readWait.filter fun r => !qs.contains r.q },
           cls := { d.cls with waiting := d.cls.waiting.filter fun w => w.1.ctx != c },
           atsWait := d.atsWait.filter fun r => !qs.contains r.q,
           preQ := d.preQ.filter fun q => !qs.contains q }

/-- The event source of a kill (R229): causes of chapter 08 come from the translation unit, ECC_UE from memory, CPL_FAIL from the host
interface; others name their source. ADDR is the virtual address of the access, or for ECC_UE the physical one (log entry 50). -/
def KillReq.source (k : KillReq) : Nat :=
  if k.cause ≤ 8 || k.cause == 0x0A || k.cause == 0x0B then 1 else if k.cause = 0x10 then 34 else if k.cause = 0x11 then 35
  else if k.cause = 0x17 then 0 else k.src

/-- Steps 1 to 3 of the kill of an ACTIVE context (R215); steps 4 and 5 are the command KILL_REVOCATION_DONE. -/
def Dev.kill1 (d : Dev) (k : KillReq) : Dev × List KillReq :=
  if !d.active k.c then (d, [])
  else
    let x := d.ctx k.c
    let qs := d.queuesOf k.c
    let d := d.setCtx k.c { x with
      state := 2, cause := k.cause, pins := [], revoking := true, killData := (k.source, k.addr, k.data) }
    let d := (d.killTiles k.c).killQueues qs
    let d := { d with tb := d.tb.release k.c,
                      prgs := List.map (fun p : Nat × Prg => (p.1, if p.2.ctx = k.c then { p.2 with live := false } else p.2)) d.prgs }
    let d := ((d.killWindows k.c).killMedia qs).killRequests k.c qs
    let d := (List.filter (fun b : Nat × Barrier => b.2.owner == some k.c && b.2.wait.isSome) d.cls.bars).foldl
      (fun d b => d.barAbandon b.1) d
    d.semsOff (d.enabledSems.filter fun s => d.rd (F.SEM_CFG_CTX s) == k.c)

/-! ### Fences (R250) -/

/-- Whether nothing that fence `i` of queue `q` waits for is left (R250). -/
def Dev.fenceClear (d : Dev) (q : Nat) (i : Issued) : Bool :=
  (d.queue q).issued.all (fun j => decide (i.seq ≤ j.seq)) &&
    (dfld i.d 8 0 2 != 1 || d.queues.all fun e =>
      d.qctx e.1 != d.qctx q || e.2.issued.all fun j => decide (i.seq ≤ j.seq))

/-- A fence whose scope is satisfied and that neither flushes nor is pre-empted. -/
def Dev.fenceReady (d : Dev) : Option (Nat × Issued) :=
  (d.collect fun q i => dOp i.d == 3 && !i.flushing && d.unpre q && d.fenceClear q i).head?

/-- A fence's scope is satisfied: it completes, or first flushes host writes by a zero-length read (R250). -/
def Dev.fenceDone (d : Dev) (q : Nat) (i : Issued) : Dev × List KillReq :=
  match (d.ctx (d.qctx q)).lastHost with
  | some a =>
    if dfld i.d 8 2 1 = 1 then ((d.setIssued q { i with flushing := true }).send (.hostRead a 0), []) else d.finish q i 0 0 0
  | none => d.finish q i 0 0 0

/-- Carries out the kills that are due and completes the fences that are satisfied, until neither is left. -/
def Dev.settle : Nat → Dev → List KillReq → Dev
  | 0, d, _ => d
  | n + 1, d, k :: ks => let r := d.kill1 k; r.1.settle n (ks ++ r.2)
  | n + 1, d, [] =>
    match d.fenceReady with
    | none => d
    | some (q, i) => let r := d.fenceDone q i; r.1.settle n r.2

end Sys2Proof.Machine
end

