-- ==== Sys2Proof/Machine/Flags.lean ====
section
/-! DEFINITION. The sticky flags and first-position records of the array, the drain, the converter and the vector unit of a tile
(R308, R309, R356). -/

namespace Sys2Proof.Machine

/-- The lowest bit set in a mask of causes. -/
def lowestBit : Nat → Nat → Nat
  | 0, _ => 0
  | n + 1, m => if m % 2 = 1 then 0 else 1 + lowestBit n (m / 2)

/-- The first raise of a masked-in cause among raises in order: its place and its lowest such cause. -/
def firstRaise (mask : Nat) : List (Nat × Nat) → Option (Nat × Nat)
  | [] => none
  | (e, c) :: l => if c &&& mask != 0 then some (e, lowestBit 16 (c &&& mask)) else firstRaise mask l

/-- Raises causes in tile `n`, in order: entry numbers with masks of causes. The flags are set, and the first masked-in raise
captures the record while none is held (R308, R309). -/
def Dev.raiseFlags (d : Dev) (n seq : Nat) (raises : List (Nat × Nat)) : Dev :=
  let d := d.orf (F.MT_FLAGS_CAUSES n) (raises.foldl (fun m r => m ||| r.2) 0)
  if d.is (F.MT_FIRST_POS_VALID n) then d
  else
    match firstRaise (d.rd (F.MT_FLAG_MASK_MASK n)) raises with
    | none => d
    | some (e, c) =>
      d.wrs [(F.MT_FIRST_SEQ_SEQ n, seq), (F.MT_FIRST_POS_ROW n, 64 * d.rd (F.MT_GANG_TR n) + e / 64),
        (F.MT_FIRST_POS_COL n, 64 * d.rd (F.MT_GANG_TC n) + e % 64), (F.MT_FIRST_POS_CAUSE n, c), (F.MT_FIRST_POS_VALID n, 1)]

/-- Raises vector causes of operation number `opn` in tile `n`: lanes with masks of causes, lowest lane first (R356). -/
def Dev.raiseVu (d : Dev) (n opn : Nat) (raises : List (Nat × Nat)) : Dev :=
  let d := d.orf (F.VU_FLAGS_CAUSES n) (raises.foldl (fun m r => m ||| r.2) 0)
  if d.is (F.VU_FIRST_VALID n) then d
  else
    match firstRaise (d.rd (F.VU_FLAG_MASK_MASK n)) raises with
    | none => d
    | some (l, c) => d.wrs [(F.VU_FIRST_OPSEQ n, opn % 65536), (F.VU_FIRST_LANE n, l), (F.VU_FIRST_CAUSE n, c), (F.VU_FIRST_VALID n, 1)]

end Sys2Proof.Machine
end

