-- ==== Sys2Proof/Machine/Streams.lean ====
section
/-! DEFINITION. The address streams of a descriptor (R190, R254, R255), the probe that PREFETCH and ADVISE make (R203, R204), and the
movers' places (R211–R213), with the end of every operation that may kill or free one. -/

namespace Sys2Proof.Machine

/-! ### Fields of the mover opcodes (R254) -/

/-- SRC of a DMA, VA of a PREFETCH or ADVISE. -/
def dSrc (x : Desc) : Nat := dfld x 8 0 64
/-- DST of a DMA. -/
def dDst (x : Desc) : Nat := dfld x 16 0 64
/-- Elements per row. -/
def dX (x : Desc) : Nat := dfld x 24 0 32 + 1
/-- Rows. -/
def dY (x : Desc) : Nat := dfld x 28 0 16 + 1
/-- Planes. -/
def dZ (x : Desc) : Nat := dfld x 30 0 16 + 1
/-- Row stride of the source, or of the destination. -/
def dYS (x : Desc) (dst : Bool) : Int := signed 32 (dfld x (if dst then 40 else 32) 0 32)
/-- Plane stride of the source, or of the destination. -/
def dZS (x : Desc) (dst : Bool) : Int := signed 32 (dfld x (if dst then 44 else 36) 0 32)
/-- Format code of the source, or of the destination. -/
def dFmt (x : Desc) (dst : Bool) : Nat := dfld x 52 (if dst then 4 else 0) 4

/-- Bits of an element of a format code. -/
def fmtBits (f : Nat) : Nat :=
  match f with
  | 1 | 2 | 4 => 16
  | 3 => 32
  | 7 => 4
  | _ => 8

/-- Bytes of a row. -/
def rowBytes (x : Desc) (dst : Bool) : Nat := (dX x * fmtBits (dFmt x dst) + 7) / 8

/-- The lowest address a side of a DMA touches. -/
def dmaLo (x : Desc) (dst : Bool) : Int :=
  ((if dst then dDst x else dSrc x : Nat) : Int) + min 0 ((dY x - 1 : Nat) * dYS x dst) + min 0 ((dZ x - 1 : Nat) * dZS x dst)

/-- The highest address a side of a DMA touches. -/
def dmaHi (x : Desc) (dst : Bool) : Int :=
  ((if dst then dDst x else dSrc x : Nat) : Int) + max 0 ((dY x - 1 : Nat) * dYS x dst) +
    max 0 ((dZ x - 1 : Nat) * dZS x dst) + rowBytes x dst - 1

/-- The address streams of a descriptor: whether it writes, and its lowest and highest address. -/
def dStreams (x : Desc) : List (Bool × Int × Int) :=
  match dOp x with
  | 0x01 => [(false, dmaLo x false, dmaHi x false), (true, dmaLo x true, dmaHi x true)]
  | 0x20 => [(dfld x 24 0 1 == 1, dfld x 8 0 64, dfld x 8 0 64 + dfld x 16 0 64 - 1)]
  | 0x40 => [(true, dfld x 24 0 64, dfld x 24 0 64 + dfld x 32 0 32 - 1)]
  | _ => []

/-- The address of element `e` of a side of a DMA (R254): elements in rows, rows in planes. -/
def elemVa (x : Desc) (dst : Bool) (e : Nat) : Nat :=
  let k := e / dX x
  (((if dst then dDst x else dSrc x : Nat) : Int) + (k % dY x : Nat) * dYS x dst + (k / dY x : Nat) * dZS x dst +
    (e % dX x * fmtBits (dFmt x dst) / 8 : Nat)).toNat

/-- The address at which a stream of an issued descriptor stands. -/
def Issued.pos (i : Issued) (dst : Bool) : Nat :=
  if dOp i.d = 0x01 then elemVa i.d dst (if dst then i.progress else i.asked) else if dOp i.d = 0x40 then dfld i.d 24 0 64 + i.progress else i.progress

/-- Whether address `va` lies in a stream of descriptor `x` that writes, or one that does not. -/
def inStream (x : Desc) (va : Nat) (write : Bool) : Bool :=
  (dStreams x).any fun t => t.1 == write && decide (t.2.1 / 4096 ≤ (va / 4096 : Nat)) && decide ((va / 4096 : Nat) ≤ t.2.2 / 4096)

/-- Whether a descriptor has a host-half stream (R184). -/
def hostHalf (x : Desc) : Bool := (dStreams x).any fun t => decide ((2 ^ 47 : Int) ≤ t.2.2)

/-! ### Advice (R204) -/

/-- The part of an advice range outside `lo` to `hi - 1`. -/
def Advice.minus (a : Advice) (lo hi : Nat) : List Advice :=
  if hi ≤ a.lo || a.hi ≤ lo then [a]
  else (if a.lo < lo then [{ a with hi := lo }] else []) ++ (if hi < a.hi then [{ a with lo := hi }] else [])

/-- The advice range to remove first: the oldest, of equal age the lower-addressed. -/
def oldest : List Advice → Option Advice
  | [] => none
  | a :: l => match oldest l with
    | none => some a
    | some b => if b.age < a.age || (b.age == a.age && b.lo < a.lo) then some b else some a

/-- At most 8 ranges are kept. -/
def trimAdvice : Nat → List Advice → List Advice
  | 0, l => l
  | n + 1, l => if l.length ≤ 8 then l else
      match oldest l with
      | some a => trimAdvice n (l.erase a)
      | none => l

/-- Records advice `kind` over `lo` to `hi - 1`; NORMAL only removes (R204). -/
def advise (l : List Advice) (lo hi kind : Nat) : List Advice :=
  let age := (l.map (·.age)).foldl max 0 + 1
  let l := l.flatMap fun a => a.minus lo hi
  trimAdvice 16 (if kind = 0 then l else l ++ [{ lo := lo, hi := hi, kind := kind, age := age }])

/-- The first byte of a descriptor's stream (R204). -/
def streamStart (x : Desc) (dst : Bool) : Nat :=
  if dOp x = 0x01 then (if dst then dDst x else dSrc x) else if dOp x = 0x40 then dfld x 24 0 64 else dfld x 8 0 64

/-- The walk-ahead depth of a stream whose first byte is at `va` (R190, R204). -/
def Dev.depth (d : Dev) (c va : Nat) : Nat :=
  match (d.ctx c).advice.find? fun a => decide (a.lo ≤ va) && decide (va < a.hi) with
  | some a => if a.kind = 1 then 2 else if a.kind = 2 then 0 else 1
  | none => 1

/-! ### Probes (R203) -/

/-- How the probe of device-half pages ends: all mapped, an offending address with its status, or an uncorrectable error. -/
inductive Probe where
  | clean
  | bad (va st : Nat)
  | ue (va pa : Nat)
deriving DecidableEq, Repr

/-- The status of one device-half page: 0 where the access is permitted; and the bytes the answer covers. -/
def Dev.probePage (d : Dev) (c va : Nat) (w : Bool) : WalkR × Nat × Nat :=
  match d.walk c va with
  | .ue a => (.ue a, 0, 0)
  | .err k => (.err k, (if k = 2 then 5 else 7), 4096)
  | .leaf l =>
    let left := l.size - va % l.size
    if !l.r || (w && !l.w) then (.leaf l, 6, left)
    else
      match d.land c (l.base + va % l.size) l.key left with
      | .kill k => (.leaf l, (if k = 0xB then 6 else 7), left)
      | .mem _ _ n => (.leaf l, 0, n)
      | .clasp _ _ n => (.leaf l, 0, n)
      | .mmio _ n => (.leaf l, 0, n)
      | _ => (.leaf l, 0, left)

/-- Probes the device-half pages from `va` up to `stop`. -/
def Dev.probe (d : Dev) (c : Nat) (w : Bool) : Nat → Nat → Nat → Probe
  | 0, _, _ => .clean
  | n + 1, va, stop =>
    if stop ≤ va then .clean
    else
      match d.probePage c va w with
      | (.ue a, _, _) => .ue va a
      | (_, 0, k) => d.probe c w n (va + max k 1) stop
      | (_, st, _) => .bad va st

/-- The walks over the pages from `va` up to `stop` correct what they read (R179). -/
def Dev.probeCorrect (d : Dev) (c : Nat) : Nat → Nat → Nat → Dev
  | 0, _, _ => d
  | n + 1, va, stop =>
    if stop ≤ va || d.ecc.isEmpty then d else (d.walkCorrect c va).probeCorrect c n (va + max (d.probePage c va false).2.2 1) stop

/-- Probes at most `n` pages from `va` for reads and counts the mapping errors; host-half pages are asked for by ATS (WILL_NEED,
R204). -/
def Dev.probeCount (d : Dev) (q c : Nat) : Nat → Nat → Nat → Dev × List KillReq
  | 0, _, _ => (d, [])
  | n + 1, va, stop =>
    if stop ≤ va then (d, [])
    else if 2 ^ 47 ≤ va then
      (if d.atsOn && (d.ctx c).pasid.isSome then d.atsAsk q (.advise va 0) va false else d).probeCount q c n (va + 4096) stop
    else
      match d.probePage c va false with
      | (.ue a, _, _) => (d.logUe a 1 c, [{ c := c, cause := 0x10, addr := a }])
      | (_, 0, _) => d.probeCount q c n (va + 4096) stop
      | _ => (d.sat F.MMU_STATUS_ADVISE_ERR).probeCount q c n (va + 4096) stop

/-! ### Reads of host memory (R140, R173) -/

/-- Sends a read to host memory (R140, R173), or has it wait while 1,024 are outstanding. -/
def Dev.hostReadSend (d : Dev) (r : HRead) : Dev :=
  if d.pci.reads.length < 1024 then { d with pci := { d.pci with reads := d.pci.reads ++ [r] } }.send (.hostRead r.src r.len)
  else { d with pci := { d.pci with readWait := d.pci.readWait ++ [r] } }

/-- A read is answered or has timed out: its place goes to the one that has waited longest. -/
def Dev.readDone (d : Dev) (r : HRead) : Dev :=
  let d := { d with pci := { d.pci with reads := d.pci.reads.erase r } }
  match d.pci.readWait with
  | [] => d
  | x :: xs => { d with pci := { d.pci with readWait := xs } }.hostReadSend x

/-- The issued descriptor of queue `q` with sequence number `n`. -/
def Dev.bySeq (d : Dev) (q n : Nat) : Option Issued := (d.queue q).issued.find? fun i => i.seq == n

/-- Changes the issued descriptor of queue `q` with sequence number `n`. -/
def Dev.onIssued (d : Dev) (q n : Nat) (f : Issued → Issued) : Dev :=
  match d.bySeq q n with
  | some i => d.setIssued q (f i)
  | none => d

/-! ### Mover places (R211–R213) -/

/-- Whether a descriptor is carried out by a mover (R211, R212). -/
def isMover (x : Desc) : Bool := dOp x == 1 || dOp x == 0x20 || dOp x == 0x40

/-- The mover places that are taken (R211). -/
def Dev.places (d : Dev) : Nat :=
  (d.collect fun _ i => isMover i.d && (i.st == .running || i.st == .paused)).length

/-- The event source of the mover that a descriptor runs on (R229, log entry 24). -/
def moverSrc (i : Issued) : Nat := 2 + i.seq % 16

/-- A PREFETCH that runs: its device-half pages are probed at once, its host-half pages by ATS while the host enables ATS and
PRI (R195, R203). `progress` is the address it has reached. Answers the kills that follow. -/
def Dev.prefetchRun (d : Dev) (q : Nat) (i : Issued) : Dev × List KillReq :=
  let c := d.qctx q
  let va := dfld i.d 8 0 64
  let stop := va + dfld i.d 16 0 64
  let w := dfld i.d 24 0 1 == 1
  let at0 := max va i.progress
  let n := stop / 4096 - at0 / 4096 + 2
  match d.probe c w n at0 (min stop (2 ^ 47)) with
  | .ue _ a => (d.logUe a 1 c, [{ c := c, cause := 0x10, addr := a }])
  | .bad v st => d.finish q i st v 0
  | .clean =>
    let d := d.probeCorrect c n at0 (min stop (2 ^ 47))
    let at0 := max at0 (2 ^ 47)
    if stop ≤ at0 then d.finish q i 0 0 0
    else if (d.ctx c).pasid.isNone then (d, [{ c := c, cause := 5, src := moverSrc i, addr := at0 }])
    else if d.atsOn then ((d.setIssued q { i with progress := at0 }).atsAsk q (.desc i.seq) at0 w, [])
    else d.finish q i 0 0 0

/-- The descriptors that wait for a mover place: resuming ones before QUEUED ones (R213). -/
def Dev.placeWait (d : Dev) : List (Nat × Issued) :=
  (d.collect fun q i => i.st == .suspended && i.pri == some .success && d.unpre q) ++
    d.collect fun q i => i.st == .queued && isMover i.d && d.unpre q

/-- A descriptor that waits for a mover place takes one: a resuming one asks for the translation of its page again (R193, R213), with
its suspension time a free value (log entry 7); a PREFETCH probes. -/
def Dev.startMover (d : Dev) (q : Nat) (i : Issued) : Dev × List KillReq :=
  let j := { i with st := .running, pri := none }
  let d := d.setIssued q j
  if i.st = .suspended then
    let (x, d) := d.fresh
    let d := d.post { cls := 2, src := moverSrc i, code := 5, ctx := some (d.qctx q), q := some q, addr := i.faultVa, data := x }
    if d.atsOn then (d.atsAsk q (.desc i.seq) i.faultVa i.faultW, []) else if dOp i.d = 0x20 then d.prefetchRun q j else (d, [])
  else if dOp i.d = 0x20 then d.prefetchRun q j
  else (d, [])

/-- Carries out what is due, then gives free mover places to the descriptors that wait for one. -/
def Dev.run : Nat → Dev → List KillReq → Dev
  | 0, d, ks => d.settle 5000 ks
  | n + 1, d, ks =>
    let d := d.settle 5000 ks
    if 16 ≤ d.places then d
    else
      match d.placeWait with
      | [] => d
      | w :: _ =>
        let r := d.startMover w.1 w.2
        r.1.run n r.2

/-- The settled state after an operation with its kills. -/
def Dev.done (r : Dev × List KillReq) : Dev := r.1.run 600 r.2

/-- Kills context `c` (R215). -/
def Dev.kill (d : Dev) (k : KillReq) : Dev := Dev.done (d, [k])

/-- A descriptor completes, with everything that follows. -/
def Dev.complete (d : Dev) (q : Nat) (i : Issued) (st : Nat) (d0 : Nat := 0) (d1 : Nat := 0) : Dev :=
  Dev.done (d.finish q i st d0 d1)

end Sys2Proof.Machine
end

