-- ==== Sys2Proof/Machine/DescCheck.lean ====
section
/-! DEFINITION. What the device checks of a descriptor at its issue (R15, R37, R253–R255, R259): the REQUEST status that its
fields and the things it names give, taken in the order of log entry 27; with the shapes and places of gangs (R262–R266). -/

namespace Sys2Proof.Machine

/-! ### Format checks (R253, R254, R259) -/

/-- The bits that opcode `op` defines: pairs of byte and bit, and length (R253, R254). -/
def bodyFields : Nat → List (Nat × Nat)
  | 0x01 => [(64, 64), (128, 64), (192, 32), (224, 16), (240, 16), (256, 128), (384, 32), (416, 8)]
  | 0x02 => [(64, 7), (80, 16), (96, 32), (128, 128)]
  | 0x03 => [(64, 3)]
  | 0x04 => [(64, 12), (80, 2), (96, 32)]
  | 0x05 => [(64, 12), (80, 3), (96, 32), (128, 32)]
  | 0x10 => [(64, 64)]
  | 0x11 => [(64, 64), (128, 6), (144, 12), (160, 32)]
  | 0x12 => [(64, 64), (128, 10), (144, 12), (160, 1)]
  | 0x13 => [(64, 64), (128, 64), (192, 3)]
  | 0x20 => [(64, 64), (128, 64), (192, 1)]
  | 0x21 => [(64, 64), (128, 64), (192, 4)]
  | 0x22 => [(64, 12), (128, 64), (192, 16)]
  | 0x30 => [(64, 32), (96, 1)]
  | 0x40 => [(64, 4), (96, 32), (128, 64), (192, 64), (256, 32)]
  | 0x50 => [(64, 8), (80, 16), (96, 32)]
  | 0x51 => [(64, 3), (128, 64)]
  | _ => []

/-- The mask of the bits a descriptor's opcode defines, header included; TAG only for the opcodes that carry one (R253). -/
def definedBits (op : Nat) : Nat :=
  let tag := if op == 1 || op == 2 || op == 0x20 || op == 0x40 || op == 0x30 then 0xFF0000 else 0
  (bodyFields op).foldl (fun m f => m ||| ((2 ^ f.2 - 1) * 2 ^ f.1)) (0x7FF + tag + 0xFFFFFFFF * 2 ^ 32)

/-- Whether an opcode is one of the table (R241). -/
def opKnown (op : Nat) : Bool :=
  op ≤ 5 || (0x10 ≤ op && op ≤ 0x13) || (0x20 ≤ op && op ≤ 0x22) || op == 0x30 || op == 0x40 || op == 0x50 || op == 0x51

/-- Whether bits outside the fields of its opcode are all zero (R253). -/
def zerosOk (x : Desc) : Bool := x.toNat &&& definedBits (dOp x) == x.toNat

/-- Whether a 64-bit virtual address field has bits 63:48 zero (R254). -/
def vaOk (x : Desc) (o : Nat) : Bool := dfld x o 48 16 == 0

/-! ### Gangs (R262–R266) -/

/-- Tile rows and columns of a shape code. -/
def shapeDims (s : Nat) : Nat × Nat :=
  match s with
  | 0 => (1, 1) | 1 => (1, 2) | 2 => (2, 1) | 3 => (2, 2) | 4 => (1, 4) | 5 => (4, 1) | 6 => (2, 4) | 7 => (4, 2) | _ => (4, 4)

/-- The tile mask of a shape at an origin, where it lies on the grid. -/
def rect (s origin : Nat) : Option Nat :=
  let (r, c) := shapeDims s
  if 8 < s || 4 < origin / 4 + r || 4 < origin % 4 + c then none
  else some (listMask ((List.range r).flatMap fun i => (List.range c).map fun j => origin + 4 * i + j))

/-- The lowest-numbered tile of a mask. -/
def originOf (m : Nat) : Nat := lowestBit 16 m

/-- Whether a mask is a placement of a shape (R264). -/
def placed (s m : Nat) : Bool := m != 0 && rect s (originOf m) == some m

/-- The shape code of a rectangle of tiles. -/
def shapeOf (m : Nat) : Nat := ((List.range 9).find? fun s => placed s m).getD 0

/-- The grid offset of tile `n` from the origin of mask `m`: rows and columns. -/
def gridOff (m n : Nat) : Nat × Nat := (n / 4 - originOf m / 4, n % 4 - originOf m % 4)

/-- The cycles of an isolated pass of depth `k` on the gang shape `s` without stalls (R270). -/
def isolatedCycles (s k : Nat) : Nat :=
  let (r, c) := shapeDims s
  k + (64 * r - 1) + (64 * c - 1) + 3 * ((r - 1) + (c - 1)) + 4

/-! ### Fields of a DISPATCH (R254) -/

/-- SHAPE. -/
def dShape (x : Desc) : Nat := dfld x 8 0 4
/-- MODE: 0 RUN, 1 ACQUIRE, 2 RELEASE. -/
def dMode (x : Desc) : Nat := dfld x 8 4 2
/-- KEEP. -/
def dKeep (x : Desc) : Bool := dfld x 8 6 1 == 1
/-- TILES. -/
def dTiles (x : Desc) : Nat := dfld x 10 0 16
/-- ENTRY. -/
def dEntry (x : Desc) : Nat := dfld x 12 0 32

/-- The REQUEST status of a DISPATCH that its fields alone give, 0 where there is none (R246, R254). -/
def dispatchStatus (x : Desc) : Nat :=
  if !zerosOk x || dMode x = 3 || (dMode x = 0 && 8 < dShape x) then 0x81
  else if dMode x != 0 then 0
  else if dEntry x % 8 != 0 then 0x84
  else if tileSize ≤ dEntry x then 0x85
  else if !placed (dShape x) (dTiles x) then 0x86
  else 0

/-! ### The DMA conditions (R255) -/

/-- Whether a pair of formats is BYTE to BYTE, an ingest or an egress. -/
def fmtPair (s t : Nat) : Bool :=
  (s == 0 && t == 0) || (decide (1 ≤ s ∧ s ≤ 3) && decide (4 ≤ t ∧ t ≤ 7)) || (decide (4 ≤ s ∧ s ≤ 7) && decide (1 ≤ t ∧ t ≤ 3))

/-- The element size that a side's base and strides must be multiples of. -/
def fmtAlign (f : Nat) : Nat := max 1 (fmtBits f / 8)

/-- Whether a side of a DMA is aligned. -/
def dmaAligned (x : Desc) (dst : Bool) : Bool :=
  let z := fmtAlign (dFmt x dst)
  (if dst then dDst x else dSrc x) % z == 0 && dYS x dst % z == 0 && dZS x dst % z == 0

/-- Whether the span of a side is at most 2^32 bytes and lies in the 48-bit space. -/
def dmaSpanOk (x : Desc) (dst : Bool) : Bool :=
  decide (dmaHi x dst - dmaLo x dst + 1 ≤ 2 ^ 32) && decide (0 ≤ dmaLo x dst) && decide (dmaHi x dst < 2 ^ 48)

/-- Whether a side in INT4 has an odd number of elements per row. -/
def int4Odd (x : Desc) (dst : Bool) : Bool := dFmt x dst == 7 && dX x % 2 == 1

/-- The status of a DMA. -/
def dmaStatus (x : Desc) : Nat :=
  if !zerosOk x || !vaOk x 8 || !vaOk x 16 || 8 ≤ dFmt x false || 8 ≤ dFmt x true then 0x81
  else if !fmtPair (dFmt x false) (dFmt x true) || int4Odd x false || int4Odd x true then 0x83
  else if !dmaAligned x false || !dmaAligned x true then 0x84
  else if !dmaSpanOk x false || !dmaSpanOk x true then 0x85
  else 0

/-! ### The other opcodes (R254, R259) -/

/-- Whether a semaphore is one of context 0 that context `c` may not name (R259). -/
def Dev.semForeign (d : Dev) (c s : Nat) : Bool := c != 0 && d.semOwner s == some 0 && !d.is (F.SEM_CFG_SHARE s)

/-- The status of a SIGNAL or WAIT: its code field, then the semaphore (R247, R259). -/
def Dev.semStatus (d : Dev) (c : Nat) (x : Desc) (codeOk : Bool) : Nat :=
  if !zerosOk x || !codeOk then 0x81
  else if d.semForeign c (dSem x) then 0x82
  else if !d.semPerm c (dSem x) then 0x88
  else 0

/-- The end of the range of a PREFETCH or ADVISE. -/
def rangeEnd (x : Desc) : Nat := dfld x 8 0 64 + dfld x 16 0 64

/-- The status of a PREFETCH. -/
def prefetchStatus (x : Desc) : Nat :=
  if !zerosOk x || !vaOk x 8 then 0x81
  else if dfld x 16 0 64 = 0 || 2 ^ 40 < dfld x 16 0 64 || 2 ^ 48 < rangeEnd x then 0x85
  else 0

/-- The status of an ADVISE (R204). -/
def adviseStatus (x : Desc) : Nat :=
  if !zerosOk x || !vaOk x 8 || 4 ≤ dfld x 24 0 4 then 0x81
  else if dfld x 8 0 64 % 4096 != 0 || dfld x 16 0 64 % 4096 != 0 then 0x84
  else if dfld x 16 0 64 = 0 || 2 ^ 48 < rangeEnd x then 0x85
  else 0

/-- The target context of a TABLE_UPDATE. -/
def dCtx (x : Desc) : Nat := dfld x 8 0 12

/-- The status of a TABLE_UPDATE that is given before LIST is read (R201, R254, R259). -/
def Dev.tableStatus (d : Dev) (q : Nat) (x : Desc) : Nat :=
  if !zerosOk x then 0x81
  else if dCtx x = 0 && d.qctx q != 0 then 0x82
  else if dfld x 16 0 64 % 16 != 0 then 0x84
  else if dfld x 24 0 16 = 0 || 1024 < dfld x 24 0 16 then 0x85
  else if !d.is (F.Q_CFG_PRIV q) then 0x89
  else if !d.active (dCtx x) then 0x8C
  else if !d.inMem (dfld x 16 0 64) (16 * dfld x 24 0 16) then 0x8B
  else 0

/-- The status of a GATE_ARM by its fields: the upper half of OFF is zero where it is a width. -/
def gateStatus (x : Desc) : Nat :=
  if !zerosOk x || (dfld x 24 2 1 = 0 && dfld x 20 0 32 != 0) then 0x81 else 0

/-- The status of an AT_POSITION by its fields and the things it names (R251, R259). -/
def Dev.atStatus (d : Dev) (q : Nat) (x : Desc) : Nat :=
  let c := d.qctx q
  let held := fget d.tb.alarms (dfld x 16 0 6)
  if !zerosOk x then 0x81
  else if d.semForeign c (dfld x 18 0 12) || (c != 0 && held.any fun a => a.ctx == 0) then 0x82
  else if !d.semPerm c (dfld x 18 0 12) then 0x88
  else if held.isSome then 0x8A
  else 0

/-- The status of a POWER_HINT (R254, R371). -/
def hintStatus (x : Desc) : Nat :=
  if !zerosOk x then 0x81
  else if dfld x 12 0 1 = 0 && (dfld x 8 0 32 = 0 || 1000000 < dfld x 8 0 32) then 0x85
  else 0

/-- The status of a CARD_READ. -/
def cardStatus (x : Desc) : Nat :=
  if !zerosOk x || !vaOk x 24 || 2 ≤ dfld x 8 0 2 then 0x81
  else if dfld x 8 0 2 = 1 && dfld x 16 0 64 % 2048 != 0 then 0x84
  else 0

/-- The REQUEST status of the descriptor `x` at the head of queue `q` by its opcode, 0 where there is none (R259). A status that
depends on the state of another unit (a lease, a barrier entry, the pair) is given by that opcode's own command. -/
def Dev.headStatus (d : Dev) (q : Nat) (x : Desc) : Nat :=
  match dOp x with
  | 0x00 => if zerosOk x then 0 else 0x81
  | 0x01 => dmaStatus x
  | 0x02 => dispatchStatus x
  | 0x03 => if !zerosOk x || 2 ≤ dfld x 8 0 2 then 0x81 else 0
  | 0x04 => d.semStatus (d.qctx q) x (decide (dfld x 10 0 2 < 2))
  | 0x05 => d.semStatus (d.qctx q) x (decide (dfld x 10 0 2 < 3))
  | 0x10 => if zerosOk x then 0 else 0x81
  | 0x11 => d.atStatus q x
  | 0x12 => if zerosOk x then 0 else 0x81
  | 0x13 => gateStatus x
  | 0x20 => prefetchStatus x
  | 0x21 => adviseStatus x
  | 0x22 => d.tableStatus q x
  | 0x30 => hintStatus x
  | 0x40 => cardStatus x
  | 0x50 => if zerosOk x then 0 else 0x81
  | 0x51 => if zerosOk x then 0 else 0x81
  | _ => 0x80

end Sys2Proof.Machine
end

