-- ==== Sys2Proof/Machine/Operands.lean ====
section
/-! DEFINITION. The number formats and their exact values: decode, encode and the single rounding to each format (R174, R283,
R286, R287, R303, R304, R341, R345). -/

namespace Sys2Proof.Machine

/-! ### Exact values -/

/-- An exact rational `n / d`, not reduced, `d` positive. -/
structure Rt where
  n : Int
  d : Nat
deriving DecidableEq, Repr

/-- `m` times 2 to the power `e`. -/
def Rt.dy (m e : Int) : Rt := if 0 ≤ e then ⟨m * 2 ^ e.toNat, 1⟩ else ⟨m, 2 ^ (-e).toNat⟩
/-- The sum. -/
def Rt.add (a b : Rt) : Rt := if a.d = b.d then ⟨a.n + b.n, a.d⟩ else ⟨a.n * b.d + b.n * a.d, a.d * b.d⟩
/-- The product. -/
def Rt.mul (a b : Rt) : Rt := ⟨a.n * b.n, a.d * b.d⟩
/-- The negation. -/
def Rt.neg (a : Rt) : Rt := ⟨-a.n, a.d⟩
/-- Whether `a` is less than `b`. -/
def Rt.lt (a b : Rt) : Bool := decide (a.n * b.d < b.n * a.d)
/-- Whether `a` equals `b`. -/
def Rt.eq (a b : Rt) : Bool := a.n * b.d == b.n * a.d
/-- Whether the value is zero. -/
def Rt.isZero (a : Rt) : Bool := a.n == 0
/-- Whether the value is negative. -/
def Rt.isNeg (a : Rt) : Bool := decide (a.n < 0)

/-- The floor of the logarithm to base 2 of `n / d`, both positive. -/
def flog2 (n d : Nat) : Int :=
  let t : Int := (Nat.log2 n : Int) - Nat.log2 d
  let ok := if 0 ≤ t then decide (d * 2 ^ t.toNat ≤ n) else decide (d ≤ n * 2 ^ (-t).toNat)
  if ok then t else t - 1

/-- `n / d` rounded to the nearest integer, ties to even. -/
def nearest (n d : Nat) : Nat :=
  let q := n / d
  let r := n % d
  if d < 2 * r || (2 * r == d && q % 2 == 1) then q + 1 else q

/-- `r` rounded to the nearest integer, ties to even. -/
def Rt.toInt (r : Rt) : Int := if r.n < 0 then -(nearest r.n.natAbs r.d : Int) else nearest r.n.natAbs r.d

/-! ### Values of operands -/

/-- What an operand stands for: a signed zero, a non-zero real value, an infinity, or not a number. -/
inductive Num where
  | zero (neg : Bool)
  | fin (r : Rt)
  | inf (neg : Bool)
  | nan (signalling : Bool)
deriving DecidableEq, Repr

/-- Whether a value is a NaN. -/
def Num.isNan : Num → Bool
  | .nan _ => true
  | _ => false
/-- Whether a value is a signalling NaN. -/
def Num.isSnan : Num → Bool
  | .nan b => b
  | _ => false
/-- The sign of a value that is not a NaN. -/
def Num.neg : Num → Bool
  | .zero s => s
  | .fin r => r.isNeg
  | .inf s => s
  | .nan _ => false

/-! ### IEEE formats -/

/-- An IEEE format: its exponent and fraction bits. -/
structure IFmt where
  eb : Nat
  fb : Nat
deriving DecidableEq, Repr

/-- binary16. -/
def b16 : IFmt := ⟨5, 10⟩
/-- bfloat16. -/
def bf16 : IFmt := ⟨8, 7⟩
/-- binary32. -/
def b32 : IFmt := ⟨8, 23⟩

/-- The bias of the exponent. -/
def IFmt.bias (f : IFmt) : Nat := 2 ^ (f.eb - 1) - 1
/-- The pattern of infinity. -/
def IFmt.infBits (f : IFmt) (neg : Bool) : Nat := (if neg then 2 ^ (f.eb + f.fb) else 0) + (2 ^ f.eb - 1) * 2 ^ f.fb
/-- The pattern of zero. -/
def IFmt.zeroBits (f : IFmt) (neg : Bool) : Nat := if neg then 2 ^ (f.eb + f.fb) else 0
/-- The quiet NaN that the device delivers: 0x7E00, 0x7FC0 or 0x7FC0_0000. -/
def IFmt.nanBits (f : IFmt) : Nat := (2 ^ f.eb - 1) * 2 ^ f.fb + 2 ^ (f.fb - 1)

/-- The value of a pattern; a subnormal is flushed to zero with its sign (R174, R302, R341). -/
def IFmt.value (f : IFmt) (p : Nat) : Num :=
  let s := bits p (f.eb + f.fb) 1 == 1
  let e := bits p f.fb f.eb
  let m := bits p 0 f.fb
  if e = 2 ^ f.eb - 1 then (if m = 0 then .inf s else .nan (m < 2 ^ (f.fb - 1)))
  else if e = 0 then .zero s
  else
    let v : Int := (2 ^ f.fb + m : Nat)
    .fin (Rt.dy (if s then -v else v) ((e : Int) - f.bias - f.fb))

/-- The outcome of a rounding: the pattern, and whether it overflowed, underflowed, or differs from the exact value. -/
structure Rnd where
  p : Nat
  ovf : Bool := false
  unf : Bool := false
  inexact : Bool := false
deriving DecidableEq, Repr

/-- Rounds a non-zero value to nearest, ties to even, with an unbounded exponent; below the smallest normal it becomes zero with
its sign, beyond the largest it becomes infinite (R174, R304, R341). -/
def IFmt.round (f : IFmt) (r : Rt) : Rnd :=
  let a := r.n.natAbs
  let t := flog2 a r.d
  let q : Int := t - f.fb
  let (n, d) := if 0 ≤ q then (a, r.d * 2 ^ q.toNat) else (a * 2 ^ (-q).toNat, r.d)
  let m := nearest n d
  let inexact := m * d != n
  let (m, t) := if m = 2 ^ (f.fb + 1) then (2 ^ f.fb, t + 1) else (m, t)
  if t < 1 - (f.bias : Int) then { p := f.zeroBits r.isNeg, unf := true, inexact := true }
  else if (f.bias : Int) < t then { p := f.infBits r.isNeg, ovf := true, inexact := true }
  else { p := f.zeroBits r.isNeg + (t + f.bias).toNat * 2 ^ f.fb + (m - 2 ^ f.fb), inexact := inexact }

/-! ### Posits (R286, R287) -/

/-- The length of the leading run of bits equal to `b` among bits `k - 1` down to 0 of `x`. -/
def runLen (x : Nat) (b : Bool) : Nat → Nat
  | 0 => 0
  | k + 1 => if x.testBit k == b then 1 + runLen x b k else 0

/-- The value of an `n`-bit posit pattern, es = 2 (R286); NaR is a quiet NaN here. -/
def positValue (n p : Nat) : Num :=
  let p := p % 2 ^ n
  if p = 0 then .zero false
  else if p = 2 ^ (n - 1) then .nan false
  else
    let s := p.testBit (n - 1)
    let x := (if s then 2 ^ n - p else p) % 2 ^ (n - 1)
    let b := x.testBit (n - 2)
    let run := runLen x b (n - 1)
    let r : Int := if b then (run : Int) - 1 else -run
    let k := n - 1 - run - 1
    let rest := x % 2 ^ k
    let e := if 2 ≤ k then rest / 2 ^ (k - 2) else rest * 2 ^ (2 - k)
    let nf := k - 2
    let f := rest % 2 ^ nf
    let v : Int := (2 ^ nf + f : Nat)
    .fin (Rt.dy (if s then -v else v) (4 * r + e - nf))

/-- The `n`-bit posit pattern of an exact value (R287), with its saturations. -/
def positRound (n : Nat) (r : Rt) : Rnd :=
  if r.n = 0 then { p := 0 }
  else
    let a := r.n.natAbs
    let big := 4 * (n - 2)
    let fin : Nat → Nat := fun m => if r.n < 0 then 2 ^ n - m else m
    if r.d * 2 ^ big ≤ a then
      { p := fin (2 ^ (n - 1) - 1), ovf := r.d * 2 ^ big != a, inexact := r.d * 2 ^ big != a }
    else if a * 2 ^ big ≤ r.d then { p := fin 1, unf := a * 2 ^ big != r.d, inexact := a * 2 ^ big != r.d }
    else
      let t := flog2 a r.d
      let k := t / 4
      let e := (t % 4).toNat
      let (reg, len) := if 0 ≤ k then (2 ^ (k.toNat + 2) - 2, k.toNat + 2) else (1, (-k).toNat + 1)
      let pre := reg * 4 + e
      let y0 : Rt := if 0 ≤ t then ⟨((pre - 1) * (r.d * 2 ^ t.toNat) + a : Nat), r.d * 2 ^ t.toNat⟩
        else ⟨((pre - 1) * r.d + a * 2 ^ (-t).toNat : Nat), r.d⟩
      let (yn, yd) := if len + 2 ≤ n - 1 then (y0.n.natAbs * 2 ^ (n - 1 - (len + 2)), y0.d)
        else (y0.n.natAbs, y0.d * 2 ^ (len + 2 - (n - 1)))
      let m := min (nearest yn yd) (2 ^ (n - 1) - 1)
      let p := fin m
      let exact := match positValue n p with | .fin v => v.eq r | _ => false
      { p := p, inexact := !exact }

/-! ### Integers -/

/-- Rounds a value to an `n`-bit integer, ties to even, saturating (R174, R303, R345). -/
def intRound (n : Nat) (r : Rt) : Rnd :=
  let v := r.toInt
  let hi : Int := 2 ^ (n - 1) - 1
  let lo : Int := -2 ^ (n - 1)
  let w := max lo (min hi v)
  { p := twos n w, ovf := w != v, inexact := !(Rt.eq ⟨w, 1⟩ r) }

/-- The value of an `n`-bit two's-complement integer. -/
def intValue (n p : Nat) : Num :=
  let v := signed n p
  if v = 0 then .zero false else .fin ⟨v, 1⟩

/-! ### Products -/

/-- The product of two values under IEEE 754-2019 multiplication: NaN for a NaN operand and for zero by infinity. -/
def Num.mul (a b : Num) : Num :=
  let s := a.neg != b.neg
  match a, b with
  | .nan _, _ => .nan false
  | _, .nan _ => .nan false
  | .inf _, .zero _ => .nan false
  | .zero _, .inf _ => .nan false
  | .inf _, _ => .inf s
  | _, .inf _ => .inf s
  | .zero _, _ => .zero s
  | _, .zero _ => .zero s
  | .fin x, .fin y => .fin (x.mul y)

/-! ### The conversions of the movers (R174, R254) -/

/-- The value of an element of a mover format code. -/
def moverValue (f p : Nat) : Num :=
  match f with
  | 1 => b16.value p
  | 2 => bf16.value p
  | 3 => b32.value p
  | 4 => positValue 16 p
  | 5 => positValue 8 p
  | 6 => intValue 8 p
  | _ => intValue 4 p

/-- The outcome of a mover conversion: the pattern, and whether it counts as a saturation, an invalid conversion, or an
overflow. -/
structure MConv where
  p : Nat
  sat : Bool := false
  inv : Bool := false
  ovf : Bool := false
deriving DecidableEq, Repr

/-- Ingest to a posit of `n` bits: a magnitude clamped to maxpos or minpos counts as a saturation. -/
def ingestPosit (n : Nat) (v : Num) : MConv :=
  match v with
  | .nan _ => { p := 2 ^ (n - 1), inv := true }
  | .inf _ => { p := 2 ^ (n - 1), inv := true }
  | .zero _ => { p := 0 }
  | .fin r => let x := positRound n r; { p := x.p, sat := x.ovf || x.unf }

/-- Ingest to an integer of `n` bits. -/
def ingestInt (n : Nat) (v : Num) : MConv :=
  match v with
  | .nan _ => { p := 0, inv := true }
  | .inf s => { p := if s then 2 ^ (n - 1) else 2 ^ (n - 1) - 1, sat := true }
  | .zero _ => { p := 0 }
  | .fin r => let x := intRound n r; { p := x.p, sat := x.ovf }

/-- Egress to an IEEE format. -/
def egress (f : IFmt) (v : Num) : MConv :=
  match v with
  | .nan _ => { p := f.nanBits, inv := true }
  | .inf s => { p := f.infBits s, ovf := true }
  | .zero _ => { p := 0 }
  | .fin r => let x := f.round r; { p := x.p, ovf := x.ovf }

/-- One element converted from format `s` to format `t` with binary32 scale `scale` (R174). -/
def moverConv (s t scale p : Nat) : MConv :=
  let v := (moverValue s p).mul (b32.value scale)
  match t with
  | 1 => egress b16 v
  | 2 => egress bf16 v
  | 3 => egress b32 v
  | 4 => ingestPosit 16 v
  | 5 => ingestPosit 8 v
  | 6 => ingestInt 8 v
  | _ => ingestInt 4 v

end Sys2Proof.Machine
end

