-- ==== Sys2Proof/Machine/TileOps.lean ====
section
/-! DEFINITION. The tile sequencer's registers, instruction words, program counter and loops, its illegal programs, its memory
accesses and operand streams (R167, R197, R314–R324, R338). -/

namespace Sys2Proof.Machine

/-! ### Registers (R314) -/

/-- S[r]: S0 reads zero. -/
def Tile.reg (t : Tile) (r : Nat) : Word64 := if r = 0 then 0 else (fget t.s r).getD 0
/-- Writes S[r]: a write to S0 is discarded. -/
def Tile.setReg (t : Tile) (r : Nat) (v : Word64) : Tile :=
  if r = 0 then t else { t with s := if v = 0 then fdel t.s r else fset t.s r v }

/-! ### Instruction words (R316, R317) -/

/-- OPC. -/
def tiOpc (w : Nat) : Nat := bits w 56 8
/-- RD, RK or RC. -/
def tiRd (w : Nat) : Nat := bits w 51 5
/-- RA. -/
def tiRa (w : Nat) : Nat := bits w 46 5
/-- RB. -/
def tiRb (w : Nat) : Nat := bits w 41 5
/-- X. -/
def tiX (w : Nat) : Nat := bits w 32 9
/-- IMM. -/
def tiImm (w : Nat) : Nat := bits w 0 32
/-- sext(IMM). -/
def tiSext (w : Nat) : Word64 := (BitVec.ofNat 32 (tiImm w)).signExtend 64

/-- The bits that an opcode uses; none for a reserved opcode (R317). -/
def tiUsed (op : Nat) : Option Nat :=
  let rd := 31 * 2 ^ 51
  let ra := 31 * 2 ^ 46
  let rb := 31 * 2 ^ 41
  let x : Nat → Nat := fun m => m * 2 ^ 32
  let im := 2 ^ 32 - 1
  if op = 0 || op = 1 then some 0
  else if op = 2 then some im
  else if op = 3 then some (ra + rb + x 7 + im)
  else if op = 4 then some ra
  else if op = 5 then some (ra + im)
  else if 0x10 ≤ op && op ≤ 0x1A then some (rd + ra + rb)
  else if op = 0x1B then some (rd + ra + im)
  else if op = 0x1C || op = 0x1D then some (rd + im)
  else if op = 0x20 then some (rd + ra + x 3 + im)
  else if op = 0x21 then some (ra + rb + x 3 + im)
  else if op = 0x22 then some (rd + 0xFF)
  else if op = 0x23 then some (ra + 0xFF)
  else if op = 0x30 || op = 0x31 then some (ra + rb + x 1 + im)
  else if op = 0x40 then some (x 15)
  else if op = 0x41 then some (rd + x 0x1FF + 0x1FFFFFFF)
  else if op = 0x48 then some (ra + rb + x 1 + 0xFFFFFF)
  else if op = 0x50 then some (rd + ra + rb + im)
  else if op = 0x60 then some (x 15)
  else if op = 0x61 then some 0xFFFF
  else none

/-- The reason for which an instruction word is illegal by its fields alone, 0 where it is not (R316, R333, R338). -/
def tiReason (w : Nat) : Nat :=
  let op := tiOpc w
  let imm := tiImm w
  match tiUsed op with
  | none => 1
  | some m =>
    if (w % 2 ^ 56) &&& m != w % 2 ^ 56 then 2
    else if op = 3 && 6 ≤ tiX w then 2
    else if op = 5 && tiRa w != 0 && imm % 65536 != 0 then 2
    else if op = 5 && imm / 65536 = 0 then 6
    else if op = 0x40 && 11 ≤ tiX w then 2
    else if op = 0x41 && ((tiRd w != 0 && imm % 2 ^ 24 != 0) || (bits w 40 1 = 0 && bits w 32 8 != 0)) then 2
    else if (op = 0x22 || op = 0x23) && 0x11 < imm then 5
    else if op = 0x23 && !(imm == 8 || imm == 9 || imm == 0xB || imm == 0x10) then 5
    else 0

/-! ### Program counter and loops (R320, R321) -/

/-- The next PC after a straight step to `pc`, through the loops whose body ends there, innermost first. -/
def loopNext (pc : Nat) : List Loop → List Loop × Nat
  | [] => ([], pc)
  | l :: ls => if pc = l.stop then (if 1 < l.count then ({ l with count := l.count - 1 } :: ls, l.start) else loopNext pc ls) else (l :: ls, pc)

/-- The tile after a straight step to `pc`. -/
def Tile.goStraight (t : Tile) (pc : Nat) : Tile :=
  let r := loopNext pc t.loops.reverse
  { t with loops := r.1.reverse, pc := r.2, wait := .none }

/-- The tile after an instruction that does not branch. -/
def Tile.step (t : Tile) : Tile := t.goStraight (t.pc + 8)

/-- The tile after a taken branch to `pc` (R321). -/
def Tile.branch (t : Tile) (pc : Nat) : Tile :=
  { t with loops := t.loops.takeWhile fun l => decide (l.start ≤ pc) && decide (pc < l.stop), pc := pc, wait := .none }

/-! ### Issue and illegal programs (R338) -/

/-- The context that leases tile `n`. -/
def Dev.tctx (d : Dev) (n : Nat) : Nat := d.rd (F.CMD_TILE_CTX n)
/-- The queue that leases tile `n`. -/
def Dev.tqueue (d : Dev) (n : Nat) : Nat := d.rd (F.CMD_TILE_QUEUE n)

/-- An illegal program on tile `n` kills its context (R338). -/
def Dev.illegal (d : Dev) (n reason : Nat) : Dev :=
  d.kill { c := d.tctx n, cause := 0x13, src := 18 + n, addr := (d.tile n).pc, data := reason }

/-- An uncorrectable error met by tile `n` kills its context (R179). -/
def Dev.tileUe (d : Dev) (n addr : Nat) : Dev :=
  (d.logUe addr 2 (d.tctx n)).kill { c := d.tctx n, cause := 0x10, src := 18 + n, addr := addr }

/-- An uncorrectable error in entry `e` of the quire RAM of tile `n` kills the context that leases it (R179, R298). -/
def Dev.quireUe (d : Dev) (n e : Nat) : Dev :=
  let a := e + n * 4096
  (d.logUe a 3 (d.tctx n)).kill { c := d.tctx n, cause := 0x10, src := 18 + n, addr := a }

/-- A parity error of a mullion that a pass of tile `n` crosses kills the leasing context (R281). It has no address: a free value (log
entry 12). -/
def Dev.mullionUe (d : Dev) (n : Nat) : Dev :=
  let (x, d) := d.fresh
  d.tileUe n (x % 2 ^ 44)

/-- The entry of tile `n` at which a read of its whole quire RAM meets two wrong bits. -/
def Tile.quireBad (t : Tile) : Option Nat := (t.quireEcc.find? fun e => e.2).map (·.1)

/-- The quire RAM of tile `n` has been read: its single wrong bits are corrected and counted (R168, R179). -/
def Dev.quireCorrect (d : Dev) (n : Nat) : Dev :=
  let t := d.tile n
  if t.quireEcc.isEmpty then d
  else (d.setTile n { t with quireEcc := t.quireEcc.filter (·.2) }).sat F.MEM_ECC_STAT_SRAM_CE (t.quireEcc.filter fun e => !e.2).length

/-- Whether tile `n` has a program and may issue: its queue is not being pre-empted. -/
def Dev.tileRuns (d : Dev) (n : Nat) : Bool := (d.tile n).running && d.is (F.CMD_TILE_LEASED n) && d.unpre (d.tqueue n)

/-- Runs `f` on the instruction at the PC of tile `n` when its opcode is `op` and the sequencer can issue it. -/
def Dev.issue (d : Dev) (n op : Nat) (f : Dev → Tile → Nat → Dev) : Dev :=
  let t := d.tile n
  if !d.tileRuns n || !(t.wait == .none || t.wait == .other || t.wait == .ending) then d
  else if t.pc % 8 != 0 || tileSize ≤ t.pc then d.illegal n 3
  else
    match d.badGran (tileBase n + t.pc) 8 with
    | some a => d.tileUe n a
    | none =>
      let w := ofBytes (d.mem.read (tileBase n + t.pc) 8)
      let d := d.correct (tileBase n + t.pc) 8
      let r := tiReason w
      if r = 1 then d.illegal n 1
      else if tiOpc w != op then d
      else if r != 0 then d.illegal n r
      else f d t w

/-- The instruction has issued: the tile goes on as `t` (R337). -/
def Dev.retire (d : Dev) (n : Nat) (t : Tile) : Dev := (d.setTile n t).bump (F.MT_SEQ_RETIRED_COUNT n)

/-- The sequencer waits at its PC. -/
def Dev.waits (d : Dev) (n : Nat) (x : TWait) : Dev := d.setTile n { d.tile n with wait := x }

/-! ### Memory accesses of the compute side (R167, R197) -/

/-- The key slot under which tile `n` may access `size` bytes at physical address `a`, or the kill cause. -/
def Dev.compute (d : Dev) (n a size : Nat) (write : Bool) : Except Nat Nat :=
  if tileBase n ≤ a && a + size ≤ tileBase n + tileSize then .ok 0
  else
    match (d.ctx (d.tctx n)).pins.find? fun p =>
      decide (p.2.base ≤ a) && decide (a + size ≤ p.2.base + p.2.len) && (!write || p.2.w) with
    | some p => if d.keyOk p.2.key then .ok p.2.key else .error 0xB
    | none => .error 9

/-- A compute-side access of tile `n` that is refused kills its context. -/
def Dev.computeKill (d : Dev) (n cause addr : Nat) : Dev :=
  d.kill { c := d.tctx n, cause := cause, src := 18 + n, addr := addr }

/-! ### Streams (R324) -/

/-- Steps of a pass of depth `k`. -/
def steps (fmt k : Nat) : Nat := if fmt = 3 then (k + 1) / 2 else k

/-- STEP of a stream, signed. -/
def Stream.stepI (s : Stream) : Int := signed 64 s.step

/-- The bases that a stream of a format uses. -/
def Stream.bases (s : Stream) (fmt : Nat) : List Nat := if fmt = 0 then [s.base0, s.base1] else [s.base0]

/-- The byte ranges that a stream reads: first and last byte. -/
def Stream.ranges (s : Stream) (fmt k : Nat) : List (Int × Int) :=
  let span := ((steps fmt k : Int) - 1) * s.stepI
  (s.bases fmt).map fun (b : Nat) => ((b : Int) + min 0 span, (b : Int) + max 0 span + 63)

/-- The 64-byte beats that a stream reads, by address in tile memory. -/
def Stream.beats (s : Stream) (fmt k : Nat) : List Nat :=
  (s.bases fmt).flatMap fun (b : Nat) => (List.range (steps fmt k)).map fun (i : Nat) => ((b : Int) + i * s.stepI).toNat

/-- Whether a stream is aligned and lies in tile memory (R324). -/
def Stream.ok (s : Stream) (fmt k : Nat) : Bool :=
  (s.bases fmt).all (fun b => b % 64 == 0) && s.step % 64 == 0 && (fmt == 0 || s.base1 == 0) &&
    (s.ranges fmt k).all fun r => decide (0 ≤ r.1) && decide (r.2 < tileSize)

/-- Whether a stream's ranges meet bytes `lo` to `hi - 1` of tile memory. -/
def Stream.meets (s : Stream) (fmt k lo hi : Nat) : Bool :=
  (s.ranges fmt k).any fun r => decide (r.1 < hi) && decide ((lo : Int) ≤ r.2)

/-- The stream after an MMA with ADV = 1 (R325). -/
def Stream.advanced (s : Stream) (fmt k : Nat) : Stream :=
  let by_ := (steps fmt k : Int) * s.stepI
  if s.adv then { s with base0 := twos 64 (s.base0 + by_), base1 := if fmt = 0 then twos 64 (s.base1 + by_) else s.base1 } else s

end Sys2Proof.Machine
end

