-- ==== Sys2Proof/Machine/Array.lean ====
section
/-! DEFINITION. Passes of the matrix array and their drain into the quires (chapters 11, 12 and 13). -/

namespace Sys2Proof.Machine

/-! ### Operands (R283, R285, R324, R326) -/

/-- Byte `a` of the memory of tile `n`. -/
def Dev.tbyte (d : Dev) (n : Nat) (a : Int) : Nat := (d.mem.get (tileBase n + a.toNat)).toNat

/-- The raw element of lane `l` at `k` in a stream of tile `n`. -/
def Dev.element (d : Dev) (n fmt : Nat) (s : Stream) (l k : Nat) : Nat :=
  match fmt with
  | 0 =>
    let a := (if l < 32 then (s.base0 + 2 * l : Int) else (s.base1 + 2 * (l - 32) : Int)) + k * s.stepI
    d.tbyte n a + 256 * d.tbyte n (a + 1)
  | 3 =>
    let b := d.tbyte n (s.base0 + (k / 2 : Nat) * s.stepI + l)
    if k % 2 = 0 then b % 16 else b / 16
  | _ => d.tbyte n (s.base0 + k * s.stepI + l)

/-- The exact value of a posit pattern in units of 2^-56; none for NaR (R286). -/
def positUnits (n p : Nat) : Option Int :=
  match positValue n p with
  | .fin r => some (r.n * 2 ^ 56 / r.d)
  | .zero _ => some 0
  | _ => none

/-- The widened value of an element: units of 2^-56 for posits, of 1 for integers; none for NaR (R285). -/
def operand (fmt p : Nat) : Option Int :=
  match fmt with
  | 0 => positUnits 16 p
  | 1 => positUnits 8 p
  | 2 => some (signed 8 p)
  | _ => some (signed 4 p)

/-- The values of lane `l` over the depth of a pass. -/
def Dev.lane (d : Dev) (n fmt : Nat) (s : Stream) (k l : Nat) : List (Option Int) :=
  (List.range k).map fun i => operand fmt (d.element n fmt s l i)

/-! ### The sash (R288–R291, R294) -/

/-- Adds one product, given in grid units `g` = 2^(A + 112) or 1, to a running sum with its conditions (R290). -/
def sashStep (g : Nat) (x : Int × Nat) (p : Option Int × Option Int) : Int × Nat :=
  match p with
  | (some a, some b) =>
    let v := a * b
    let q := v / g
    let c := (if v % g != 0 then 8 else 0) ||| (if v != 0 && decide (v.natAbs < g) then 4 else 0)
    let s := x.1 + q
    let o := if s < -2 ^ 79 || 2 ^ 79 - 1 < s then 2 else 0
    (s, x.2 ||| c ||| o)
  | _ => (x.1, x.2 ||| 1)

/-- The sash bank of a cell after a pass over its two operand lanes (R290). -/
def sashOf (g : Nat) (a b : List (Option Int)) : Sash :=
  let r := (a.zip b).foldl (sashStep g) (0, 0)
  { s := BitVec.ofInt 80 r.1, cond := BitVec.ofNat 4 r.2 }

/-- The grid of a pass, in the units of its products. -/
def MmaOp.grid (op : MmaOp) : Nat := if 2 ≤ op.fmtA then 1 else 2 ^ (op.anchor + 112).toNat

/-- The 4,096 sash banks of a tile, given the feeders of its rows and its columns (R261, R266). -/
def Dev.cells (d : Dev) (op : MmaOp) (aTile : Nat) (a : Stream) (bTile : Nat) (b : Stream) : List Sash :=
  let rows := (List.range 64).map (d.lane aTile op.fmtA a op.k)
  let cols := (List.range 64).map (d.lane bTile op.fmtB b op.k)
  rows.flatMap fun r => cols.map fun c => sashOf op.grid r c

/-! ### Rendezvous (R269, R271, R272, R329) -/

/-- The tiles of the pass that an MMA of a gang names (R265). -/
def MmaOp.maskIn (op : MmaOp) (gang : Nat) : Option Nat := if op.sub then rect op.subShape op.subOrigin else some gang

/-- Whether two MMAs agree in every field that must be identical (R329). -/
def MmaOp.agrees (x y : MmaOp) : Bool :=
  let z : MmaOp := { x with fold := y.fold }
  z == y

/-- Whether a pass on the tiles of `m` may begin on tile `t`: every pass still in it has the same tiles, whatever their number, or has
ended (R271, R272). -/
def Tile.mayStart (t : Tile) (m : Nat) : Bool := t.passes.all fun p => p.mask == m

/-- Whether a pass on the tiles of `m` is in the steady state: the previous pass of each of them used exactly the same tiles (R271). -/
def Dev.steady (d : Dev) (m : Nat) : Bool := (maskList 16 m).all fun k => (d.tile k).lastMask == m

/-- The bank of the next pass of tile `n` on the tiles of `m` (R268): B where it is steady and the previous one used A. -/
def Dev.nextBankB (d : Dev) (n m : Nat) : Bool := d.steady m && !(d.tile n).bankB

/-- The cycles that a pass of depth `k` on the tiles of `m` takes without stalls (R270, R271). -/
def Dev.passCost (d : Dev) (m k : Nat) : Nat := if d.steady m then k + 2 else isolatedCycles (shapeOf m) k

/-- The tiles that the next pass of tile `n` will use: those its waiting MMA names, else those of its previous pass (R278). -/
def Tile.nextMask (t : Tile) : Nat := ((t.mma.bind fun op => op.maskIn t.gang)).getD t.lastMask

/-- MT_GANG.ISOLATED of tile `n` (R272, R278): the next pass of the RUN, as far as it is known, is a shape change. -/
def Dev.nextIsolated (d : Dev) (n : Nat) : Bool :=
  let m := (d.tile n).nextMask
  (d.tile n).running && (m == 0 || !d.steady m)

/-- MT_GANG.BANK of tile `n` (R268, R278): 1 where the next pass, as far as it is known, uses bank B. -/
def Dev.bankView (d : Dev) (n : Nat) : Bool :=
  let m := (d.tile n).nextMask
  m != 0 && d.nextBankB n m

/-- The fields of MT_GANG of tile `n` that tell of the next pass. -/
def Dev.gangShown (d : Dev) (n : Nat) : List (Fld × Nat) :=
  [(F.MT_GANG_BANK n, if d.bankView n then 1 else 0), (F.MT_GANG_ISOLATED n, if d.nextIsolated n then 1 else 0)]

/-- Starts the pass of tile `n` in mask `m`, whose gang has sequence number `seq` (R268, R269, R325). -/
def Dev.startPass (d0 : Dev) (m seq : Nat) (d : Dev) (n : Nat) : Dev :=
  let t := d.tile n
  match t.mma with
  | none => d
  | some op =>
    let (tr, tc) := gridOff m n
    let at_ := n - tc
    let bt := n - 4 * tr
    let b := d0.nextBankB n m
    let p : Pass := { op := op, seq := seq, mark := t.opseq, mask := m, bankB := b, cost := d0.passCost m op.k,
                      a := if tc = 0 then some t.a else none, b := if tr = 0 then some t.b else none,
                      cells := d0.cells op at_ (d0.tile at_).a bt (d0.tile bt).b }
    let old : List Pass := t.passes.map fun q => { q with fed := true }
    let t := { t with passes := old ++ [p], lastMask := m, bankB := b, mma := none,
                      opseq := t.opseq + 1, a := if tc = 0 then t.a.advanced op.fmtA op.k else t.a,
                      b := if tr = 0 then t.b.advanced op.fmtB op.k else t.b }
    (d.retire n t.step).wrs [(F.MT_GANG_PSHAPE n, shapeOf m), (F.MT_GANG_PASS_BUSY n, 1)]

/-- The beats that the feeders of a pass read: tiles with physical addresses (R266). -/
def Dev.feeds (d : Dev) (m : Nat) (op : MmaOp) : List (Nat × Nat) :=
  (maskList 16 m).flatMap fun n =>
    let (tr, tc) := gridOff m n
    let t := d.tile n
    ((if tc = 0 then t.a.beats op.fmtA op.k else []) ++ (if tr = 0 then t.b.beats op.fmtB op.k else [])).map fun a => (n, tileBase n + a)

/-- An uncorrectable granule that the feeders of a pass read (R281): the tile and the granule. -/
def Dev.feedUe (d : Dev) (m : Nat) (op : MmaOp) : Option (Nat × Nat) :=
  if d.ecc.isEmpty then none else (d.feeds m op).findSome? fun f => (d.badGran f.2 64).map fun g => (f.1, g)

/-- The feeders of a pass have read: single wrong bits are corrected (R168). -/
def Dev.feedCorrect (d : Dev) (m : Nat) (op : MmaOp) : Dev :=
  if d.ecc.isEmpty then d else (d.feeds m op).foldl (fun d f => d.correct f.2 64) d

/-- A tile of a pass whose incoming mullion has a parity error: the pass crosses those of every tile but its origin (R262, R281). -/
def Dev.mullionBad (d : Dev) (m : Nat) : Option Nat := (maskList 16 m).find? fun n => gridOff m n != (0, 0) && (d.tile n).mullion

/-- Whether tile `n` has arrived at its rendezvous (R329): it waits at an MMA, and the start rule permits its pass there. -/
def Dev.arrived (d : Dev) (n : Nat) : Bool :=
  let t := d.tile n
  t.wait == .mma && (match t.mma.bind fun op => op.maskIn t.gang with | some m => t.mayStart m | none => false)

/-- MMA_RENDEZVOUS (R269, R329): once every tile of the gang or sub-gang has arrived at its MMA, the pass starts in all of them;
differing fields are an illegal program. -/
def execMmaRendezvous (n : Nat) (s : State) : Res := s.nextCore fun d =>
  let t := d.tile n
  match t.mma with
  | none => d
  | some op =>
    match op.maskIn t.gang with
    | none => d
    | some m =>
      let ts := maskList 16 m
      if !d.tileRuns n || !ts.all d.arrived then d
      else if !ts.all (fun k => match (d.tile k).mma with | some x => x.agrees op | none => false) then d.illegal n 0xB
      else
        match d.mullionBad m, d.feedUe m op with
        | some k, _ => d.mullionUe k
        | none, some (k, g) => d.tileUe k g
        | none, none =>
          let seq := d.rd (F.MT_PASS_SEQ_SEQ n)
          let d' := ts.foldl (Dev.startPass d m seq) (d.feedCorrect m op)
          (maskList 16 t.gang).foldl (fun d k => d.wr (F.MT_PASS_SEQ_SEQ k) (seq + 1)) d'

/-! ### Drain (R298, R299) -/

/-- The NaR state of a quire entry. -/
def quireNar : BitVec 256 := BitVec.ofNat 256 (2 ^ 255)

/-- Quire entry `e`. -/
def Tile.entry (t : Tile) (e : Nat) : BitVec 256 := (fget t.quire e).getD 0

/-- A bank's value goes into a quire entry: the new entry and the causes raised (R299). `sh` is A + 112. -/
def drainCell (fold : Bool) (sh : Nat) (x : Sash) (g : BitVec 256) : BitVec 256 × Nat :=
  let c := x.cond.toNat
  if c % 4 != 0 then (quireNar, c)
  else if fold && g == quireNar then (quireNar, c)
  else
    let v := x.s.toInt * 2 ^ sh + (if fold then g.toInt else 0)
    if v ≤ -2 ^ 255 || 2 ^ 255 ≤ v then (quireNar, c + 16) else (BitVec.ofInt 256 v, c)

/-- The entries of a tile in the order in which a pass drains them: by wavefront, then by column (R268, R309). -/
def drainOrder : List Nat :=
  (List.range 127).flatMap fun w => (List.range 64).filterMap fun j => if j ≤ w && w - j < 64 then some (64 * (w - j) + j) else none

/-- The quire RAM after the drain of a pass, and the causes of each entry, from entry `e` on. -/
def drainFrom (fold : Bool) (sh : Nat) : Nat → List Sash → FMap (BitVec 256) → FMap (BitVec 256) × List (Nat × Nat)
  | _, [], _ => ([], [])
  | e, x :: xs, q =>
    let r := drainCell fold sh x ((fget q e).getD 0)
    let r' := drainFrom fold sh (e + 1) xs q
    (if r.1 = 0 then r'.1 else (e, r.1) :: r'.1, (e, r.2) :: r'.2)

/-- The shift of a sash onto the quire: A + 112. -/
def MmaOp.shift (op : MmaOp) : Nat := if 2 ≤ op.fmtA then 112 else (op.anchor + 112).toNat

/-- What a stall counter grows by during a pass: a free value (log entry 12), since the model does not count cycles; where the feeder or
mullion takes no part in the pass, nothing. -/
def Dev.freeCount (d : Dev) (f : Fld) (takesPart : Bool) : Dev := if takesPart then let r := d.fresh; r.2.sat f r.1 else d

/-- The cycle and stall counters of tile `n` after pass `p` (R274–R276, R278): the cycles are the pass's own and those its stalls have
added, a free value (log entry 12). -/
def Dev.countPass (d : Dev) (n : Nat) (p : Pass) : Dev :=
  let r := d.fresh
  let d := (r.2.bump (F.MT_BUSY_CYC_COUNT n) (p.cost + r.1 % 2 ^ 32)).freeCount (F.MT_STALL_ROW_COUNT n) p.a.isSome
  let d := (d.freeCount (F.MT_STALL_COL_COUNT n) p.b.isSome).freeCount (F.MT_STALL_MUL_COUNT n) (p.mask != 2 ^ n)
  d.freeCount (F.MT_LOUVRE_CYC_COUNT n) true

/-- The drain of the oldest pass of tile `n` ends (R270, R278, R296, R299, R308). -/
def Dev.drainTile (d : Dev) (n : Nat) : Dev :=
  let t := d.tile n
  match t.passes with
  | [] => d
  | p :: ps =>
    let r := drainFrom p.op.fold p.op.shift 0 p.cells t.quire
    let d := (if p.op.fold then d.quireCorrect n else d)
    let d := d.setTile n { d.tile n with quire := r.1, quireEcc := [], passes := ps }
    let cond := p.cells.foldl (fun m x => m ||| x.cond.toNat) 0
    let d := d.wrs [(F.MT_PASS_ARITH_FMT_A n, p.op.fmtA), (F.MT_PASS_ARITH_FMT_B n, p.op.fmtB),
      (F.MT_PASS_ARITH_FAMILY n, if 2 ≤ p.op.fmtA then 1 else 0), (F.MT_PASS_ARITH_ANCHOR n, twos 8 p.op.anchor),
      (F.MT_PASS_ARITH_COND n, cond), (F.MT_QSEQ_SEQ n, p.seq), (F.MT_GANG_PASS_BUSY n, if ps.isEmpty then 0 else 1),
      (F.MT_CONV_NAR n, (r.1.filter fun e => e.2 == quireNar).length)]
    let d := (d.bump (F.MT_PASSES_COUNT n)).countPass n p
    d.raiseFlags n p.seq (drainOrder.map fun e => (e, ((r.2.lookup e).getD 0)))

/-- A tile of a pass in which FOLD reads a quire entry with two wrong bits (R179, R299); SET only writes. -/
def Dev.drainUe (d : Dev) (mask : Nat) : Option (Nat × Nat) :=
  (maskList 16 mask).findSome? fun k =>
    match (d.tile k).passes with
    | q :: _ => if q.op.fold then (d.tile k).quireBad.map fun e => (k, e) else none
    | [] => none

/-- PASS_DRAIN_COMPLETE (R270): the oldest pass of tile `n` ends in every tile of its gang or sub-gang. -/
def execPassDrainComplete (n : Nat) (s : State) : Res := s.nextCore fun d =>
  match (d.tile n).passes with
  | [] => d
  | p :: _ =>
    let stopping := (d.queue (d.tqueue n)).pre == .stop
    if !(d.unpre (d.tqueue n) || stopping) || !d.is (F.CMD_TILE_LEASED n) then d
    else
      match d.drainUe p.mask with
      | some (k, e) => d.quireUe k e
      | none => (maskList 16 p.mask).foldl (fun d k => d.drainTile k) d

end Sys2Proof.Machine
end

