-- ==== Sys2Proof/Machine/Bch.lean ====
section
/-! DEFINITION. The sector code of a cartridge: BCH over GF(2^15), correcting 72 errors (R458, R459). -/

namespace Sys2Proof.Machine

/-! ### The field, with polynomial x^15 + x + 1 -/

/-- Doubles an element. -/
def gfDbl (a : Nat) : Nat := if (2 * a).testBit 15 then (2 * a) ^^^ 0x8003 else 2 * a
/-- The product of two elements. -/
def gfMul (a b : Nat) : Nat := (List.range 15).foldl (fun r i => if b.testBit (14 - i) then gfDbl r ^^^ a else gfDbl r) 0
/-- A power of an element. -/
def gfPow (a n : Nat) : Nat :=
  (List.range 15).foldl (fun r i => let s := gfMul r r; if n.testBit (14 - i) then gfMul s a else s) 1
/-- The inverse of a non-zero element. -/
def gfInv (a : Nat) : Nat := gfPow a 32766
/-- A power of the primitive element. -/
def alpha (n : Nat) : Nat := gfPow 2 (n % 32767)

/-- A polynomial, lowest coefficient first, at a point. -/
def polyAt (p : List Nat) (x : Nat) : Nat := p.foldr (fun c r => gfMul r x ^^^ c) 0
/-- The sum of two polynomials. -/
def polyAdd : List Nat → List Nat → List Nat
  | [], q => q
  | p, [] => p
  | a :: p, b :: q => (a ^^^ b) :: polyAdd p q
/-- A polynomial times a constant and a power of x. -/
def polyScale (c k : Nat) (p : List Nat) : List Nat := List.replicate k 0 ++ p.map (gfMul c)

/-! ### The generator -/

/-- The minimal polynomial of the element `b` over GF(2), whose conjugates are its 15 successive squares. -/
def minPoly (b : Nat) : List Nat :=
  ((List.range 15).foldl (fun (r : List Nat × Nat) _ => (polyAdd (0 :: r.1) (polyScale r.2 0 r.1), gfMul r.2 r.2)) ([1], b)).1

/-- The generator: the least common multiple of the minimal polynomials of α to α^144, those of the odd powers, as a number whose bit
k is the coefficient of x^k. -/
def bchGen : Nat :=
  let g := (List.range 72).foldl (fun g i =>
    let m := minPoly (alpha (2 * i + 1))
    (List.range 16).foldl (fun r k => polyAdd r (polyScale (m.getD k 0) k g)) []) [1]
  (List.range 1081).foldl (fun n k => if g.getD k 0 = 1 then n + 2 ^ k else n) 0

/-- The bits of bytes, bit 7 of the first byte first. -/
def msbBits (bs : List Byte) : List Bool := bs.flatMap fun b => (List.range 8).map fun i => b.getLsbD (7 - i)

/-- The parity of a message: the remainder of x^1080 · m(x), as 135 bytes, its highest coefficient in bit 7 of the first. -/
def bchParity (msg : List Byte) : List Byte :=
  let g := bchGen
  let r := (msbBits msg).foldl (fun (r : Nat) (b : Bool) =>
    let s := 2 * r
    if (r.testBit 1079) != b then (s ^^^ g) % 2 ^ 1080 else s % 2 ^ 1080) 0
  (toBytes 135 r).reverse

/-! ### Decoding -/

/-- Syndrome `j` of a codeword. -/
def syndrome (c : List Bool) (j : Nat) : Nat :=
  let a := alpha j
  c.foldl (fun s b => gfMul s a ^^^ (if b then 1 else 0)) 0

/-- The state of the Berlekamp–Massey iteration. -/
structure Bm where
  c : List Nat := [1]
  b : List Nat := [1]
  l : Nat := 0
  m : Nat := 1
  d : Nat := 1

/-- One iteration, for syndrome number `n`. -/
def Bm.step (s : List Nat) (x : Bm) (n : Nat) : Bm :=
  let dl := (List.range (x.l + 1)).foldl (fun r i => r ^^^ gfMul (x.c.getD i 0) (s.getD (n - i) 0)) 0
  if dl = 0 then { x with m := x.m + 1 }
  else
    let c := polyAdd x.c (polyScale (gfMul dl (gfInv x.d)) x.m x.b)
    if 2 * x.l ≤ n then { c := c, b := x.c, l := n + 1 - x.l, m := 1, d := dl } else { x with c := c, m := x.m + 1 }

/-- The positions in error of a codeword of 2,203 bytes, counted from its first bit; none when more than 72 are. -/
def bchErrors (c : List Bool) : Option (List Nat) :=
  let s := (List.range 144).map fun j => syndrome c (j + 1)
  if s.all (· == 0) then some []
  else
    let x := (List.range 144).foldl (Bm.step s) {}
    let n := c.length
    let es := (List.range n).filter fun p => polyAt x.c (alpha (32767 - (n - 1 - p) % 32767)) == 0
    if x.l ≤ 72 && es.length == x.l then some es else none

/-- Flips a bit of a byte string, counted from bit 7 of its first byte. -/
def flipBit (bs : List Byte) (p : Nat) : List Byte := bs.modify (p / 8) fun b => b ^^^ BitVec.ofNat 8 (2 ^ (7 - p % 8))

/-! ### Sectors -/

/-- How a sector decodes (R459): its bytes 0 to 2,063 with the corrected-bit count. -/
inductive Sector where
  | erased
  | good (bytes : List Byte) (corrected : Nat)
  | bad

/-- The number of zero bits. -/
def zeroBits (bs : List Byte) : Nat := ((msbBits bs).filter fun b => !b).length

/-- Decodes a sector of 2,304 bytes (R459). -/
def decodeSector (raw : List Byte) : Sector :=
  if zeroBits raw ≤ 72 then .erased
  else
    match bchErrors (msbBits (raw.take 2203)) with
    | none => .bad
    | some es =>
      let x := es.foldl flipBit raw
      if bytesAt x 2048 1 == 0x5A && bytesAt x 2064 4 == (crc32 (x.take 2064)).toNat then .good (x.take 2064) es.length else .bad

/-- A sector as it is written (R458): DATA and META, CRC, PARITY, PAD. -/
def encodeSector (data : List Byte) (part idx pflags seq stamp erases : Nat) : List Byte :=
  let body := data ++ toBytes 1 0x5A ++ toBytes 1 part ++ toBytes 1 idx ++ toBytes 1 pflags ++ toBytes 4 seq ++ toBytes 4 stamp ++
    toBytes 4 erases
  let msg := body ++ toBytes 4 (crc32 body).toNat
  msg ++ bchParity msg ++ List.replicate 101 0

end Sys2Proof.Machine
end

