-- ==== Sys2Proof/Machine/MoverOps.lean ====
section
/-! DEFINITION. What the movers read and write (R33, R163, R173, R190, R192, R483), and the end of a mover descriptor (R485). -/

namespace Sys2Proof.Machine

/-! ### Clasp requests (R483) -/

/-- A tag that no request holds, from the next one on. -/
def Dev.freeTag (d : Dev) : Option Nat :=
  ((List.range 4096).map fun k => (d.cls.nextTag + k) % 4096).find? fun t => (fget d.cls.reqs t).isNone

/-- Sends a request under a free tag, or has it wait for one. -/
def Dev.reqSend (d : Dev) (r : CReq) (m : ClaspMsg) : Dev :=
  match d.freeTag with
  | some t => ({ d with cls := { d.cls with reqs := fset d.cls.reqs t r, nextTag := (t + 1) % 4096 } }).claspSend { m with tag := t }
  | none => { d with cls := { d.cls with waiting := d.cls.waiting ++ [(r, m)] } }

/-- The reply of tag `t` has come: the tag is free, and the request that has waited longest takes it. -/
def Dev.reqDone (d : Dev) (t : Nat) : Dev :=
  let d := { d with cls := { d.cls with reqs := fdel d.cls.reqs t } }
  match d.cls.waiting with
  | [] => d
  | (r, m) :: ws => { d with cls := { d.cls with waiting := ws } }.reqSend r m

/-- Whether the port that the route table names for chip `k` is disabled or FAILED (R492). -/
def Dev.portDown (d : Dev) (k : Nat) : Bool :=
  match d.route k with
  | some p => d.portState p == 0 || d.portState p == 4
  | none => true

/-- One more request of descriptor `n` of queue `q` is to be answered. -/
def Dev.oneMore (d : Dev) (q n : Nat) : Dev := d.onIssued q n fun i => { i with toAck := i.toAck + 1 }

/-- A WRITE of descriptor `n` of queue `q` to offset `o` of chip `k`; one of 64 bytes has a byte-enable mask (R482). -/
def Dev.claspWrite (d : Dev) (q n k o : Nat) (bs : List Byte) : Dev :=
  let c := d.qctx q
  (d.oneMore q n).reqSend { ctx := c, q := q, idx := n, dst := k, read := false, addr := o }
    { mtype := 1, src := d.chip, dst := k, tag := 0, sctx := c, offset := o,
      arg := if bs.length = 64 then 2 ^ 64 - 1 else 0, data := bs, len := bs.length - 1 }

/-- A READ of `len` bytes from element `e` of descriptor `n` of queue `q` on, at offset `o` of chip `k`. -/
def Dev.claspRead (d : Dev) (q n e k o len : Nat) : Dev :=
  let c := d.qctx q
  (d.oneMore q n).reqSend { ctx := c, q := q, idx := n, dst := k, read := true, addr := o, elem := e }
    { mtype := 2, src := d.chip, dst := k, tag := 0, sctx := c, offset := o, arg := 0, data := [], len := len - 1 }

/-- A read of `len` bytes of host memory from element `e` of descriptor `n` of queue `q` on. -/
def Dev.moverRead (d : Dev) (q n e va : Nat) (src : HostAt) (len : Nat) : Dev :=
  let idx := ((d.bySeq q n).map (·.idx)).getD 0
  (d.oneMore q n).hostReadSend { q := q, idx := idx, seq := n, elem := e, va := va, src := src, len := len }

/-- Whether the mover of a descriptor may send one more request that is answered (R173): at most 64 are outstanding. -/
def Issued.mayAsk (i : Issued) : Bool := decide (i.toAck - i.acked < 64)

/-! ### Address streams (R190–R192) -/

/-- The pages of 4 KiB that the side `dst` of a DMA enters next after element `e`, at most `k` of them; `f` bounds the rows and pages
looked at. -/
def pagesAfter (x : Desc) (dst : Bool) : Nat → Nat → Nat → List Nat
  | 0, _, _ => []
  | _, 0, _ => []
  | f + 1, k + 1, e =>
    let va := elemVa x dst e
    let e' := e + min (dX x - e % dX x) (max 1 ((4096 - va % 4096) * 8 / fmtBits (dFmt x dst)))
    if dX x * dY x * dZ x ≤ e' then []
    else
      let v := elemVa x dst e'
      if v / 4096 = va / 4096 then pagesAfter x dst f (k + 1) e' else v / 4096 * 4096 :: pagesAfter x dst f k e'

/-- The pages of 4 KiB that a stream of an issued descriptor enters next, at most `k` of them. -/
def Issued.ahead (i : Issued) (dst : Bool) (k : Nat) : List Nat :=
  if dOp i.d = 0x01 then pagesAfter i.d dst (dX i.d * dY i.d * dZ i.d) k (if dst then i.progress else i.asked)
  else
    ((List.range k).map fun j => (i.pos dst / 4096 + j + 1) * 4096).filter fun v =>
      decide (v < dfld i.d 24 0 64 + dfld i.d 32 0 32)

/-- A stream of descriptor `n` of queue `q` comes to `va`: it leaves the pages behind it, and holds the translation of its page, by a
walk, or by ATS, for which it asks, and for the pages it enters next as far as it may hold them (R190–R192). -/
def Dev.comeTo (d : Dev) (q n va : Nat) (dst : Bool) : Dev :=
  match d.bySeq q n with
  | none => d
  | some i =>
    let c := d.qctx q
    let depth := d.depth c (streamStart i.d dst)
    let held := leavePages i.held dst va
    let d := d.setIssued q { i with held := held }
    let ats := d.atsOn && (d.ctx c).pasid.isSome
    let d :=
      if held.any (·.at_ dst va) then d
      else if 2 ^ 47 ≤ va then (if ats then d.atsAsk q (.desc n) va dst else d)
      else
        let d := d.walkCorrect c va
        match d.walkTr c va dst with
        | .ok h => d.setIssued q { i with held := holdTr depth h held }
        | .error _ => d
    if ats then
      ((i.ahead dst depth).filter fun v => decide (2 ^ 47 ≤ v) && !held.any (·.at_ dst v)).foldl (fun d v => d.atsAsk q (.desc n) v dst) d
    else d

/-- The translations that descriptor `n` of queue `q` holds. -/
def Dev.heldBy (d : Dev) (q n : Nat) : List HeldTr := ((d.bySeq q n).map (·.held)).getD []

/-! ### Writing (R173, R190) -/

/-- A write in progress: the device so far, the kill it has led to, the register bytes it reaches, by BAR0 offset, and the address at
which it waits for a translation or for replies. -/
structure Put where
  d : Dev
  ks : List KillReq := []
  regs : List (Nat × List Byte) := []
  wait : Option Nat := none

/-- Writes bytes of descriptor `n` of queue `q` from virtual address `va` on. -/
def putRun (q n src : Nat) : Nat → Put → Nat → List Byte → Put
  | 0, p, _, _ => p
  | fuel + 1, p, va, bs =>
    if bs.isEmpty || !p.ks.isEmpty || p.wait.isSome then p
    else
      let c := p.d.qctx q
      let d := p.d.comeTo q n va true
      let stop (k : Nat) (d : Dev) (a : Nat) : Put := { p with d := d, ks := [{ c := c, cause := k, src := src, addr := a }] }
      match d.xlate c (d.heldBy q n) va true with
      | .mem pa key left =>
        let k := min left bs.length
        putRun q n src fuel { p with d := d.writeMem key pa (bs.take k) 0 c } (va + k) (bs.drop k)
      | .clasp chip o left =>
        if d.portDown chip then stop 0x18 d va
        else if !(d.bySeq q n).any Issued.mayAsk then { p with d := d, wait := some va }
        else
          let k := min (min left (256 - va % 256)) bs.length
          putRun q n src fuel { p with d := d.claspWrite q n chip o (bs.take k) } (va + k) (bs.drop k)
      | .mmio o left =>
        let k := min left bs.length
        putRun q n src fuel { p with d := d, regs := p.regs ++ [(o, bs.take k)] } (va + k) (bs.drop k)
      | .host a left =>
        let k := min left bs.length
        let d := (d.setCtx c { d.ctx c with lastHost := some a }).hostWriteFor a (some c) (some (q, n)) k (bs.take k)
        putRun q n src fuel { p with d := d } (va + k) (bs.drop k)
      | .ats => { p with d := d, wait := some va }
      | .kill cause => stop cause d va
      | .ue a => stop 0x10 (d.logUe a 1 c) a

/-! ### Reading (R173, R179, R190) -/

/-- What the next access of a source stream gives: bytes, register bytes to be read from a BAR0 offset on, a request that has been sent, a
wait, or a kill. -/
inductive Got where
  | bytes (bs : List Byte)
  | regs (off len : Nat)
  | sent
  | wait
  | kill (k : KillReq)

/-- Descriptor `n` of queue `q` reads up to `len` bytes from element `e` at `va` on: those of one page, and for a request of one
(R173). Answers how many. -/
def Dev.readAt (d : Dev) (q n src e va len : Nat) : Dev × Nat × Got :=
  let c := d.qctx q
  let d := d.comeTo q n va false
  let may := (d.bySeq q n).any Issued.mayAsk
  match d.xlate c (d.heldBy q n) va false with
  | .mem pa key left =>
    let k := min left len
    match d.badGran pa k with
    | some a => (d.logUe a 0 c, k, .kill { c := c, cause := 0x10, src := src, addr := a })
    | none => (d.correct pa k, k, .bytes (d.readMem key pa k))
  | .clasp chip o left =>
    let k := min (min left (256 - va % 256)) len
    if d.portDown chip then (d, k, .kill { c := c, cause := 0x18, src := src, addr := va })
    else if may then (d.claspRead q n e chip o k, k, .sent) else (d, k, .wait)
  | .mmio o left => let k := min left len; (d, k, .regs o k)
  | .host a left =>
    let k := min left (reqLen a.addr len (max 4 d.pci.mrrs))
    if may then (d.moverRead q n e va a k, k, .sent) else (d, k, .wait)
  | .ats => (d, 0, .wait)
  | .kill cause => (d, 0, .kill { c := c, cause := cause, src := src, addr := va })
  | .ue a => (d.logUe a 1 c, 0, .kill { c := c, cause := 0x10, src := src, addr := a })

/-! ### The end of a mover descriptor (R39, R485) -/

/-- Whether nothing of a descriptor is out: its requests are answered, and its host writes have been sent. -/
def Dev.allOut (d : Dev) (q : Nat) (i : Issued) : Bool :=
  i.acked == i.toAck && d.pci.stalled.all fun p => p.own != some (q, i.seq)

/-- A mover descriptor ends: at once, or when its requests are answered and its host writes have been sent (R39, R485). -/
def Dev.endMover (d : Dev) (q n st d0 d1 : Nat) : Dev × List KillReq :=
  match d.bySeq q n with
  | none => (d, [])
  | some i => if d.allOut q i then d.finish q i st d0 d1 else (d.setIssued q { i with endAs := some (st, d0, d1) }, [])

/-- A descriptor that has ended but for its replies and its host writes completes with the last of them, unless its queue is
pre-empted. -/
def Dev.endCheck (d : Dev) (q n : Nat) : Dev :=
  match d.bySeq q n with
  | none => d
  | some i =>
    match i.endAs with
    | some (st, d0, d1) => if d.allOut q i && d.unpre q then d.complete q i st d0 d1 else d
    | none => d

end Sys2Proof.Machine
end

