-- ==== Sys2Proof/Machine/CardOps.lean ====
section
/-! DEFINITION. The card slot: its contacts, deactivation, the start of an activation, and the blocks of T=1 (chapter 18); and what
a deactivation does to the cartridge and its clients (R457, R473). -/

namespace Sys2Proof.Machine

/-! ### Commands and states -/

/-- The slot state (R413). -/
def Dev.slot (d : Dev) : Nat := d.rd F.CRD_STATUS_STATE
/-- Changes the card slot beside its registers. -/
def Dev.onCard (d : Dev) (f : Card → Card) : Dev := { d with card := f d.card }
/-- Changes the T=1 machine. -/
def Dev.onT1 (d : Dev) (f : T1 → T1) : Dev := { d with card := { d.card with t1 := f d.card.t1 } }
/-- Changes the media engine beside its registers. -/
def Dev.onMed (d : Dev) (f : Med → Med) : Dev := { d with med := f d.med }

/-- The CRD_CMD operation in progress completes (R435). -/
def Dev.crdDone (d : Dev) (r : Nat) : Dev :=
  if !d.is F.CRD_CMD_BUSY then d
  else
    let d := d.wrs [(F.CRD_CMD_BUSY, 0), (F.CRD_CMD_RESULT, r)]
    if r = 0 then d else d.wr F.CRD_STATUS_LAST r

/-- The CBP_CMD operation in progress completes (R455). -/
def Dev.cbpDone (d : Dev) (r : Nat) : Dev :=
  if d.is F.CBP_CMD_BUSY then
    { d with cbp := { d.cbp with hostOp := none } }.wrs [(F.CBP_CMD_BUSY, 0), (F.CBP_CMD_RESULT, r)] else d

/-- The MED_CMD operation in progress completes (R474). -/
def Dev.medDone (d : Dev) (r : Nat) : Dev :=
  if d.is F.MED_CMD_BUSY then
    (d.onMed fun m => { m with cmd := none }).wrs [(F.MED_CMD_BUSY, 0), (F.MED_CMD_RESULT, r)] else d

/-! ### The clients of the cartridge (R135, R252, R465) -/

/-- A CARD_READ that has failed after writing zeroes the first 64 bytes of its destination, and then completes (R252); while their
translation is awaited it waits. Bytes of registers are left as they are (log entry 72). -/
def Dev.readZero (d : Dev) (q n : Nat) : Dev :=
  match d.bySeq q n with
  | none => d
  | some i =>
    match i.zeros with
    | none => d
    | some (st, d1) =>
      let p := putRun q n (moverSrc i) 66 { d := d } (dfld i.d 24 0 64) (List.replicate (min 64 (dfld i.d 32 0 32)) 0)
      if p.wait.isSome then p.d
      else
        let r := (p.d.onIssued q n fun i => { i with zeros := none }).endMover q n st 0 d1
        Dev.done (r.1, p.ks ++ r.2)

/-- Whether a CARD_READ has translations and requests enough to go on at `va` (R192, R211): it has a mover place. -/
def Dev.canPut (d : Dev) (q : Nat) (i : Issued) (va : Nat) : Bool :=
  i.st == .running && d.unpre q && i.endAs.isNone && i.mayAsk &&
    !(d.atsOut ++ d.atsWait).any fun r => r.q == q && r.own == .desc i.seq && r.va == va / 4096 * 4096

/-- The failed CARD_READs go on that can. -/
def Dev.zeroAll (d : Dev) : Dev :=
  (d.collect fun q i => i.zeros.isSome && d.canPut q i (dfld i.d 24 0 64)).foldl (fun d w => d.readZero w.1 w.2.seq) d

/-- A CARD_READ ends (R252, R256). -/
def Dev.readEnd (d : Dev) (q n st d0 d1 : Nat) : Dev :=
  let d := d.onMed fun m => { m with objs := fdel m.objs n }
  match d.bySeq q n with
  | none => d
  | some i =>
    if st != 0 && i.progress != 0 then (d.setIssued q { i with zeros := some (st, d1) }).readZero q n
    else Dev.done (d.endMover q n st (if st = 0 then d0 else 0) d1)

/-- The base of the load area and its key slot (R133). -/
def Dev.loadArea (d : Dev) : Nat × Nat :=
  match d.boot.image.standing with
  | some s => (s.base, s.key)
  | none => (0, 0)

/-- The standalone start fails in step 1 or 2 with a cause (R135). -/
def Dev.standFail (d : Dev) (cause : Nat) : Dev :=
  let st := d.rd F.BOOT_STANDING_STATE
  if st != 1 && st != 2 then d
  else
    let (base, key) := d.loadArea
    let d := if d.boot.loadPos = 0 then d else d.writeMem key base (List.replicate 64 0) 0 0
    let d := { d with boot := { d.boot with loadPos := 0, standStep := 0 } }.wr F.BOOT_STANDING_CAUSE cause
    let d := d.onMed fun m => { m with clients := m.clients.filter fun j => match j with | .standing _ => false | _ => true }
    let again := (cause == 1 || cause == 2) && d.boot.image.standing.any fun s => s.retry
    if again then d.setStanding 3 else (d.setStanding 6).wr F.CRD_STATUS_OWNER 0

/-- A mount fails (R462, R465, R473): what asked for it, and a CARD_READ that waits for it, fail with it. -/
def Dev.mountFail (d : Dev) (merr : Nat) (gone : Bool) : Dev :=
  let d := (d.wrs [(F.MED_STATUS_STATE, 3), (F.MED_STATUS_MERR, merr)]).postInfo 37 0x1821 merr
  let d := d.medDone (if gone then 2 else if merr = 5 then 1 else if merr = 4 then 4 else 7)
  let d := d.onMed fun m => { m with job := .none }
  let head := d.med.clients.head?
  let d := d.standFail (if merr != 5 then 3 else if gone then 2 else 1)
  let st := if gone then 9 else if merr = 5 then 8 else 0xD
  match head with
  | some (.recipe q n _) => (d.onMed fun m => { m with clients := m.clients.drop 1 }).readEnd q n st 0 0
  | some (.partition q n _) => (d.onMed fun m => { m with clients := m.clients.drop 1 }).readEnd q n st 0 0
  | _ => d

/-- Whether a client has begun to read: its page is the one in progress, or it has read one. -/
def Med.begun (m : Med) (j : MedJob) : Bool :=
  match j with
  | .recipe _ n _ => j == m.job || (fget m.objs n).isSome
  | .partition _ n _ => j == m.job || (fget m.objs n).isSome
  | _ => false

/-- The CARD_READs that have begun end with CARD_GONE. -/
def Dev.readsGone (d : Dev) : List MedJob → Dev
  | [] => d
  | .recipe q n _ :: js => (d.readEnd q n 9 0 0).readsGone js
  | .partition q n _ :: js => (d.readEnd q n 9 0 0).readsGone js
  | _ :: js => d.readsGone js

/-- The cartridge is no longer mounted (R462, R473): UNSAVED and LOG_READY clear, records not yet programmed are lost, and refresh,
patrol and map writes end. -/
def Dev.unmounted (d : Dev) : Dev :=
  let m := d.med
  let d := d.sat F.MED_CNT2_LOG_LOST m.logRecs.length
  { d with med := { clients := m.clients, objs := m.objs, cmd := m.cmd } }.wrs
    [(F.MED_STATUS_STATE, 0), (F.MED_STATUS_UNSAVED, 0), (F.MED_STATUS_LOG_READY, 0), (F.MED_STATUS_HDR_COPY, 0)]

/-- What a deactivation does to the cartridge (R457, R473, R135); `gone` says that it was none of an activation's own failures. -/
def Dev.mediaLost (d : Dev) (gone : Bool) : Dev :=
  let st := d.rd F.MED_STATUS_STATE
  let begun := d.med.clients.filter d.med.begun
  let d := d.onMed fun m => { m with clients := m.clients.filter fun j => !begun.contains j }
  let d := if st = 2 then (d.unmounted).medDone 2 else d
  let d := if st = 1 then d.mountFail (if gone then 5 else 4) gone else d
  (d.readsGone begun).standFail 2

/-! ### Deactivation (R432) -/

/-- The contacts after a deactivation: no step of it reads a line, so it runs to its end at once (log entry 40). The protocol
machines lose their state, and TWP clears (R454). -/
def Dev.contactsOff (d : Dev) : Dev :=
  let c := d.card
  let d := { d with cbp := {}, card := { c with
    vccEn := false, cls := 0, dir := false, c2 := false, clk := false, data := 0, step := .idle, tryCls := [],
    offGuard := c.offGuard || c.vccEn, warm := false, clkStop := false, t1 := {} } }
  d.wrs [(F.CRD_STATUS_CLASS, 0), (F.CBP_STATUS_STATE, 0), (F.CBP_STATUS_NS_TX, 0), (F.CBP_STATUS_NS_RX, 0), (F.CBP_STATUS_RATE, 0),
    (F.CBP_STATUS_FWI, 0), (F.CBP_STATUS_TWP, 0), (F.CBP_TPROT_TR, 0)]

/-- An activation that is in progress, or waits for the 10 ms of R416. -/
def Dev.activating (d : Dev) : Bool := d.card.step != .idle

/-- The deactivation sequence with its outcome (R432): result `r` of CRD_CMD and of an activation in progress, result `cr` of
CBP_CMD, and whether it ends in FAULT. `gone` is false for a failure of the activation itself. -/
def Dev.deact (d : Dev) (r cr : Nat) (fault gone : Bool) : Dev :=
  let act := d.activating
  let was := d.slot
  let d := d.crdDone r
  let d := d.contactsOff
  let d := d.onCard fun c => { c with byMount := false, byWide := none, noPps := false }
  let d := d.cbpDone cr
  let next := if !d.is F.CRD_STATUS_PRESENT then 0 else if fault || (was == 7) then 7 else 1
  let d := d.wr F.CRD_STATUS_STATE next
  let d := if act && r != 0 then (d.wr F.CRD_STATUS_LAST r).postInfo 37 0x1804 r else d
  d.mediaLost gone

/-- The card is deactivated by a brown-out or a thermal trip (R54, R112, R457). -/
def Dev.deactPower (d : Dev) : Dev := d.deact 2 2 false true

/-! ### Activation (R416–R419) -/

/-- The enabled classes in the order they are tried, as codes of CRD_CLASS: C, B, A (R414, R418). -/
def Dev.classOrder (d : Dev) : List Nat := [0, 1, 2].filter fun c => (d.rd F.CRD_CFG_CLASSES).testBit (2 - c)

/-- The transmission parameters at their defaults (R419, R421). -/
def Dev.paramsDefault (d : Dev) : Dev :=
  (d.wrs [(F.CRD_PARAM_FI, 1), (F.CRD_PARAM_DI, 1), (F.CRD_PARAM_N, 0), (F.CRD_PARAM_IFSC, 32), (F.CRD_PARAM_BWI, 4),
    (F.CRD_PARAM_CWI, 13), (F.CRD_PARAM2_EDC, 0), (F.CRD_PARAM2_XI, 0), (F.CRD_PARAM2_CLS, 0),
    (F.CRD_PARAM2_DIV, d.rd F.CRD_TIMING_ISO_DIV), (F.CRD_PARAM2_ATR_LEN, 0), (F.CRD_STATUS_PPS_DONE, 0)]).wrs
    ((List.range 9).map fun j => (F.CRD_ATR_DATA j, 0))

/-- Step 1 of a cold activation at class `c`, or the wait for 10 ms after the last fall of CRD_VCC_EN (R416, R417). -/
def Dev.startClass (d : Dev) (c : Nat) (rest : List Nat) : Dev :=
  if d.card.offGuard then d.onCard fun x => { x with step := .guard, tryCls := c :: rest }
  else
    let d := d.onCard fun x => { x with
      step := .setup, tryCls := rest, cls := c, dir := false, c2 := false, clk := false, data := 0, t1 := {} }
    d.paramsDefault.wrs [(F.CRD_STATUS_STATE, 2), (F.CRD_STATUS_CLASS, c)]

/-- A cold activation begins (R416, R418). -/
def Dev.beginAct (d : Dev) : Dev :=
  if d.activating then d
  else
    let d := (d.onCard fun c => { c with failed := 14, noPps := false }).wr F.CRD_STATUS_PPS_FAILED 0
    match d.classOrder with
    | c :: cs => d.startClass c cs
    | [] => (d.onCard fun c => { c with step := .setup }).deact 14 4 false false

/-- An attempt of an activation ends with `r` (R418): the next class, through a deactivation, when `r` is NO_ATR, VCC_FAULT or a
class mismatch and one is left; else the activation fails with `r`. -/
def Dev.attemptFail (d : Dev) (r : Nat) : Dev :=
  let next := r == 3 || r == 7 || r == 14
  match d.card.tryCls with
  | c :: cs =>
    if next then
      let d := (d.onCard fun x => { x with failed := r }).contactsOff
      (d.wr F.CRD_STATUS_STATE 1).startClass c cs
    else d.deact r 4 false false
  | [] => d.deact r 4 (r == 7) false

/-- A deactivation that is followed by a new activation at class `c` (R422, R438). -/
def Dev.again (d : Dev) (cs : List Nat) : Dev :=
  let d := (d.contactsOff).wr F.CRD_STATUS_STATE 1
  match cs with
  | c :: cs => d.startClass c cs
  | [] => d

/-! ### Blocks of T=1 (R424) -/

/-- One bit of the CRC of ISO/IEC 13239, reflected. -/
def crc16Bit (c : Nat) : Nat := if c % 2 = 1 then (c / 2) ^^^ 0x8408 else c / 2
/-- One byte into that CRC. -/
def crc16Byte (c : Nat) (b : Byte) : Nat := (List.range 8).foldl (fun c _ => crc16Bit c) (c ^^^ b.toNat)
/-- The CRC of ISO/IEC 13239 (PRESUMED, log entry 41). -/
def crc16 (bs : List Byte) : Nat := 0xFFFF - bs.foldl crc16Byte 0xFFFF

/-- The EDC of a block: LRC or CRC, as the ATR indicates. -/
def Dev.t1Edc (d : Dev) (bs : List Byte) : List Byte :=
  if d.is F.CRD_PARAM2_EDC then toBytes 2 (crc16 bs) else [bs.foldl (· ^^^ ·) 0]

/-- A block with NAD 0x00. -/
def Dev.t1Block (d : Dev) (pcb : Nat) (inf : List Byte) : List Byte :=
  let p := 0 :: BitVec.ofNat 8 pcb :: BitVec.ofNat 8 inf.length :: inf
  p ++ d.t1Edc p

/-- Sends a block and keeps it for a repeat. -/
def Dev.t1Send (d : Dev) (pcb : Nat) (inf : List Byte) : Dev :=
  let b := d.t1Block pcb inf
  (d.onT1 fun t => { t with last := b, wtx := 1 }).send (.t1 b)

/-- Sends the next I-block of the APDU: at most IFSC bytes, with M while more follow. -/
def Dev.t1SendI (d : Dev) : Dev :=
  let t := d.card.t1
  let n := d.rd F.CRD_PARAM_IFSC
  let more := n < t.tx.length - t.sent
  d.t1Send ((if t.nsTx then 0x40 else 0) + (if more then 0x20 else 0)) ((t.tx.drop t.sent).take n)

/-- Starts an exchange of an APDU for `job`. -/
def Dev.t1Start (d : Dev) (job : T1Job) (apdu : List Byte) : Dev :=
  (d.onT1 fun t => { t with job := job, tx := apdu, sent := 0, rx := [], bad := 0, resynch := 0, resent := false }).t1SendI

/-- The clock runs again in CLKSTOP, and the slot is in ISO (R430). -/
def Dev.clkRestart (d : Dev) : Dev :=
  if d.slot = 4 then (d.onCard fun c => { c with clk := true, clkStop := false }).wr F.CRD_STATUS_STATE 3
  else d.onCard fun c => { c with clkStop := false }

/-- S(WIDE request) with rate code `r` (R436). -/
def Dev.wideRequest (d : Dev) (r : Nat) : Dev :=
  let d := d.clkRestart
  let d := { d with cbp := { d.cbp with tryRate := r, wideStep := 0 } }.wr F.CBP_STATUS_STATE 1
  let d := d.onT1 fun t => { t with job := .wide, tx := [], sent := 0, rx := [], bad := 0, resynch := 0, resent := false }
  d.t1Send 0xCA [1, BitVec.ofNat 8 r]

end Sys2Proof.Machine
end

