-- ==== Sys2Proof/Machine/CbpOps.lean ====
section
/-! DEFINITION. The Crimin block protocol: frames, command chains, recovery, and what ends a cartridge command (chapter 19). -/

namespace Sys2Proof.Machine

/-- Changes the CBP machine beside its registers. -/
def Dev.onCbp (d : Dev) (f : Cbp → Cbp) : Dev := { d with cbp := f d.cbp }

/-! ### Frames (R441, R442) -/

/-- A frame: SOF, PCB, LEN, INF, CRC. -/
def mkFrame (pcb : Nat) (inf : List Byte) : List Byte :=
  let body := BitVec.ofNat 8 pcb :: toBytes 2 inf.length ++ inf
  0xA5 :: body ++ toBytes 4 (crc32 body).toNat

/-- PCB and INF of a frame with a good SOF, LEN and CRC. -/
def parseFrame (f : List Byte) : Option (Nat × List Byte) :=
  let n := bytesAt f 2 2
  let body := (f.drop 1).take (3 + n)
  if bytesAt f 0 1 == 0xA5 && f.length == n + 8 && decide (n ≤ 2320) && bytesAt f (4 + n) 4 == (crc32 body).toNat then
    some (bytesAt f 1 1, body.drop 3) else none

/-- The device sends `f` in wide mode (R440): after its last nibble CRD_DIR is high, and the card owns the bus. -/
def Dev.cbpOut (d : Dev) (f : List Byte) : Dev := (d.onCard fun c => { c with dir := true }).send (.cbp f)

/-- The card has sent a frame and released the bus, or the device takes it after a time-out (R440): CRD_DIR is low. -/
def Dev.cbpIn (d : Dev) : Dev := d.onCard fun c => { c with dir := false }

/-- Sends a frame and keeps it for a repeat. -/
def Dev.frameSend (d : Dev) (pcb : Nat) (inf : List Byte) : Dev :=
  let f := mkFrame pcb inf
  (d.onCbp fun c => { c with lastFrame := f, wtx := 1 }).cbpOut f

/-! ### Command chains (R443, R449) -/

/-- The INF of frame `k` of a chain: the header with segment 0, then one segment in each. -/
def chainInf (tx : List Byte) (k : Nat) : List Byte :=
  if k = 0 then tx.take 2312 else (tx.drop (2312 + 2304 * (k - 1))).take 2304

/-- Whether frame `k` is the last of a chain. -/
def chainLast (tx : List Byte) (k : Nat) : Bool := decide (tx.length ≤ 2312 + 2304 * k)

/-- Sends frame `k` of the command chain; N(S) alternates (R442). -/
def Dev.chainSend (d : Dev) (k : Nat) : Dev :=
  let c := d.cbp
  let ns := d.rd F.CBP_STATUS_NS_TX
  let d := (d.onCbp fun c => { c with sent := k }).wr F.CBP_STATUS_NS_TX (1 - ns)
  d.frameSend (ns * 0x40 + (if chainLast c.tx k then 0 else 0x20)) (chainInf c.tx k)

/-- Sends the command from its first frame. -/
def Dev.chainStart (d : Dev) : Dev :=
  ((d.onCbp fun c => { c with rx := [], frames := 0, bad := 0 }).wr F.CBP_STATUS_STATE
    (if d.cbp.job == .identify then 1 else 3)).chainSend 0

/-- S(WAKE request), 64 cycles after CLK has restarted (R448). -/
def Dev.wakeStart (d : Dev) : Dev :=
  ((d.onCard fun c => { c with clk := true }).onCbp fun c => { c with wakeReq := true, bad := 3, resynch := 0, lastFrame := [] }).frameSend 0xC5 []

/-- Starts a cartridge command (R449); a card that sleeps is woken first (R448). -/
def Dev.cbpStart (d : Dev) (job : CbpJob) (code flags arg16 arg32 : Nat) (data : List Byte) : Dev :=
  let hdr := toBytes 1 code ++ toBytes 1 flags ++ toBytes 2 arg16 ++ toBytes 4 arg32
  let asleep := d.rd F.CBP_STATUS_STATE == 4
  let d := d.onCbp fun c => { c with
    job := job, code := code, flags := flags, arg16 := arg16, arg32 := arg32, tx := hdr ++ data, sent := 0, rx := [], frames := 0,
    bad := 0, resynch := 0, resent := false, awaitResynch := false, mres := none, wakeFor := asleep }
  if asleep then (d.wr F.CBP_STATUS_STATE 3).wakeStart else d.chainStart

/-- Whether the bus is free for a new command or for sleep: wide mode, nothing in progress, no result left to take. -/
def Dev.cbpIdle (d : Dev) : Bool :=
  (d.rd F.CBP_STATUS_STATE == 2 || d.rd F.CBP_STATUS_STATE == 4) && d.cbp.job == .none && !d.cbp.sleepReq && !d.cbp.wakeReq && d.cbp.mres.isNone

/-! ### Protection (R449, R454) -/

/-- Whether block `b` lies in a range register's range. -/
def inRange (r b : Nat) : Bool := decide (bits r 0 14 ≤ b) && decide (b ≤ bits r 16 14)
/-- Whether block `b` is protected against program and erase. -/
def Dev.isProtected (d : Dev) (b : Nat) : Bool :=
  (d.is F.CBP_STATUS_PWP && inRange (d.rd F.CBP_PROT_PR) b) || (d.is F.CBP_STATUS_TWP && inRange (d.rd F.CBP_TPROT_TR) b)

/-! ### IDENTIFY (R450) -/

/-- Whether IDENTIFY data obey the required values. -/
def identOk (x : List Byte) (flags : Nat) : Bool :=
  let range (o : Nat) (on : Bool) : Bool :=
    let r := bytesAt x o 4
    if on then decide (bits r 0 14 ≤ bits r 16 14) && decide (bits r 16 14 < bytesAt x 14 2) && bits r 14 2 == 0 && bits r 30 2 == 0
    else r == 0
  x.length == 64 && bytesAt x 0 4 == 0x4D495243 && bytesAt x 4 1 == 1 && decide (1 ≤ bytesAt x 5 1) && decide (bytesAt x 5 1 ≤ 8) &&
    decide (bytesAt x 6 1 ≤ 3) && bytesAt x 7 1 == 0 && bytesAt x 8 2 == 16384 && bytesAt x 10 2 == 2048 && bytesAt x 12 2 == 256 &&
    decide (1 ≤ bytesAt x 14 2) && decide (bytesAt x 14 2 ≤ 16384) && range 16 (flags % 2 == 1) && range 20 (flags / 2 % 2 == 1) &&
    bytesAt x 38 26 == 0

/-- Takes over IDENTIFY data and CARD_FLAGS (R452–R455). -/
def Dev.takeIdent (d : Dev) (x : List Byte) (flags : Nat) : Dev :=
  let d := d.onCbp fun c => { c with retries := bytesAt x 5 1, blocks := bytesAt x 14 2 }
  (d.wrs [(F.CBP_STATUS_PWP, flags), (F.CBP_STATUS_TWP, flags / 2), (F.CBP_PROT_PR, bytesAt x 16 4),
    (F.CBP_TPROT_TR, bytesAt x 20 4)]).wrs ((List.range 16).map fun j => (F.CBP_ID_DATA j, bytesAt x (4 * j) 4))

/-! ### Results (R447, R451, R455) -/

/-- Card STATUS; a reserved value counts as BAD_COMMAND. -/
def cardSt (s : Nat) : Nat := if s ≤ 7 then s else 5

/-- The words of CBP_BUF from bytes (R455). -/
def bufFields (x : List Byte) : List (Fld × Nat) := (List.range 4608).map fun j => (F.CBP_BUF_DATA j, bytesAt x (4 * j) 4)
/-- The raw page in CBP_BUF. -/
def Dev.bufBytes (d : Dev) : List Byte := (List.range 4608).flatMap fun j => toBytes 4 (d.rd (F.CBP_BUF_DATA j))

/-- The bus is idle again. -/
def Dev.cbpFree (d : Dev) : Dev := (d.onCbp fun c => { c with job := .none }).wr F.CBP_STATUS_STATE 2

/-- Entry to wide mode fails in its first command after the recovery (R438): the next lower rate code after a new activation, or
PROTOCOL. -/
def Dev.wideRetry (d : Dev) : Dev :=
  let r := d.cbp.tryRate
  if r = 0 then d.deact 9 4 false false
  else
    let c := d.card.cls
    (d.onCard fun x => { x with byWide := some (r - 1), noPps := false, failed := 14 }).again [c]

/-- The last recovery step has failed (R446): the card is deactivated, and the command completes with PROTOCOL. -/
def Dev.cbpFail (d : Dev) : Dev := if d.cbp.job == .identify then d.wideRetry else d.deact 9 4 false true

/-- A command ends with INDETERMINATE (R447, R456). -/
def Dev.cbpIndet (d : Dev) : Dev :=
  let c := d.cbp
  let d := (d.sat F.CBP_CNT_INDET).postInfo 37 0x1812 (c.code + c.arg32 * 2 ^ 32)
  match c.job with
  | .host => (d.cbpFree).cbpDone 5
  | .media => (d.cbpFree).onCbp fun c => { c with mres := some (5, []) }
  | _ => d.cbpFree

/-! ### Recovery (R446) -/

/-- Sends S(RESYNCH request), or fails after three. -/
def Dev.resynchNext (d : Dev) : Dev :=
  if d.cbp.resynch < 3 then
    ((d.onCbp fun c => { c with resynch := c.resynch + 1, awaitResynch := true }).wr F.CBP_STATUS_STATE 5).frameSend 0xC0 []
  else d.cbpFail

/-- An invalid frame, or none in time; `kind` is the error indication, 1 CRC or framing, 2 other. -/
def Dev.frameBad (d : Dev) (kind : Nat) : Dev :=
  if d.cbp.awaitResynch || 3 ≤ d.cbp.bad then d.resynchNext
  else
    let f := mkFrame (0x80 + d.rd F.CBP_STATUS_NS_RX * 0x10 + kind) []
    ((d.onCbp fun c => { c with bad := c.bad + 1 }).sat F.CBP_CNT_RERR).cbpOut f

/-- Repeats the last frame, which counts towards the three of step 1. -/
def Dev.frameRepeat (d : Dev) : Dev :=
  if d.cbp.awaitResynch || 3 ≤ d.cbp.bad then d.resynchNext
  else (d.onCbp fun c => { c with bad := c.bad + 1 }).cbpOut d.cbp.lastFrame

/-- Whether the device waits for a frame of the card. -/
def Dev.cbpWaiting (d : Dev) : Bool :=
  (d.cbp.job != .none && (d.rd F.CBP_STATUS_STATE != 1 || d.cbp.wideStep == 4)) || d.cbp.sleepReq || d.cbp.wakeReq

/-! ### CBP_CMD (R436, R448, R455) -/

/-- Why a RAW is not sent: 0 where it is (R452, R454, R455). -/
def Dev.rawRefused (d : Dev) : Nat :=
  let code := d.rd F.CBP_RAW_CODE
  let a := d.rd F.CBP_RAW_ARG_ARG32
  if code = 0 || 7 < code || (code == 6 && d.rd F.CBP_RAW_ARG16 != 0x5057) then 10
  else if (3 ≤ code && code ≤ 6) && d.rd F.MED_STATUS_STATE == 2 then 8
  else if (code == 3 || code == 4) && d.isProtected (bits a 8 14) then 6
  else 0

/-- Sends the RAW command of CBP_RAW and CBP_RAW_ARG, or puts the card to sleep, once the bus is free. -/
def Dev.hostOpStart (d : Dev) (op : Nat) : Dev :=
  let d := d.onCbp fun c => { c with hostOp := none }
  if op = 1 then
    if d.rd F.CBP_STATUS_STATE = 4 then d.cbpDone 9
    else ((d.onCbp fun c => { c with sleepReq := true, bad := 0, resynch := 0 }).wr F.CBP_STATUS_STATE 3).frameSend 0xC4 []
  else
    let e := d.rawRefused
    if e != 0 then d.cbpDone e
    else
      let code := d.rd F.CBP_RAW_CODE
      d.cbpStart .host code (d.rd F.CBP_RAW_FLAGS) (d.rd F.CBP_RAW_ARG16) (d.rd F.CBP_RAW_ARG_ARG32)
        (if code = 3 then d.bufBytes else [])

/-- A CBP_CMD operation of requester class `owned` (R433): 0 ENTER_WIDE, 1 SLEEP, 2 WAKE, 3 RAW. -/
def Dev.cbpCmd (d : Dev) (owned : Bool) (op : Nat) : Dev :=
  if d.is F.CBP_CMD_BUSY then d
  else
    let d := d.wrs [(F.CBP_CMD_OP, op), (F.CBP_CMD_BUSY, 1)]
    let wide := d.slot == 5
    if owned then d.cbpDone 8
    else if d.slot = 0 then d.cbpDone 1
    else if op = 0 then
      if (d.slot == 3 || d.slot == 4) && d.card.t1.job == .none && d.rd F.CBP_STATUS_STATE == 0 then d.wideRequest (d.rd F.CBP_CFG_RATE)
      else d.cbpDone 9
    else if !wide then d.cbpDone 9
    else if op = 2 then
      if d.rd F.CBP_STATUS_STATE = 4 && d.cbpIdle then d.wakeStart else d.cbpDone 9
    else if d.cbpIdle then d.hostOpStart op
    else d.onCbp fun c => { c with hostOp := some op }

/-- Whether host accesses to the card are refused (R433). -/
def Dev.owned (d : Dev) (req : Requester) : Bool := d.is F.CRD_STATUS_OWNER && req != .mover 0

end Sys2Proof.Machine
end

