-- ==== Sys2Proof/Machine/MediaOps.lean ====
section
/-! DEFINITION. The media engine: partitions, the map, the LOG ring, and which page operation comes next (chapter 20). -/

namespace Sys2Proof.Machine

/-! ### Blocks (R461, R463, R464) -/

/-- Whether block `b` is bad. -/
def Med.isBad (m : Med) (b : Nat) : Bool := m.map.bad.contains b
/-- The blocks from `a` to `b`. -/
def blocksFrom (a b : Nat) : List Nat := (List.range (b + 1 - a)).map (a + ·)
/-- The number of logical RECIPE blocks. -/
def Med.logical (m : Med) : Nat := m.hdr.rcpL + 1 - m.hdr.rcpF - m.hdr.spare
/-- The physical block of logical block `l`. -/
def Med.phys (m : Med) (l : Nat) : Nat := (m.map.repl.lookup l).getD (m.hdr.rcpF + l)
/-- The logical block that physical block `p` holds. -/
def Med.logOf (m : Med) (p : Nat) : Option Nat := (List.range m.logical).find? fun l => m.phys l == p
/-- The free pool. -/
def Med.pool (m : Med) : List Nat :=
  (blocksFrom m.hdr.rcpF m.hdr.rcpL).filter fun b => !m.isBad b && !(m.map.repl.any fun e => e.2 == b) && (m.logOf b).isNone

/-- The blocks of a partition in ring order after block `b`, `b` itself last. -/
def ringAfter (f l b : Nat) : List Nat := blocksFrom (b + 1) l ++ blocksFrom f b

/-- The next block of a ring after `b` that is good and not protected. -/
def Dev.nextGood (d : Dev) (f l b : Nat) : Option Nat :=
  (ringAfter f l b).find? fun x => decide (f ≤ x) && !d.med.isBad x && !d.isProtected x

/-- The cartridge time in minutes (R471). -/
def Dev.cartTime (d : Dev) : Nat := (d.med.ctBase + (d.uptime - d.med.ctUp) / 60000000) % 2 ^ 32

/-! ### Page operations -/

/-- The row address of a page (R449). -/
def row (blk page : Nat) : Nat := blk * 256 + page

/-- Reads a page at a retry index. -/
def Dev.medRead (d : Dev) (retry blk page : Nat) : Dev := d.cbpStart .media 2 retry 0 (row blk page) []
/-- Starts to read a page whose sectors `need` are needed. -/
def Dev.readPage (d : Dev) (j : MedJob) (blk page : Nat) (need : List Nat) : Dev :=
  (d.onMed fun m => { m with job := j, retry := 0, need := need, page := [] }).medRead 0 blk page
/-- Starts to program a page of 8 sectors. -/
def Dev.progPage (d : Dev) (j : MedJob) (blk page : Nat) (raw : List Byte) : Dev :=
  (d.onMed fun m => { m with job := j }).cbpStart .media 3 0 0 (row blk page) raw
/-- Starts to erase a block. -/
def Dev.eraseBlock (d : Dev) (j : MedJob) (blk : Nat) : Dev :=
  (d.onMed fun m => { m with job := j }).cbpStart .media 4 0 0 (row blk 0) []

/-! ### Map pages (R463) -/

/-- The 16 bytes of a directory entry. -/
def DirEntry.toBytes (e : DirEntry) : List Byte :=
  Machine.toBytes 4 e.id ++ Machine.toBytes 4 e.len ++ Machine.toBytes 2 e.first ++ [0, 0] ++ Machine.toBytes 4 e.ocrc

/-- Bytes filled up with 0xFF to length `n`. -/
def fill (n : Nat) (bs : List Byte) : List Byte := (bs ++ List.replicate (n - bs.length) 0xFF).take n

/-- The 16,384 data bytes of a map page. -/
def MapPage.data (m : MapPage) : List Byte :=
  let bit (b : Nat) : Nat := if m.bad.contains b then 1 else 0
  ((List.range 2048).map fun k => BitVec.ofNat 8 ((List.range 8).map fun i => bit (8 * k + i) * 2 ^ i).sum) ++
    fill 6144 (m.dir.flatMap DirEntry.toBytes) ++
    fill 8192 (m.repl.flatMap fun e => toBytes 2 e.1 ++ toBytes 2 e.2)

/-- The map that a page's data bytes give. -/
def MapPage.parse (x : List Byte) (seq stamp : Nat) : MapPage :=
  let entry (k : Nat) : DirEntry :=
    let o := 2048 + 16 * k
    { id := bytesAt x o 4, len := bytesAt x (o + 4) 4, first := bytesAt x (o + 8) 2, ocrc := bytesAt x (o + 12) 4 }
  let repl (k : Nat) : Nat × Nat := (bytesAt x (8192 + 4 * k) 2, bytesAt x (8194 + 4 * k) 2)
  { bad := (List.range 16384).filter fun b => (bytesAt x (b / 8) 1).testBit (b % 8),
    dir := ((List.range 384).map entry).filter fun e => e.id != 0xFFFFFFFF,
    repl := ((List.range 2048).map repl).filter fun e => e != (0xFFFF, 0xFFFF),
    seq := seq, stamp := stamp }

/-- A page of 8 sectors of a partition from its data bytes, with one PFLAGS for each. -/
def mkPage (data : List Byte) (part seq stamp erases : Nat) (pflags : Nat → Nat) : List Byte :=
  (List.range 8).flatMap fun s => encodeSector ((data.drop (2048 * s)).take 2048) part s (pflags s) seq stamp erases

/-- Starts to write the map page: to the next page of the active block, or, when that is full, to an erased next block; where none can
be written the map is UNSAVED. -/
def Dev.mapStart (d : Dev) : Dev :=
  let m := d.med
  let d := d.onMed fun m => { m with mapDue := false, map := { m.map with seq := (m.map.seq + 1) % 2 ^ 32 } }
  if m.mapPage < 255 && !m.isBad m.mapBlk && !d.isProtected m.mapBlk then
    d.progPage (.mapProg m.mapBlk (m.mapPage + 1)) m.mapBlk (m.mapPage + 1) (mkPage d.med.map.data 1 d.med.map.seq d.cartTime 0 fun _ => 0)
  else
    match d.nextGood m.hdr.bbtF m.hdr.bbtL m.mapBlk with
    | some b => d.eraseBlock (.mapErase b) b
    | none => (d.wr F.MED_STATUS_UNSAVED 1).postInfo 37 0x1826 d.med.map.seq

/-! ### The LOG (R472) -/

/-- Puts a record into the LOG; the eighth makes its page due. -/
def Dev.logPush (d : Dev) (engine : Bool) (payload : List Byte) : Dev := d.onMed fun m =>
  let rs := m.logRecs ++ [(engine, payload)]
  { m with logRecs := rs, logDue := m.logDue || decide (8 ≤ rs.length) }

/-- An engine record: its type and the block concerned. -/
def Dev.logEngine (d : Dev) (type blk : Nat) : Dev := d.logPush true (toBytes 2 type ++ toBytes 2 blk)

/-- The page of the first eight records. -/
def Dev.logBytes (d : Dev) : List Byte :=
  let rs := d.med.logRecs.take 8
  let data := (List.range 8).flatMap fun s =>
    let p := (rs.getD s (false, [])).2
    (toBytes 2 p.length ++ p ++ List.replicate 2046 0).take 2048
  mkPage data 3 (d.med.logSeq + 1) d.cartTime d.med.logErases fun s => if (rs.getD s (false, [])).1 then 1 else 0

/-- Starts to write the LOG page that is due. Before the writer enters a block, the next good block of the ring is erased; where no
block can be written the records are lost. -/
def Dev.logStart (d : Dev) : Dev :=
  let m := d.med
  if m.logPage < 256 && !m.isBad m.logBlk && !d.isProtected m.logBlk then
    d.progPage (.logProg m.logBlk m.logPage) m.logBlk m.logPage d.logBytes
  else
    match d.nextGood m.hdr.logF m.hdr.logL m.logBlk with
    | some k =>
      match d.nextGood m.hdr.logF m.hdr.logL k with
      | some e => d.readPage (.logCount e) e 0 [0]
      | none => d
    | none =>
      (d.onMed fun m => { m with logRecs := [], logDue := false }).sat F.MED_CNT2_LOG_LOST m.logRecs.length

/-! ### Refresh and patrol (R469, R470) -/

/-- Whether a refresh of block `p` is blocked, and the block it would take. -/
def Dev.refreshTo (d : Dev) (p : Nat) : Option Nat :=
  match d.med.pool with
  | r :: _ => if d.isProtected p || d.isProtected r then none else some r
  | [] => none

/-- Block `p` is left as it is: SCRUB_BLOCKED once per mount. -/
def Dev.scrubBlocked (d : Dev) (p : Nat) : Dev :=
  let d' := d.onMed fun m => { m with due := m.due.filter (· != p), next := .none, blocked := if m.blocked.contains p then m.blocked else m.blocked ++ [p] }
  if d.med.blocked.contains p then d' else d'.postInfo 37 0x1824 p

/-- Takes up the refresh of block `p`: a HEADER copy in place, a RECIPE block to a block of the free pool. -/
def Dev.refreshStart (d : Dev) (p : Nat) : Dev :=
  if p < 4 then
    if d.isProtected p then d.scrubBlocked p
    else d.onMed fun m => { m with next := .hdrRead p (d.rd F.MED_STATUS_HDR_COPY) }
  else
    match d.med.logOf p, d.refreshTo p with
    | some l, some r => d.onMed fun m => { m with next := .refErase l p r }
    | some _, none => d.scrubBlocked p
    | none, _ => d.onMed fun m => { m with due := m.due.filter (· != p) }

/-- The pages the patrol checks, in order (R469). -/
def Med.patrolPages (m : Med) : List (Nat × Nat) :=
  let blocks := (m.map.dir.flatMap fun e => (List.range ((e.len + 4194303) / 4194304)).map fun k => m.phys (e.first + k)).eraseDups
  (List.range 4).map (fun b => (b, 0)) ++ [(m.mapBlk, m.mapPage)] ++ blocks.flatMap fun b => (List.range 256).map fun p => (b, p)

/-- Starts the page operation of a refresh. -/
def Dev.nextStart (d : Dev) : Dev :=
  let j := d.med.next
  let d := d.onMed fun m => { m with next := .none }
  let all := List.range 8
  match j with
  | .hdrRead _ src => d.readPage j src 0 [0]
  | .hdrErase b => d.eraseBlock j b
  | .hdrProg b =>
    let s := (fget d.med.buf 0).getD []
    d.progPage j b 0 (encodeSector (s.take 2048) 0 0 0 (bytesAt s 2052 4) d.cartTime (bytesAt s 2060 4) ++ List.replicate 16128 0xFF)
  | .refErase _ _ r => d.eraseBlock j r
  | .refRead _ p _ page => d.readPage j p page all
  | .refProg _ _ r page =>
    let one (k : Nat) : List Byte :=
      match fget d.med.buf k with
      | some s => if bytesAt s 2048 1 != 0x5A then List.replicate 2304 0xFF
                  else encodeSector (s.take 2048) (bytesAt s 2049 1) (bytesAt s 2050 1) (bytesAt s 2051 1) (bytesAt s 2052 4) d.cartTime
                    (bytesAt s 2060 4)
      | none => List.replicate 2304 0xFF
    d.progPage j r page (all.flatMap one)
  | _ => d

/-! ### Clients (R465–R467) -/

/-- The directory entry with an ID. -/
def Med.entry (m : Med) (id : Nat) : Option DirEntry := m.map.dir.find? fun e => e.id == id

/-- The sectors of page `p` of an object that hold its bytes `lo` to `hi - 1`. -/
def sectorsOf (lo hi p : Nat) : List Nat :=
  (List.range 8).filter fun s => decide (lo < 16384 * p + 2048 * (s + 1)) && decide (16384 * p + 2048 * s < hi)

/-- The pages of a partition, as block and page: 0 HEADER, 1 BBT, 2 RECIPE, 3 LOG from the oldest retained page to the head (R466). -/
def Med.partBlocks (m : Med) (part : Nat) : List Nat :=
  match part with
  | 0 => (blocksFrom 0 3).filter fun b => !m.isBad b
  | 1 => (blocksFrom m.hdr.bbtF m.hdr.bbtL).filter fun b => !m.isBad b
  | 2 => (List.range m.logical).map m.phys
  | _ => ((ringAfter m.hdr.logF m.hdr.logL m.logBlk).filter fun b => decide (m.hdr.logF ≤ b) && !m.isBad b).drop 1

/-- The data bytes of a partition; a LOG without a page has none. -/
def Med.partBytes (m : Med) (part : Nat) : Nat :=
  let n := (m.partBlocks part).length
  if part = 3 then (if m.logSeq = 0 then 0 else 16384 * (256 * (n - 1) + m.logPage)) else 16384 * 256 * n

/-- Drops the first client that meets `j`. -/
def Dev.dropClient (d : Dev) (j : MedJob) : Dev := d.onMed fun m => { m with clients := m.clients.erase j }

/-- A CARD_READ of the client ends. -/
def Dev.clientEnd (d : Dev) (j : MedJob) (st d0 d1 : Nat) : Dev :=
  match j with
  | .recipe q n _ => (d.dropClient j).readEnd q n st d0 d1
  | .partition q n _ => (d.dropClient j).readEnd q n st d0 d1
  | .standing _ => (d.dropClient j).standFail (match st with | 8 => 1 | 9 => 2 | 0xA => 4 | 0xB => 5 | _ => 6)
  | _ => d

/-- The largest corrected-bit count of a client so far. -/
def Med.worst (m : Med) (n : Nat) : Nat := ((fget m.objs n).getD ([], 0)).2
/-- The key of the standing load among the objects. -/
def standKey : Nat := 2 ^ 64

/-- Reads page `p` of the recipe with entry `e` for client `j`. -/
def Dev.recipePage (d : Dev) (j : MedJob) (e : DirEntry) (p : Nat) (worst : Nat) : Dev :=
  let l := e.first + p / 256
  let b := d.med.phys l
  if d.med.logical ≤ l || d.med.isBad b then d.clientEnd j 0xD 0 worst
  else d.readPage j b (p % 256) (sectorsOf 0 e.len p)

/-- Checks 3 and 4 of a recipe load, then its page `p` (R465). -/
def Dev.recipeStart (d : Dev) (j : MedJob) (id max p key : Nat) : Dev :=
  match d.med.entry id with
  | none => d.clientEnd j 0xA 0 0
  | some e => if e.len < 64 || max < e.len then d.clientEnd j 0xB 0 0 else d.recipePage j e p (d.med.worst key)

/-- Serves client `j` of a mounted cartridge. -/
def Dev.clientStart (d : Dev) (j : MedJob) : Dev :=
  match j with
  | .standing p =>
    match d.boot.image.standing with
    | some s => d.recipeStart j s.recipe s.max p standKey
    | none => d.dropClient j
  | .recipe q n p =>
    match d.bySeq q n with
    | some i => d.recipeStart j (dfld i.d 12 0 32) (dfld i.d 32 0 32) p n
    | none => d.dropClient j
  | .partition q n pos =>
    match d.bySeq q n with
    | none => d.dropClient j
    | some i =>
      let part := dfld i.d 8 2 2
      let off := dfld i.d 16 0 64
      let total := d.med.partBytes part
      let len := min (dfld i.d 32 0 32) (total - off)
      if total ≤ off then d.clientEnd j 0x85 0 0
      else if len ≤ pos then d.clientEnd j 0 len (d.med.worst n)
      else
        let p := (off + pos) / 16384
        d.readPage j ((d.med.partBlocks part).getD (p / 256) 0) (p % 256) (sectorsOf (off + pos) (off + len) p)
  | _ => d.dropClient j

/-- Whether client `j` can be served now: its descriptor runs, with a mover place and the translation of the page it is to write, and
a LOG partition is known (R211, R465–R467). -/
def Dev.clientReady (d : Dev) (j : MedJob) : Bool :=
  let runs (q n : Nat) : Bool :=
    match d.bySeq q n with
    | some i => i.zeros.isNone && d.canPut q i (i.pos true)
    | none => true
  match j with
  | .recipe q n _ => runs q n
  | .partition q n _ =>
    runs q n && ((d.bySeq q n).all fun i => dfld i.d 8 2 2 != 3 || d.is F.MED_STATUS_LOG_READY)
  | _ => true

/-- A mount begins (R462). -/
def Dev.mountBegin (d : Dev) : Dev :=
  let d := d.wrs [(F.MED_STATUS_STATE, 1), (F.MED_STATUS_MERR, 0)]
  let wait := d.onCard fun c => { c with byMount := true }
  match d.slot with
  | 0 => d.mountFail 5 false
  | 1 => wait.beginAct
  | 2 => wait
  | 3 => if d.card.t1.job == .none then d.wideRequest (d.rd F.CBP_CFG_RATE) else wait
  | 4 => d.wideRequest (d.rd F.CBP_CFG_RATE)
  | 5 => wait
  | _ => d.mountFail 4 false

/-- What the engine does next while it is idle and the cartridge is mounted (R467): CARD_READs, MED_CMD, LOG programs and map pages,
refresh, patrol. Answers whether something else may be done after it at once. -/
def Dev.serve (d : Dev) : Dev × Bool :=
  match d.med.clients.find? d.clientReady with
  | some j => (d.clientStart j, true)
  | none =>
    let ready := d.is F.MED_STATUS_LOG_READY
    let m := d.med
    let log := (m.logDue || m.cmd == some 1 || m.cmd == some 2) && !m.logRecs.isEmpty
    if m.cmd == some 3 && ready then
      let n := d.rd F.MED_LOG_LEN_LEN
      let bytes := (((List.range 512).flatMap fun j => toBytes 4 (d.rd (F.MED_LBUF_DATA j)))).take n
      ((d.logPush false bytes).medDone 0, true)
    else if log && ready then (d.logStart, m.logRecs.isEmpty)
    else if m.cmd == some 2 && m.logRecs.isEmpty then (d.medDone 0, true)
    else if m.mapDue then (d.mapStart, true)
    else if m.cmd == some 1 && m.logRecs.isEmpty then ((d.medDone 0).unmounted, true)
    else if m.next != .none then (d.nextStart, false)
    else if m.patrolDue then
      let ps := m.patrolPages
      let p := ps.getD (m.patrolPos % ps.length) (0, 0)
      ((d.onMed fun m => { m with patrolDue := false, patrolPos := (m.patrolPos + 1) % ps.length }).readPage (.patrol p.1 p.2) p.1 p.2
        (List.range 8), false)
    else (d, false)

/-- Starts what waits for the cartridge, as far as the bus and the engine are free. -/
def Dev.medKick : Nat → Dev → Dev
  | 0, d => d
  | n + 1, d =>
    let st := d.rd F.MED_STATUS_STATE
    if d.med.job != .none then d
    else if d.slot = 5 && d.cbpIdle && d.cbp.hostOp.isSome then (d.hostOpStart (d.cbp.hostOp.getD 0)).medKick n
    else if st = 1 then
      if d.slot = 5 && d.cbpIdle then (d.onCard fun c => { c with byMount := false }).readPage (.header 0) 0 0 [0] else d
    else if st = 2 then
      if !d.cbpIdle then d else let r := d.serve; if r.2 then r.1.medKick n else r.1
    else
      match d.med.clients.find? d.clientReady with
      | some j => if !d.is F.CRD_STATUS_PRESENT then (d.clientEnd j 8 0 0).medKick n else d.mountBegin.medKick n
      | none => d

/-- The engine goes on with what it can. -/
def Dev.kick (d : Dev) : Dev := d.zeroAll.medKick 2000

/-- A MED_CMD operation (R433, R474): 0 MOUNT, 1 UNMOUNT, 2 FLUSH, 3 APPEND. -/
def Dev.medCmd (d : Dev) (owned : Bool) (op : Nat) : Dev :=
  if d.is F.MED_CMD_BUSY then d
  else
    let d := d.wrs [(F.MED_CMD_OP, op), (F.MED_CMD_BUSY, 1)]
    let st := d.rd F.MED_STATUS_STATE
    let go := d.onMed fun m => { m with cmd := some op }
    if owned && op < 2 then d.medDone 8
    else if op = 0 then
      if st = 2 then d.medDone 0 else if st = 1 then go else go.mountBegin.kick
    else if st != 2 then d.medDone 9
    else if op = 1 then (go.onMed fun m => { m with mapDue := m.mapDue || d.is F.MED_STATUS_UNSAVED }).kick
    else go.kick

end Sys2Proof.Machine
end

