-- ==== Sys2Proof/Machine/Card.lean ====
section
/-! DEFINITION. The commands of the card slot and of ISO mode (chapter 18). -/

namespace Sys2Proof.Machine

/-! ### Detection (R415) -/

/-- Whether the card slot can be used: VDDIO_CRD, channel 10, is armed, and neither a brown-out nor a thermal trip keeps the card
deactivated (R48, R54, R112, log entry 119). -/
def State.crdOn (s : State) : Bool := s.aon.armed 10 && !s.aon.brown.tripped && !s.aon.therm.trip

/-- Whether a level of CRD_DET means that a card is present. -/
def Dev.detPresent (d : Dev) (level : Bool) : Bool := level != d.is F.CRD_CFG_DET_POL

/-- CARD_DET_EDGE (R415): the level is sampled while VDDIO_CRD is armed; an edge to "present" starts the debounce anew. -/
def execCardDetEdge (level : Bool) (s : State) : Res := s.nextDev fun d =>
  let d := d.onCard fun c => { c with det := level }
  if s.periRuns && s.crdOn then
    (d.onCard fun c => { c with debouncing := d.detPresent level && !d.is F.CRD_STATUS_PRESENT }).wr F.CRD_STATUS_DET (if level then 1 else 0)
  else d

/-- Step 1 of the standalone start (R134, R433): the slot is taken, and the cartridge is activated and mounted. -/
def Dev.standBegin (d : Dev) : Dev :=
  let d := ({ d with boot := { d.boot with standStep := 1, loadPos := 0 } }.setStanding 1).wr F.CRD_STATUS_OWNER 1
  let st := d.rd F.MED_STATUS_STATE
  if !d.is F.CRD_STATUS_PRESENT then d.standFail 1 else if st = 0 || st = 3 then d.mountBegin.kick else d

/-- CARD_INSERTED (R415, R416): the present level has held for DEBOUNCE. -/
def execCardInserted (s : State) : Res := s.nextPeri fun d =>
  if !s.crdOn || !d.detPresent d.card.det || d.is F.CRD_STATUS_PRESENT then d
  else
    let d := (d.onCard fun c => { c with debouncing := false }).wrs
      [(F.CRD_STATUS_PRESENT, 1), (F.CRD_STATUS_STATE, 1), (F.CRD_STATUS_DET, if d.card.det then 1 else 0)]
    let d := (d.irq 71).postInfo 37 0x1800 0
    let d := if d.rd F.BOOT_STANDING_STATE = 3 then d.standBegin else d
    let d := if d.is F.CRD_CFG_AUTO && d.slot == 1 then d.beginAct else d
    d.kick

/-- CARD_REMOVED (R415, R432): the absent level has held for 0.5 µs. -/
def execCardRemoved (s : State) : Res := s.nextPeri fun d =>
  if !s.crdOn || d.detPresent d.card.det || !d.is F.CRD_STATUS_PRESENT then d
  else
    let was := d.slot
    let d := (d.wr F.CRD_STATUS_PRESENT 0).sat F.CRD_CNT_REMOVALS
    let d := (d.irq 71).postInfo 37 0x1801 was
    (d.deact 2 2 false true).kick

/-- CARD_OVERCURRENT (R415, R432): CRD_OC_N has been low for 0.2 µs. -/
def execCardOvercurrent (s : State) : Res := s.nextPeri fun d =>
  if !s.crdOn then d
  else
    let d := ((d.sat F.CRD_CNT_OC).wr F.CRD_STATUS_OC 1).postInfo 37 0x1802 d.slot
    (d.deact 8 4 true true).kick

/-- ADC_IN[30] leaves the window of the current class (R417, R432): a failed attempt while the card is being activated, else a
deactivation that ends in FAULT. -/
def Dev.cardVcc (d : Dev) (code : Nat) : Dev :=
  let i := 2 - d.card.cls
  let ok := decide (d.rd (F.CRD_VWIN_LOW i) ≤ code) && decide (code ≤ d.rd (F.CRD_VWIN_HIGH i))
  match d.card.step with
  | .vccCheck =>
    if ok then d.onCard fun c => { c with dir := true, step := .clkStart }
    else (d.postInfo 37 0x1803 code).attemptFail 7
  | .guard => d
  | .setup => d
  | .settle => d
  | .idle => if (d.slot == 3 || d.slot == 4 || d.slot == 5) && !ok then (d.postInfo 37 0x1803 code).deact 7 4 true true else d
  | _ => if ok then d else (d.postInfo 37 0x1803 code).attemptFail 7

/-! ### Activation (R416–R423) -/

/-- ACTIVATION_TIMER (R416, R417): the next timed step of a cold activation, or the end of the 10 ms after CRD_VCC_EN fell. -/
def execActivationTimer (s : State) : Res := s.nextPeri fun d =>
  match d.card.step with
  | .guard =>
    let d := d.onCard fun c => { c with offGuard := false }
    match d.card.tryCls with
    | c :: cs => d.startClass c cs
    | [] => d
  | .setup => if s.crdOn then (d.onCard fun c => { c with vccEn := true, step := .settle }).wr F.CRD_STATUS_OC 0 else d
  | .settle => d.onCard fun c => { c with step := .vccCheck }
  | .clkStart => d.onCard fun c => { c with clk := true, step := .rstLow }
  | .rstLow => d.onCard fun c => { c with c2 := true, step := .awaitTs }
  | .idle => d.onCard fun c => { c with offGuard := false }
  | _ => d

/-- The Fi of TA1 (R421): F and twice fmax in MHz; none for an undefined value. -/
def fiTable : Nat → Option (Nat × Nat)
  | 0 => some (372, 8) | 1 => some (372, 10) | 2 => some (558, 12) | 3 => some (744, 16) | 4 => some (1116, 24)
  | 5 => some (1488, 32) | 6 => some (1860, 40) | 9 => some (512, 10) | 10 => some (768, 15) | 11 => some (1024, 20)
  | 12 => some (1536, 30) | 13 => some (2048, 40) | _ => none

/-- The Di of TA1 (R421). -/
def diTable : Nat → Option Nat
  | 1 => some 1 | 2 => some 2 | 3 => some 4 | 4 => some 8 | 5 => some 16 | 6 => some 32 | 7 => some 64 | 8 => some 12 | 9 => some 20
  | _ => none

/-- Whether TA1 names a supported pair: both defined, and F/D at least 12. -/
def ta1Ok (ta1 : Nat) : Bool :=
  match fiTable (ta1 / 16), diTable (ta1 % 16) with
  | some (f, _), some d => decide (12 * d ≤ f)
  | _, _ => false

/-- One group of interface bytes of an ATR: its number, its bytes TA to TD, and the protocol of the TD before it. -/
structure AtrGroup where
  i : Nat
  prot : Nat
  ta : Option Nat
  tb : Option Nat
  tc : Option Nat
  td : Option Nat

/-- Reads the interface groups after an indicator `y`: the groups and the bytes left; none when bytes are missing. -/
def atrGroups : Nat → Nat → Nat → Nat → List Byte → Option (List AtrGroup × List Byte)
  | 0, _, _, _, _ => none
  | n + 1, i, prot, y, bs =>
    let k := ((List.range 4).filter fun b => y.testBit b).length
    if bs.length < k then none
    else
      let byte (b : Nat) : Option Nat :=
        if y.testBit b then some (bytesAt bs (((List.range b).filter fun x => y.testBit x).length) 1) else none
      let g : AtrGroup := { i := i, prot := prot, ta := byte 0, tb := byte 1, tc := byte 2, td := byte 3 }
      match g.td with
      | none => some ([g], bs.drop k)
      | some td =>
        match atrGroups n (i + 1) (td % 16) (td / 16) (bs.drop k) with
        | some (gs, rest) => some (g :: gs, rest)
        | none => none

/-- What an ATR says (R421). -/
structure Atr where
  ta1 : Option Nat
  tc1 : Nat
  ta2 : Option Nat
  ifsc : Nat
  bwi : Nat
  cwi : Nat
  edc : Nat
  t15 : Option Nat
  t1 : Bool

/-- Reads an ATR (R420, R421); none when it is malformed or holds a rejected value. -/
def readAtr (bs : List Byte) : Option Atr :=
  let ts := bytesAt bs 0 1
  let t0 := bytesAt bs 1 1
  if bs.length < 2 || 33 < bs.length || !(ts == 0x3B || ts == 0x3F) then none
  else
    match atrGroups 16 1 0 (t0 / 16) (bs.drop 2) with
    | none => none
    | some (gs, rest) =>
      let prots := gs.filterMap fun g => g.td.map (· % 16)
      let tck := prots.any (· != 0)
      let firstOf (p : Nat) (f : AtrGroup → Option Nat) : Option Nat :=
        ((gs.filter fun g => decide (3 ≤ g.i) && g.prot == p).filterMap f).head?
      let g1 := gs.head?
      let g2 := gs.find? fun g => g.i == 2
      let ta1 := g1.bind (·.ta)
      let ta2 := g2.bind (·.ta)
      let ifsc := (firstOf 1 (·.ta)).getD 32
      let tb := (firstOf 1 (·.tb)).getD 0x4D
      let tc := (firstOf 1 (·.tc)).getD 0
      let lenOk := rest.length == t0 % 16 + (if tck then 1 else 0)
      let tckOk := !tck || (bs.drop 1).foldl (· ^^^ ·) 0 == 0
      let ta2Ok := ta2.all fun x => x % 16 == 1 && !x.testBit 4 && ta1.all ta1Ok
      if lenOk && tckOk && ta2Ok && ifsc != 0 && ifsc != 255 && decide (tb / 16 ≤ 9) && decide (tc ≤ 1) then
        some { ta1 := ta1, tc1 := (g1.bind (·.tc)).getD 0, ta2 := ta2, ifsc := ifsc, bwi := tb / 16, cwi := tb % 16, edc := tc,
               t15 := firstOf 15 (·.ta), t1 := prots.contains 1 }
      else none

/-- The parameters are fixed with Fi and Di of `ta1` (R423): the clock divider follows fmax. -/
def Dev.fixParams (d : Dev) (ta1 : Nat) : Dev :=
  let f2 := ((fiTable (ta1 / 16)).getD (372, 10)).2
  d.wrs [(F.CRD_PARAM_FI, ta1 / 16), (F.CRD_PARAM_DI, ta1), (F.CRD_PARAM2_DIV, max 21 ((832 + f2 - 1) / f2))]

/-- The activation has finished (R429): the slot is in ISO, and what waited for it goes on. -/
def Dev.actDone (d : Dev) : Dev :=
  let c := d.card
  let d := (d.onCard fun c => { c with step := .idle, tryCls := [], warm := false, byMount := false, byWide := none }).wr F.CRD_STATUS_STATE 3
  let d := d.crdDone 0
  match c.byWide with
  | some r => (d.onCard fun x => { x with byMount := c.byMount }).wideRequest r
  | none => if c.byMount then d.wideRequest (d.rd F.CBP_CFG_RATE) else d

/-- The APDU of a key load (R428). -/
def keyApdu (keyref : Nat) : List Byte := [0x80, 0x4B, BitVec.ofNat 8 keyref, 0x00, 0x40]

/-- Whether a key load into slot `s` is refused (R428). -/
def Dev.keyRefused (d : Dev) (s : Nat) : Bool := !d.is F.GLB_FUSE_ENC_EN || s == 0

/-- The automatic key loads from entry `j` on, then ISO (R429); a warm reset makes none. -/
def Dev.autoKeys (d : Dev) (j : Nat) : Dev :=
  match (List.range 4).find? fun k => decide (j ≤ k) && d.is (F.CRD_AUTOKEY_EN k) with
  | some k =>
    let slot := d.rd (F.CRD_AUTOKEY_SLOT k)
    if d.card.warm then d.actDone
    else if d.keyRefused slot then d.attemptFail 12
    else (d.onCard fun c => { c with step := .autokey k }).t1Start (.autoKey k slot) (keyApdu (d.rd (F.CRD_AUTOKEY_KEYREF k)))
  | none => d.actDone

/-- After the ATR and any PPS: S(IFS request) when IFSD is not 32, then the key loads (R425, R429). -/
def Dev.afterPps (d : Dev) : Dev :=
  if d.rd F.CRD_T1_IFSD = 32 then d.autoKeys 0
  else
    let d := (d.onCard fun c => { c with step := .ifs }).onT1 fun t => { t with awaitIfs := true, bad := 0, resynch := 0 }
    d.t1Send 0xC1 [BitVec.ofNat 8 (d.rd F.CRD_T1_IFSD)]

/-- ATR_TIMEOUT (R417): no TS by 40,000 cycles. -/
def execAtrTimeout (s : State) : Res := s.nextPeri fun d =>
  if d.card.step == .awaitTs then (d.attemptFail 3).kick else d

/-- ATR_CHARACTER_TIMEOUT (R420). -/
def execAtrCharacterTimeout (s : State) : Res := s.nextPeri fun d =>
  if d.card.step == .awaitTs then (d.attemptFail 4).kick else d

/-- A complete ATR (R418, R420–R423). -/
def Dev.atr (d : Dev) (bs : List Byte) (parityOk : Bool) : Dev :=
  let d := (d.wr F.CRD_PARAM2_ATR_LEN (min bs.length 33)).wrs ((List.range 9).map fun j => (F.CRD_ATR_DATA j, bytesAt (bs.take 33) (4 * j) 4))
  match (if parityOk then readAtr bs else none) with
  | none => d.attemptFail 4
  | some a =>
    let x := a.t15.getD 0
    if !a.t1 then d.attemptFail 5
    else
      let d := d.wrs [(F.CRD_PARAM_N, a.tc1), (F.CRD_PARAM_IFSC, a.ifsc), (F.CRD_PARAM_BWI, a.bwi), (F.CRD_PARAM_CWI, a.cwi),
        (F.CRD_PARAM2_EDC, a.edc), (F.CRD_PARAM2_XI, x / 64), (F.CRD_PARAM2_CLS, x)]
      if a.t15.isSome && !x.testBit (2 - d.card.cls) then d.attemptFail 14
      else
        let ta1 := a.ta1.getD 0x11
        if a.ta2.isSome then (d.fixParams ta1).afterPps
        else if d.is F.CRD_CFG_PPS_EN && !d.card.noPps && ta1Ok ta1 && ta1 != 0x11 then
          let pck : Byte := 0xFF ^^^ 0x11 ^^^ BitVec.ofNat 8 ta1
          (d.onCard fun c => { c with step := .pps, t1 := { c.t1 with last := [0xFF, 0x11, BitVec.ofNat 8 ta1, pck] } }).send
            (.pps [0xFF, 0x11, BitVec.ofNat 8 ta1, pck])
        else (d.fixParams 0x11).afterPps

/-- ATR_RECEIVED (R420, R421). -/
def execAtrReceived (bytes : List Byte) (parityOk : Bool) (s : State) : Res := s.nextPeri fun d =>
  if d.card.step == .awaitTs then (d.atr bytes parityOk).kick else d

/-- A PPS failure (R422): the card is activated again at the same class with PPS suppressed. -/
def Dev.ppsFail (d : Dev) : Dev :=
  let c := d.card.cls
  let rest := d.card.tryCls
  ((d.onCard fun x => { x with noPps := true }).wr F.CRD_STATUS_PPS_FAILED 1).again (c :: rest)

/-- PPS_RESPONSE (R422). -/
def execPpsResponse (bytes : List Byte) (s : State) : Res := s.nextPeri fun d =>
  if d.card.step != .pps then d
  else if bytes == d.card.t1.last then ((d.fixParams (bytesAt bytes 2 1)).wr F.CRD_STATUS_PPS_DONE 1).afterPps.kick
  else d.ppsFail

/-- PPS_TIMEOUT (R422). -/
def execPpsTimeout (s : State) : Res := s.nextPeri fun d => if d.card.step == .pps then d.ppsFail else d

/-! ### T=1 (R424–R428, R436) -/

/-- The T=1 machine is idle again. -/
def Dev.t1Free (d : Dev) : Dev := d.onT1 fun t => { t with job := .none, tx := [], rx := [], sent := 0, awaitResynch := false, awaitIfs := false }

/-- What waited for the end of an exchange goes on: a mount that found the slot busy. -/
def Dev.t1Next (d : Dev) : Dev :=
  if d.card.byMount && d.slot == 3 && d.card.t1.job == .none then
    (d.onCard fun c => { c with byMount := false }).wideRequest (d.rd F.CBP_CFG_RATE) else d

/-- The key in a response, when it is 66 bytes that end in 0x90 0x00 (R428). -/
def keyOf (rx : List Byte) : Option Nat :=
  if rx.length == 66 && bytesAt rx 64 1 == 0x90 && bytesAt rx 65 1 == 0 then some (bytesAt rx 0 64) else none

/-- The response of an exchange is complete (R427–R429). -/
def Dev.t1Done (d : Dev) : Dev :=
  let t := d.card.t1
  let rx := t.rx
  let d := d.t1Free
  match t.job with
  | .exchange =>
    let kept := rx.take 2048
    let d := d.wrs ((List.range ((kept.length + 3) / 4)).map fun j => (F.CRD_RXBUF_DATA j, bytesAt kept (4 * j) 4))
    ((d.wr F.CRD_LEN_RX (kept.length - 1)).crdDone (if 2048 < rx.length then 10 else 0)).t1Next
  | .keyLoad slot =>
    match keyOf rx with
    | some k => (((d.setKey slot { st := .card, key := k }).postInfo 37 0x1805 slot).crdDone 0).t1Next
    | none => (d.crdDone 11).t1Next
  | .autoKey j slot =>
    match keyOf rx with
    | some k => ((d.setKey slot { st := .card, key := k }).postInfo 37 0x1805 slot).autoKeys (j + 1)
    | none => d.attemptFail 11
  | _ => d

/-- The exchange ends without a response: ABORTED (R425). -/
def Dev.t1Abort (d : Dev) : Dev :=
  match d.card.t1.job with
  | .autoKey _ _ => d.t1Free.attemptFail 6
  | .none => if d.card.step == .ifs then d.t1Free.attemptFail 6 else d
  | _ => (d.t1Free.crdDone 6).t1Next

/-- The last recovery step has failed (R426): the card is deactivated with PROTOCOL. -/
def Dev.t1Fail (d : Dev) : Dev := if d.activating then d.attemptFail 9 else d.deact 9 4 false true

/-- The answer to S(WIDE request) is not the one asked for (R436): NOT_CRIMIN, and one S(RESYNCH) exchange. -/
def Dev.notCrimin (d : Dev) : Dev :=
  let d := (d.onCbp fun _ => {}).wr F.CBP_STATUS_STATE 0
  let d := d.cbpDone 3
  let d := if d.rd F.MED_STATUS_STATE = 1 then d.mountFail 4 false else d
  (d.onT1 fun t => { t with job := .none, tx := [], awaitResynch := true, bad := 3, resynch := 3 }).t1Send 0xC0 []

/-- Sends S(RESYNCH request), or fails after three (R426). -/
def Dev.t1Resynch (d : Dev) : Dev :=
  if d.card.t1.resynch < 3 then
    ((d.onT1 fun t => { t with resynch := t.resynch + 1, awaitResynch := true }).sat F.CRD_CNT_RETRANS).t1Send 0xC0 []
  else d.t1Fail

/-- An invalid block, or none in time (R426); `kind` is the error indication, 1 parity or EDC, 2 other. -/
def Dev.t1Bad (d : Dev) (kind : Nat) : Dev :=
  let t := d.card.t1
  if t.job == .wide && !t.awaitResynch then d.notCrimin
  else if t.awaitResynch || 3 ≤ t.bad then d.t1Resynch
  else
    let b := d.t1Block (0x80 + (if t.nsRx then 0x10 else 0) + kind) []
    ((d.onT1 fun t => { t with bad := t.bad + 1 }).sat F.CRD_CNT_RETRANS).send (.t1 b)

/-- S(RESYNCH response) (R425, R426): N(S) is 0 on both sides, and the whole APDU, or the IFS request, is sent again once. -/
def Dev.t1Resynched (d : Dev) : Dev :=
  let t := d.card.t1
  let d := d.onT1 fun t => { t with nsTx := false, nsRx := false, awaitResynch := false, bad := 0 }
  if t.job == .none && !t.awaitIfs then d.t1Next
  else if t.resent then d.t1Fail
  else
    let d := d.onT1 fun t => { t with resent := true, sent := 0, rx := [] }
    if t.awaitIfs then d.t1Send 0xC1 [BitVec.ofNat 8 (d.rd F.CRD_T1_IFSD)] else d.t1SendI

/-- Whether the device waits for a block. -/
def Dev.t1Waiting (d : Dev) : Bool := d.card.t1.job != .none || d.card.t1.awaitIfs || d.card.t1.awaitResynch

/-- Whether the last block sent was an I-block with M = 1. -/
def T1.chaining (t : T1) : Bool := bytesAt t.last 1 1 < 0x80 && bits (bytesAt t.last 1 1) 5 1 == 1

/-- S(WIDE response) (R436, R437): the switch to wide mode begins. -/
def Dev.wideAnswer (d : Dev) (inf : List Byte) : Dev :=
  let rate := bytesAt inf 1 1
  if inf.length == 4 && bytesAt inf 0 1 == 1 && decide (rate ≤ d.cbp.tryRate) && decide (bytesAt inf 2 1 ≤ 15) && bytesAt inf 3 1 == 0 then
    ((d.t1Free).onCbp fun c => { c with wideStep := 1, tryRate := rate }).wr F.CBP_STATUS_FWI (bytesAt inf 2 1)
  else d.notCrimin

/-- An S-block of the card (R425, R436). -/
def Dev.t1S (d : Dev) (pcb : Nat) (inf : List Byte) : Dev :=
  let t := d.card.t1
  let reply (p : Nat) : Dev := d.send (.t1 (d.t1Block p inf))
  if pcb = 0xE0 && t.awaitResynch && inf.isEmpty then d.t1Resynched
  else if t.awaitResynch then d.t1Bad 2
  else if t.job == .wide then (if pcb = 0xEA then d.wideAnswer inf else d.t1Bad 2)
  else if pcb = 0xE1 && t.awaitIfs && bytesAt t.last 3 1 == bytesAt inf 0 1 && inf.length == 1 then
    (d.onT1 fun t => { t with awaitIfs := false, bad := 0 }).autoKeys 0
  else if pcb = 0xC1 && inf.length == 1 && bytesAt inf 0 1 != 0 && bytesAt inf 0 1 != 255 then
    (reply 0xE1).wr F.CRD_PARAM_IFSC (bytesAt inf 0 1)
  else if pcb = 0xC3 && inf.length == 1 then (reply 0xE3).onT1 fun t => { t with wtx := bytesAt inf 0 1 }
  else if pcb = 0xC2 && inf.isEmpty then (reply 0xE2).t1Abort
  else d.t1Bad 2

/-- An R-block of the card (R424, R426): it asks for the next block of a chain, or for the last one again. -/
def Dev.t1R (d : Dev) (pcb : Nat) : Dev :=
  let t := d.card.t1
  let nr := pcb.testBit 4
  if t.awaitResynch || t.job == .wide then d.t1Bad 2
  else if pcb % 16 = 0 && t.chaining && nr != t.nsTx then
    (d.onT1 fun t => { t with nsTx := !t.nsTx, sent := t.sent + bytesAt t.last 2 1, bad := 0 }).t1SendI
  else if pcb % 16 ≤ 2 then
    if 3 ≤ t.bad then d.t1Resynch
    else ((d.onT1 fun t => { t with bad := t.bad + 1 }).sat F.CRD_CNT_RETRANS).send (.t1 t.last)
  else d.t1Bad 2

/-- An I-block of the card (R424): it acknowledges the last block of the APDU and carries the response. -/
def Dev.t1I (d : Dev) (pcb : Nat) (inf : List Byte) : Dev :=
  let t := d.card.t1
  if t.awaitResynch || t.awaitIfs || t.job == .wide || t.chaining || pcb.testBit 6 != t.nsRx || pcb % 32 != 0 then d.t1Bad 2
  else
    let first := bytesAt t.last 1 1 < 0x80
    let d := d.onT1 fun t => { t with nsRx := !t.nsRx, nsTx := if first then !t.nsTx else t.nsTx, rx := t.rx ++ inf, bad := 0 }
    if pcb.testBit 5 then d.t1Send (0x80 + (if d.card.t1.nsRx then 0x10 else 0)) [] else d.t1Done

/-- T1_BLOCK_RECEIVED (R424–R426). -/
def execT1BlockReceived (bytes : List Byte) (parityOk : Bool) (s : State) : Res := s.nextPeri fun d =>
  if !d.t1Waiting then d
  else
    let n := bytesAt bytes 2 1
    let e := if d.is F.CRD_PARAM2_EDC then 2 else 1
    let body := bytes.take (3 + n)
    let pcb := bytesAt bytes 1 1
    let inf := body.drop 3
    let edcOk := bytes.length == 3 + n + e && bytes.drop (3 + n) == d.t1Edc body
    let d :=
      if !parityOk || !edcOk then d.t1Bad 1
      else if bytesAt bytes 0 1 != 0 || d.rd F.CRD_T1_IFSD < n then d.t1Bad 2
      else if pcb < 0x80 then d.t1I pcb inf
      else if pcb < 0xC0 then (if n = 0 then d.t1R pcb else d.t1Bad 2)
      else d.t1S pcb inf
    d.kick

/-- T1_TIMEOUT (R426): CWT within a block, or BWT before one. -/
def execT1Timeout (s : State) : Res := s.nextPeri fun d => if d.t1Waiting then (d.t1Bad 2).kick else d

/-! ### CRD_CMD (R427–R435) -/

/-- Whether CRD_CMD operation `op` may act in the present slot state (R435). -/
def Dev.crdAllowed (d : Dev) (op : Nat) : Bool :=
  let st := d.slot
  match op with
  | 0 => st == 1 || st == 7
  | 1 => st == 2 || st == 3 || st == 4 || st == 5
  | 2 => st == 3 || st == 4
  | 3 => st == 3 || st == 4
  | 4 => st == 3 || st == 4
  | 5 => st == 3
  | 6 => st == 4
  | _ => false

/-- The effect of an accepted CRD_CMD operation. -/
def Dev.crdRun (d : Dev) (op : Nat) : Dev :=
  match op with
  | 0 => d.beginAct
  | 1 => d.deact 0 2 false true
  | 2 =>
    let d := (d.clkRestart.paramsDefault).wr F.CRD_STATUS_STATE 2
    (d.onCard fun c => { c with warm := true, step := .rstLow, tryCls := [], c2 := false, t1 := {}, noPps := false }).wr F.CRD_STATUS_PPS_FAILED 0
  | 3 =>
    let n := min (d.rd F.CRD_LEN_TX + 1) 2048
    let apdu := ((List.range ((n + 3) / 4)).flatMap fun j => toBytes 4 (d.rd (F.CRD_TXBUF_DATA j))).take n
    d.clkRestart.t1Start .exchange apdu
  | 4 =>
    let slot := d.rd F.CRD_KEY_SLOT
    if d.keyRefused slot then d.crdDone 12 else d.clkRestart.t1Start (.keyLoad slot) (keyApdu (d.rd F.CRD_KEY_KEYREF))
  | 5 => if d.rd F.CRD_PARAM2_XI = 0 then d.crdDone 12 else d.onCard fun c => { c with clkStop := true }
  | _ => d.clkRestart.crdDone 0

/-- A CRD_CMD operation (R433, R435): REFUSED while the standing program owns the slot, BAD_STATE where it may not act; an exchange on
the contacts excludes another. -/
def Dev.crdCmd (d : Dev) (owned : Bool) (op : Nat) : Dev :=
  if d.is F.CRD_CMD_BUSY then d
  else
    let d := d.wrs [(F.CRD_CMD_OP, op), (F.CRD_CMD_BUSY, 1)]
    if owned then d.crdDone 12
    else if !d.crdAllowed op || (2 ≤ op && (d.t1Waiting || d.rd F.CBP_STATUS_STATE == 1)) then d.crdDone 13
    else (d.crdRun op).kick

/-- ACTIVATE (R416). -/
def execActivate (s : State) (req : Requester := .host 0) : Res := s.devReg req 0xA00044 fun d => d.crdCmd (d.owned req) 0
/-- DEACTIVATE (R432). -/
def execDeactivate (s : State) (req : Requester := .host 0) : Res := s.devReg req 0xA00044 fun d => d.crdCmd (d.owned req) 1
/-- WARM_RESET (R419). -/
def execWarmReset (s : State) (req : Requester := .host 0) : Res := s.devReg req 0xA00044 fun d => d.crdCmd (d.owned req) 2
/-- EXCHANGE (R427). -/
def execExchange (s : State) (req : Requester := .host 0) : Res := s.devReg req 0xA00044 fun d => d.crdCmd (d.owned req) 3
/-- KEY_LOAD (R428). -/
def execKeyLoad (s : State) (req : Requester := .host 0) : Res := s.devReg req 0xA00044 fun d => d.crdCmd (d.owned req) 4
/-- CLOCK_STOP (R430). -/
def execClockStop (s : State) (req : Requester := .host 0) : Res := s.devReg req 0xA00044 fun d => d.crdCmd (d.owned req) 5
/-- CLOCK_RESTART (R430). -/
def execClockRestart (s : State) (req : Requester := .host 0) : Res := s.devReg req 0xA00044 fun d => d.crdCmd (d.owned req) 6

/-- CLOCK_STOPPED (R430): the clock stops at state H for XI 0b10, at state L otherwise. -/
def execClockStopped (s : State) : Res := s.nextPeri fun d =>
  if d.card.clkStop && d.slot == 3 then
    ((d.onCard fun c => { c with clkStop := false, clk := d.rd F.CRD_PARAM2_XI == 2 }).wr F.CRD_STATUS_STATE 4).crdDone 0
  else d

end Sys2Proof.Machine
end

