-- ==== Sys2Proof/Machine/Cbp.lean ====
section
/-! DEFINITION. The commands of the Crimin block protocol (chapter 19). -/

namespace Sys2Proof.Machine

/-- The CBP_CMD operation `op` in progress completes OK; one that still waits for the bus does not. -/
def Dev.cbpOk (d : Dev) (op : Nat) : Dev := if d.rd F.CBP_CMD_OP = op && d.cbp.hostOp.isNone then d.cbpDone 0 else d

/-! ### Entry to wide mode (R436–R438) -/

/-- ENTER_WIDE (R436). -/
def execEnterWide (s : State) (req : Requester := .host 0) : Res := s.devReg req 0xA02014 fun d => d.cbpCmd (d.owned req) 0

/-- WIDE_SWITCH_TIMER (R437): CLK stopped low with D = 0xF, CLK at the wide rate, then IDENTIFY. -/
def execWideSwitchTimer (s : State) : Res := s.nextPeri fun d =>
  let go (n : Nat) : Dev := d.onCbp fun c => { c with wideStep := n }
  match d.cbp.wideStep with
  | 1 => (go 2).onCard fun c => { c with clk := false, dir := false, data := 0xF, c2 := true }
  | 2 => ((go 3).onCard fun c => { c with clk := true }).wr F.CBP_STATUS_RATE d.cbp.tryRate
  | 3 => ((go 4).wrs [(F.CBP_STATUS_NS_TX, 0), (F.CBP_STATUS_NS_RX, 0)]).cbpStart .identify 1 0 0 0 []
  | _ => d

/-! ### The end of a command (R447–R455) -/

/-- The data bytes that an answer with STATUS OK carries (R450). -/
def respLen (code : Nat) : Nat := if code = 1 then 64 else if code = 2 then 18432 else 0

/-- Whether a whole response fits its command. -/
def respOk (code : Nat) (rx : List Byte) : Bool :=
  rx.length == 8 + (if bytesAt rx 0 1 = 0 then respLen code else 0) && bytesAt rx 2 2 == 0

/-- IDENTIFY of an entry to wide mode is answered (R437, R450, R456). -/
def Dev.wideEntered (d : Dev) (rx : List Byte) : Dev :=
  let flags := bytesAt rx 1 1
  if bytesAt rx 0 1 != 0 || !identOk (rx.drop 8) flags then d.deact 0 3 false false
  else
    let d := (d.takeIdent (rx.drop 8) flags).cbpFree
    let d := (d.onCbp fun c => { c with wideStep := 0 }).wr F.CRD_STATUS_STATE 5
    (d.postInfo 37 0x1810 (d.rd F.CBP_STATUS_RATE)).cbpOk 0

/-- What the answer to a host command changes (R452–R455). -/
def Dev.hostAnswer (d : Dev) (code arg : Nat) (rx : List Byte) : Dev :=
  let st := cardSt (bytesAt rx 0 1)
  let flags := bytesAt rx 1 1
  let d := if code = 5 || code = 6 then d.wrs [(F.CBP_STATUS_PWP, flags), (F.CBP_STATUS_TWP, flags / 2)] else d
  if st != 0 then d
  else
    match code with
    | 1 => if identOk (rx.drop 8) flags then d.takeIdent (rx.drop 8) flags else d
    | 2 => d.wrs (bufFields (rx.drop 8))
    | 5 => d.wr F.CBP_TPROT_TR arg
    | 6 => (d.wr F.CBP_PROT_PR arg).postInfo 37 0x1813 arg
    | _ => d

/-- The response of the command in progress is complete. -/
def Dev.cbpAnswer (d : Dev) : Dev :=
  let c := d.cbp
  let st := cardSt (bytesAt c.rx 0 1)
  let d := d.wr F.CBP_CMD_CSTATUS st
  match c.job with
  | .identify => d.wideEntered c.rx
  | .host =>
    let d := d.hostAnswer c.code c.arg32 c.rx
    let r := if st = 0 then 0 else 7
    if c.code = 6 then (d.cbpFree.onCbp fun x => { x with setRes := r }).cbpStart .refreshId 1 0 0 0 []
    else d.cbpFree.cbpDone r
  | .refreshId =>
    let flags := bytesAt c.rx 1 1
    let d := if st = 0 && identOk (c.rx.drop 8) flags then d.takeIdent (c.rx.drop 8) flags else d
    d.cbpFree.cbpDone c.setRes
  | .media => d.cbpFree.onCbp fun x => { x with mres := some (st + 16, c.rx.drop 8) }
  | .none => d

/-! ### Frames of the card (R442–R447) -/

/-- Shows that a command runs normally again after a recovery step. -/
def Dev.cbpBusy (d : Dev) : Dev := d.wr F.CBP_STATUS_STATE (if d.cbp.job == .identify then 1 else 3)

/-- An I-frame of the response chain. -/
def Dev.cbpI (d : Dev) (pcb : Nat) (inf : List Byte) : Dev :=
  let c := d.cbp
  let more := pcb.testBit 5
  let rx := c.rx ++ inf
  if c.awaitResynch || c.job == .none || c.sleepReq || c.wakeReq || !chainLast c.tx c.sent ||
      bits pcb 6 1 != d.rd F.CBP_STATUS_NS_RX || pcb % 32 != 0 || (more && 8 ≤ c.frames) || (!more && !respOk c.code rx) then d.frameBad 2
  else
    let ns := 1 - d.rd F.CBP_STATUS_NS_RX
    let d := ((d.onCbp fun x => { x with rx := rx, frames := x.frames + 1, bad := 0 }).wr F.CBP_STATUS_NS_RX ns).cbpBusy
    if more then d.frameSend (0x80 + ns * 0x10) [] else d.cbpAnswer

/-- I_FRAME_RECEIVED (R443, R446). -/
def execIFrameReceived (frame : List Byte) (s : State) : Res := s.nextPeri fun d =>
  if !d.cbpWaiting then d
  else match parseFrame frame with
    | some (pcb, inf) => (if pcb < 0x80 then d.cbpIn.cbpI pcb inf else d.cbpIn.frameBad 2).kick
    | none => (d.cbpIn.frameBad 1).kick

/-- An R-frame: it asks for the next frame of the command, or for the last one again. -/
def Dev.cbpR (d : Dev) (pcb : Nat) : Dev :=
  let c := d.cbp
  if pcb % 4 = 3 || bits pcb 2 2 != 0 || bits pcb 5 1 != 0 then d.frameBad 2
  else if pcb % 4 != 0 then d.frameRepeat
  else if c.awaitResynch || c.job == .none || c.sleepReq || c.wakeReq || chainLast c.tx c.sent || bits pcb 4 1 != d.rd F.CBP_STATUS_NS_TX then
    d.frameBad 2
  else (d.onCbp fun x => { x with bad := 0 }).cbpBusy.chainSend (c.sent + 1)

/-- R_FRAME_RECEIVED (R443, R446). -/
def execRFrameReceived (frame : List Byte) (s : State) : Res := s.nextPeri fun d =>
  if !d.cbpWaiting then d
  else match parseFrame frame with
    | some (pcb, inf) => (if pcb / 64 = 2 && inf.isEmpty then d.cbpIn.cbpR pcb else d.cbpIn.frameBad 2).kick
    | none => (d.cbpIn.frameBad 1).kick

/-- WTX_REQUEST (R444): answered with the same m, which holds for the next frame only. -/
def execWtxRequest (m : Nat) (s : State) : Res := s.nextPeri fun d =>
  if !d.cbpWaiting then d
  else if m = 0 || 255 < m || d.cbp.awaitResynch then (d.cbpIn.frameBad 2).kick
  else ((d.sat F.CBP_CNT_WTX).cbpOut (mkFrame 0xE3 [BitVec.ofNat 8 m])).onCbp fun c => { c with wtx := m }

/-- FRAME_WAIT_TIMEOUT (R444, R446). -/
def execFrameWaitTimeout (s : State) : Res := s.nextPeri fun d => if d.cbpWaiting then (d.cbpIn.frameBad 2).kick else d

/-- The card is awake: the command that woke it is sent, or WAKE completes (R448). -/
def Dev.awake (d : Dev) : Dev :=
  let c := d.cbp
  let d := d.onCbp fun x => { x with wakeReq := false, wakeFor := false, bad := 0, resynch := 0 }
  if c.wakeFor then d.chainStart else d.cbpFree.cbpOk 2

/-- A command whose last frame could be sent again after a resynchronisation: IDENTIFY and READ_PAGE once, every other one only if its
last frame had not been sent (R447). -/
def Dev.cbpResume (d : Dev) : Dev :=
  let c := d.cbp
  if c.code = 1 || c.code = 2 || !chainLast c.tx c.sent then
    if c.resent then d.cbpFail else (d.onCbp fun x => { x with resent := true }).chainStart
  else d.cbpIndet

/-- RESYNCH_RESPONSE (R446, R447). -/
def execResynchResponse (s : State) : Res := s.nextPeri fun d =>
  let c := d.cbp
  if !c.awaitResynch then d
  else
    let d := (d.cbpIn.onCbp fun x => { x with awaitResynch := false, bad := 0 }).wrs [(F.CBP_STATUS_NS_TX, 0), (F.CBP_STATUS_NS_RX, 0)]
    let d := (d.sat F.CBP_CNT_RESYNCH).postInfo 37 0x1811 c.code
    let d :=
      if c.wakeReq then d.awake
      else if c.sleepReq then
        (if c.resent then d.cbpFail else ((d.onCbp fun x => { x with resent := true }).wr F.CBP_STATUS_STATE 3).frameSend 0xC4 [])
      else d.cbpResume
    d.kick

/-! ### Sleep and wake (R448), RAW (R455) -/

/-- CBP_SLEEP (R448). -/
def execCbpSleep (s : State) (req : Requester := .host 0) : Res := s.devReg req 0xA02014 fun d => d.cbpCmd (d.owned req) 1
/-- CBP_WAKE (R448). -/
def execCbpWake (s : State) (req : Requester := .host 0) : Res := s.devReg req 0xA02014 fun d => d.cbpCmd (d.owned req) 2
/-- RAW (R455). -/
def execRaw (s : State) (req : Requester := .host 0) : Res := s.devReg req 0xA02014 fun d => d.cbpCmd (d.owned req) 3

/-- SLEEP_IDLE_EXPIRE (R448). -/
def execSleepIdleExpire (s : State) : Res := s.nextPeri fun d =>
  if d.slot == 5 && d.rd F.CBP_CFG_SLEEP_IDLE != 0 && d.rd F.CBP_STATUS_STATE == 2 && d.cbpIdle && d.cbp.hostOp.isNone &&
      d.med.job == .none then d.hostOpStart 1 else d

/-- SLEEP_RESPONSE (R448): CLK stops 16 cycles later. -/
def execSleepResponse (s : State) : Res := s.nextPeri fun d =>
  if !d.cbp.sleepReq || d.cbp.awaitResynch then d
  else
    let d := (d.onCard fun c => { c with clk := false, dir := false, data := 0xF }).onCbp fun c => { c with sleepReq := false }
    ((d.wr F.CBP_STATUS_STATE 4).cbpOk 1).kick

/-- WAKE_RESPONSE (R448). -/
def execWakeResponse (s : State) : Res := s.nextPeri fun d =>
  if d.cbp.wakeReq && !d.cbp.awaitResynch then d.cbpIn.awake.kick else d

end Sys2Proof.Machine
end

