-- ==== Sys2Proof/Machine/IssueOps.lean ====
section
/-! DEFINITION. The issue of a head descriptor (R240, R241, R259). -/

namespace Sys2Proof.Machine

/-- Sets STATUS.BLOCK of queue `q` (R258). -/
def Dev.blockAs (d : Dev) (q b : Nat) : Dev := d.wr (F.Q_STATUS_BLOCK q) b

/-- Whether a blocking descriptor of queue `q` is still uncompleted: FENCE, WAIT, WAIT_POSITION, TABLE_UPDATE, CLASP_BARRIER,
and a DISPATCH whose programs have not started (R241). -/
def Dev.blocked (d : Dev) (q : Nat) : Bool :=
  (d.queue q).issued.any fun i =>
    dOp i.d == 3 || dOp i.d == 5 || dOp i.d == 0x10 || dOp i.d == 0x22 || dOp i.d == 0x50 || (dOp i.d == 2 && i.wait)

/-- Descriptors of queue `q` that count towards its mover limit (R212). -/
def Dev.moverCount (d : Dev) (q : Nat) : Nat :=
  ((d.queue q).issued.filter fun i => dOp i.d == 1 || dOp i.d == 0x20 || dOp i.d == 0x40).length

/-- The code of STATUS.BLOCK that keeps the head descriptor `x` of queue `q` from issuing; 0 when nothing does (R241). -/
def Dev.issueBlock (d : Dev) (q : Nat) (x : Desc) : Nat :=
  let ql := d.queue q
  if d.qstate q != 1 || ql.pairHold || d.blocked q then 14
  else if ql.rrec.waits || ql.rfetch.waits then 13
  else if ql.pre != .running then 12
  else if dOrder x && !ql.issued.isEmpty then 2
  else if !d.is (F.Q_CFG_CPL_MODE q) && decide (2 ^ d.rd (F.Q_CFG_CPL_LOG2 q) ≤ ql.issued.length + ql.recs.length + ql.unread) then 3
  else if (dOp x == 1 || dOp x == 0x20 || dOp x == 0x40) && decide (8 ≤ d.moverCount q) then 4
  else 0

/-- Whether what a head descriptor waits for at issue is there (R244, R401, R501): tiles, a place in a timebase store, or the end of the
commit in progress. -/
def Dev.opReady (d : Dev) (q : Nat) (x : Desc) : Bool :=
  let m := maskList 16 (dTiles x)
  match dOp x with
  | 0x02 =>
    if dMode x = 2 then dTiles x &&& d.rd (F.Q_LEASE_L q) != dTiles x || m.all fun n => !(d.tile n).running
    else d.rd (F.Q_LEASE_L q) != 0 || m.all d.tileFree
  | 0x51 => d.qctx q != 0 || d.pair.commit.isNone
  | 0x12 => dfld x 20 0 1 == 1 || decide (d.tb.verdicts.length < 256)
  | 0x13 => decide (((fget d.tb.gates (dfld x 24 0 2)).getD []).length < 16)
  | _ => true

/-- Whether the head descriptor of queue `q` can issue now (R240, R241); one that a check turns away waits for nothing else. -/
def Dev.canIssue (d : Dev) (q : Nat) : Bool :=
  match (d.queue q).fetched with
  | x :: _ => d.issueBlock q x == 0 && (d.headStatus q x != 0 || d.opReady q x)
  | [] => false

/-- Whether the command processor picks queue `r` before queue `q` (R240): a higher priority, or among equals the one that comes first
after the queue last picked at that priority. -/
def Dev.before (d : Dev) (r q : Nat) : Bool :=
  let p := d.rd (F.Q_CFG_PRIO q)
  let p' := d.rd (F.Q_CFG_PRIO r)
  decide (p < p') || (p == p' && match fget d.lastIssue p with
    | some l => decide ((r + 127 - l) % 64 < (q + 127 - l) % 64)
    | none => false)

/-- Whether another queue whose head descriptor can issue is picked before queue `q` (R240). -/
def Dev.outranked (d : Dev) (q : Nat) : Bool := d.queues.any fun e => d.canIssue e.1 && d.before e.1 q

/-- The head descriptor of queue `q` when its opcode is `op`. -/
def Dev.head (d : Dev) (q op : Nat) : Option Desc :=
  match (d.queue q).fetched with
  | x :: _ => if dOp x = op then some x else none
  | [] => none

/-- Takes the head descriptor into the issued ones and advances HEAD (R241). -/
def Dev.take (d : Dev) (q : Nat) (x : Desc) : Dev × Issued :=
  let h := d.rd (F.Q_HEAD_HEAD q)
  let i : Issued := { idx := h, d := x, seq := d.issueSeq }
  let ql := d.queue q
  let d := { d with issueSeq := d.issueSeq + 1, lastIssue := fset d.lastIssue (d.rd (F.Q_CFG_PRIO q)) q }
  let d := d.setQueue q { ql with fetched := ql.fetched.drop 1, issued := ql.issued ++ [i], waitSeq := none, grace := false }
  (((d.wr (F.Q_HEAD_HEAD q) ((h + 1) % 2 ^ d.rd (F.Q_CFG_LOG2 q))).blockAs q 0), i)

/-- The head of queue `q` waits for tiles; it keeps its place among those that wait (R221). -/
def Dev.waitTiles (d : Dev) (q : Nat) : Dev :=
  let x := d.queue q
  let d := if x.waitSeq.isSome then d
    else { d with waitCount := d.waitCount + 1 }.setQueue q { x with waitSeq := some d.waitCount }
  d.blockAs q 5

/-- Runs `f` on the head descriptor of queue `q` when its opcode is `op`, the queue is the one picked (R240) and nothing keeps it from
issuing (R241); a reason that does is shown in STATUS.BLOCK. -/
def Dev.onHead (d : Dev) (q op : Nat) (f : Dev → Desc → Dev) : Dev :=
  match d.head q op with
  | none => d
  | some x =>
    let b := d.issueBlock q x
    if d.outranked q then d else if b = 0 then f d x else if b = 14 then d else d.blockAs q b

/-- Issues the head descriptor of queue `q` and completes it at once with status `st` (R259). -/
def Dev.reject (d : Dev) (q : Nat) (x : Desc) (st : Nat) : Dev :=
  let r := d.take q x
  r.1.complete q r.2 st

/-- Runs `f` on a well-formed head descriptor with opcode `op` that can issue; a malformed one completes with its status. -/
def Dev.goHead (d : Dev) (q op : Nat) (f : Dev → Desc → Dev) : Dev := d.onHead q op fun d x =>
  if d.headStatus q x != 0 then d.reject q x (d.headStatus q x) else f d x

end Sys2Proof.Machine
end

