-- ==== Sys2Proof/Machine/SeqOps.lean ====
section
/-! DEFINITION. The rail sequencer's engine, its fault engine, FAULT_N and the PMBus masters (chapter 03), as operations on
the always-on domain. -/

namespace Sys2Proof.Machine

/-! ### Engine states (R61) -/

/-- Engine state PREAMBLE. -/
def stPreamble : Nat := 0
/-- Engine state RUN. -/
def stRun : Nat := 1
/-- Engine state HOLD. -/
def stHold : Nat := 2
/-- Engine state DONE. -/
def stDone : Nat := 3
/-- Engine state RESETTING. -/
def stResetting : Nat := 4
/-- Engine state LATCHOFF. -/
def stLatchoff : Nat := 5

/-- The engine's state. -/
def Aon.engine (a : Aon) : Nat := a.rd F.SEQ_STATUS_STATE
/-- Sets the engine's state. -/
def Aon.setEngine (a : Aon) (n : Nat) : Aon := a.wr F.SEQ_STATUS_STATE n
/-- Whether the program advances: PREAMBLE or RUN (R69). -/
def Aon.running (a : Aon) : Bool := a.engine == stPreamble || a.engine == stRun
/-- Sets rail channel `n`. -/
def Aon.setRail (a : Aon) (n : Nat) (r : Rail) : Aon := { a with rails := fset a.rails n r }

/-! ### Rails (R60, R70) -/


/-- Drives SEQ_EN of channel `n` low and disarms it. -/
def Aon.railOff (a : Aon) (n : Nat) : Aon :=
  let r := a.rail n
  ((({ a with enOrder := a.enOrder.filter (· != n) }).setRail n
      { r with armTimer := false, pgArm := false, pgReported := false }).wr
    (F.SEQ_RAIL_STAT_ON n) 0).wr (F.SEQ_RAIL_STAT_ARMED n) 0

/-- Whether the rails must stay off: TEST_EN is high (R52), a brown-out or a thermal trip runs (R110, R113), or the engine
performs a SYSTEM_RESET or is latched off (R80, R81). -/
def Aon.railsHeld (a : Aon) : Bool :=
  a.testEn || a.brown.tripped || a.therm.trip || a.engine == stResetting || a.engine == stLatchoff

/-- Drives SEQ_EN of channel `n` high; it arms at its first rising power-good, or 1 ms later when PG_EN = 0 (R60). A channel
of a group that is shut down stays off (R79). -/
def Aon.railOn (a : Aon) (n : Nat) : Aon :=
  if a.on n || a.railsHeld || (a.rd F.SEQ_STATUS_GROUP_OFF).testBit (a.rd (F.SEQ_RAIL_CFG_GROUP n)) then a else
    let pg := a.is (F.SEQ_RAIL_CFG_PG_EN n)
    (({ a with enOrder := a.enOrder ++ [n] }).setRail n { a.rail n with armTimer := !pg, pgArm := pg }).wr
      (F.SEQ_RAIL_STAT_ON n) 1

/-- Drives the channels of a list low, in order. -/
def Aon.railsOff (a : Aon) : List Nat → Aon
  | [] => a
  | n :: ns => (a.railOff n).railsOff ns
/-- Drives the channels of a list high, in order. -/
def Aon.railsOn (a : Aon) : List Nat → Aon
  | [] => a
  | n :: ns => (a.railOn n).railsOn ns

/-! ### PMBus (R86–R90) -/

/-- The bus of channel `n`. -/
def Aon.busOf (a : Aon) (n : Nat) : Nat := a.rd (F.SEQ_RAIL_PMB_BUS n)
/-- The state of bus `b`. -/
def Aon.bus (a : Aon) (b : Nat) : PmbBus := if b = 0 then a.pmb0 else a.pmb1
/-- Sets the state of bus `b`. -/
def Aon.setBus (a : Aon) (b : Nat) (p : PmbBus) : Aon := if b = 0 then { a with pmb0 := p } else { a with pmb1 := p }
/-- The DEGRADED bit of bus `b` (R88). -/
def degradedBit (b : Nat) : Fld := if b = 0 then F.SEQ_STATUS_PMB0_DEGRADED else F.SEQ_STATUS_PMB1_DEGRADED
/-- Whether bus `b` is out of use (R88). -/
def Aon.degraded (a : Aon) (b : Nat) : Bool := a.is (degradedBit b)

/-- Service priority of a transaction, lowest first (R87). The read of a nominal stands in no class of R87; it comes before every
voltage command, whose units it settles (DESIGN CHOICE, log entry 99). -/
def PmbTxn.prio : PmbTxn → Nat
  | .nominal _ => 0
  | .coreVoltage _ => 0
  | .alert _ _ => 1
  | .clearFaults _ => 1
  | .margin _ _ _ => 2
  | .restore _ => 2
  | .poll _ _ _ _ _ => 3

/-- The channel a transaction addresses; the core voltage goes to channel 6, VDD_CORE (R62), and the alert response address to none. -/
def PmbTxn.chan : PmbTxn → Option Nat
  | .coreVoltage _ => some 6
  | .alert _ _ => none
  | .clearFaults n => some n
  | .nominal n => some n
  | .margin n _ _ => some n
  | .restore n => some n
  | .poll n _ _ _ _ => some n

/-- The VOUT_COMMAND of a margin: round(nominal × (1,000 + 5 × STEP) / 1,000), the step held as step + 10 (R90). -/
def marginValue (nominal st : Nat) : Nat := roundDiv (nominal * (950 + 5 * st)) 1000

/-- Whether a VOUT_MODE says ULINEAR16 (R86): bits 7 to 5 zero (PMBus standard, PRESUMED, log entry 21). -/
def linearMode (w : Nat) : Bool := bits w 5 3 == 0

/-- The ULINEAR16 word of `uv` µV with VOUT_MODE exponent `e`, five bits in two's complement (PMBus standard, PRESUMED, log entry 21). -/
def linearOf (e uv : Nat) : Nat := if e < 16 then roundDiv uv (1000000 * 2 ^ e) else roundDiv (uv * 2 ^ (32 - e)) 1000000

/-- The word of VDD_CORE's regulator for step `st` (R92): on top of the voltage that DVFS requested last, or of the nominal
before it requested any, clipped to 0.60–0.90 V; a 5 mV code is that of R360. -/
def coreWord (r : Rail) (code : Option Nat) (st : Nat) : Nat :=
  let w := match code with
    | some c => linearOf r.vexp (roundDiv ((595000 + 5000 * c) * (950 + 5 * st)) 1000)
    | none => marginValue (r.nominal.getD 0) st
  min (linearOf r.vexp 900000) (max (linearOf r.vexp 600000) w)

/-- The VOUT_COMMAND of channel `n` for step `st`, in the regulator's units (R90, R92). -/
def Aon.voutWord (a : Aon) (n st : Nat) : Nat :=
  if n = 6 then coreWord (a.rail 6) a.coreCode st else marginValue ((a.rail n).nominal.getD 0) st

/-- The VOUT_COMMAND that a transaction writes (R90, R92). -/
def Aon.txnValue (a : Aon) (t : PmbTxn) : Nat :=
  match t with
  | .coreVoltage c => coreWord (a.rail 6) (some c) (a.rail 6).margin
  | .margin n st _ => a.voutWord n st
  | .restore n => a.voutWord n (a.rail n).margin
  | _ => 0

/-- Whether a transaction commands a voltage. -/
def PmbTxn.volts : PmbTxn → Bool
  | .coreVoltage _ | .margin _ _ _ | .restore _ => true
  | _ => false

/-- Whether the regulator of channel `n` takes margin and voltage commands: its nominal is known and its mode is ULINEAR16 (R86, R90). -/
def Aon.takesVolts (a : Aon) (n : Nat) : Bool := (a.rail n).nominal.isSome && !(a.rail n).badMode

/-- Puts a transaction among the waiting ones, after those of its priority (R87). -/
def insTxn (t : PmbTxn) : List PmbTxn → List PmbTxn
  | [] => [t]
  | u :: us => if t.prio < u.prio then t :: u :: us else u :: insTxn t us

/-- Starts the next waiting transaction of an idle bus; a bus in recovery starts none (R88). -/
def Aon.busKick (a : Aon) (b : Nat) : Aon :=
  let p := a.bus b
  if p.recovery != 0 then a else
  match p.txn, p.wait with
  | none, t :: ts => a.setBus b { p with txn := some t, wait := ts, last := t.chan.getD p.last, pecRetried := false }
  | _, _ => a

/-- Queues a transaction on bus `b`; a DEGRADED bus carries none (R88). -/
def Aon.busAdd (a : Aon) (b : Nat) (t : PmbTxn) : Aon :=
  if a.degraded b then a
  else (a.setBus b { a.bus b with wait := insTxn t (a.bus b).wait }).busKick b

/-! ### Causes and pending reactions (R76, R77, R82) -/

/-- The reaction of a rail: SYSTEM_RESET for an essential one, otherwise REACT (R77). -/
def Aon.railReact (a : Aon) (n : Nat) : React :=
  if a.is (F.SEQ_RAIL_CFG_ESSENTIAL n) then .systemReset else
    match a.rd (F.SEQ_RAIL_CFG_REACT n) with
    | 0 => .ignore
    | 1 => .retryRail
    | 2 => .groupShutdown
    | _ => .systemReset

/-- Strength of a reaction (R82). -/
def React.rank : React → Nat
  | .ignore => 0
  | .retryRail => 1
  | .groupShutdown => 2
  | .systemReset => 3

/-- Order of pending reactions: stronger first, then the lower channel (R82). -/
def PendReact.before (x y : PendReact) : Bool :=
  decide (y.react.rank < x.react.rank) ||
    (x.react.rank == y.react.rank && decide (x.ch.getD 24 < y.ch.getD 24))

/-- Puts a pending reaction in its place. -/
def insReact (x : PendReact) : List PendReact → List PendReact
  | [] => [x]
  | y :: ys => if x.before y then x :: y :: ys else y :: insReact x ys

/-- The SEQ_FAULT record of a cause (R103). -/
def Aon.faultRecord (a : Aon) (cause : Nat) (ch : Option Nat) (data : Nat) : Aon :=
  a.record 1 cause (ch.getD 0xFF) data

/-- Sets the bit of a cause in SEQ_FAULT (R76); the CAUSE field begins at bit 1. -/
def Aon.setCause (a : Aon) (cause : Nat) : Aon := a.orf F.SEQ_FAULT_CAUSE (2 ^ (cause - 1))

/-- Raises a cause that belongs to no rail, with a stated reaction (R76, R77). -/
def Aon.raiseDev (a : Aon) (cause : Nat) (react : React) (data : Nat := 0) (group : Nat := 0) (count : Bool := true) : Aon :=
  let a := (a.setCause cause).faultRecord cause none data
  if react = .ignore then a
  else { a with reactQ := insReact { react := react, cause := cause, ch := none, group := group, count := count } a.reactQ }

/-- Raises a cause on channel `n` with reaction `react` (R76, R77): IGNORE records it once per onset (R103). -/
def Aon.raiseRailWith (a : Aon) (cause n : Nat) (react : React) (data : Nat := 0) : Aon :=
  let r := a.rail n
  let a := (((a.setCause cause).wr (F.SEQ_RAIL_STAT_LAST_CAUSE n) cause).sat (F.SEQ_RAIL_STAT_FAULTS n)).setRail n { r with onset := true }
  if react = .ignore then if r.onset then a else a.faultRecord cause (some n) data
  else
    let a := a.faultRecord cause (some n) data
    { a with reactQ := insReact { react := react, cause := cause, ch := some n, group := a.rd (F.SEQ_RAIL_CFG_GROUP n) } a.reactQ }

/-- Raises a cause on channel `n` with the channel's reaction. -/
def Aon.raiseRail (a : Aon) (cause n : Nat) (data : Nat := 0) : Aon := a.raiseRailWith cause n (a.railReact n) data

/-- Whether the bound input of channel `n` is outside its enabled window. -/
def Aon.adcOut (a : Aon) (n : Nat) : Bool :=
  let i := a.rd (F.SEQ_RAIL_CFG_ADC n)
  a.is (F.SEQ_RAIL_CFG_ADC_EN n) && a.is (F.SEQ_ADC_WIN_EN i) && a.is (F.SEQ_ADC_VAL_OUT i)

/-- Whether neither power-good, nor the bound ADC window, nor the regulator's last STATUS_WORD shows a fault of channel `n`. -/
def Aon.isHealthy (a : Aon) (n : Nat) : Bool :=
  ((a.rail n).pg || !a.is (F.SEQ_RAIL_CFG_PG_EN n)) && !a.adcOut n && !(a.rail n).pmbBad

/-- Channel `n` returns to health: a later fault is a new onset (R77). -/
def Aon.healthy (a : Aon) (n : Nat) : Aon :=
  if a.isHealthy n then a.setRail n { a.rail n with onset := false } else a

/-! ### FAULT_N (R83–R85) -/

/-- The level of FAULT_N as SEQ_STATUS shows it. -/
def Aon.showFaultN (a : Aon) : Aon :=
  a.wr F.SEQ_STATUS_FAULTN_LOW (if a.is F.SEQ_STATUS_FAULTN_DRIVE || a.faultN.extLow then 1 else 0)
/-- Drives FAULT_N low (R83); the preamble restarts only after the guard of R85. -/
def Aon.driveFaultN (a : Aon) : Aon :=
  ({ a with faultN := { a.faultN with guardWait := true, releaseCheck := false } }.wr F.SEQ_STATUS_FAULTN_DRIVE 1).showFaultN

/-! ### Reactions (R69, R78–R82) -/

/-- The engine enters HOLD for a reaction (R69). -/
def Aon.hold (a : Aon) : Aon :=
  if a.engine = stHold then a else ({ a with heldState := a.engine }).setEngine stHold

/-- The engine leaves HOLD. -/
def Aon.unhold (a : Aon) : Aon := if a.engine = stHold then a.setEngine a.heldState else a

/-- Marks channel `n` in reaction or not. -/
def Aon.inReaction (a : Aon) (n : Nat) (on : Bool) : Aon := a.wr (F.SEQ_RAIL_STAT_IN_REACTION n) (if on then 1 else 0)

/-- A reaction ends: the engine leaves HOLD until the next one begins. -/
def Aon.endReaction (a : Aon) : Aon :=
  let a := (List.range 24).foldl (fun a n => a.inReaction n false) a
  ({ a with reacting := .none }).unhold

/-- Drops the pending reactions of channel `n`, which a reaction switches off; their causes stay recorded (R82). -/
def Aon.dropReacts (a : Aon) (n : Nat) : Aon := { a with reactQ := a.reactQ.filter fun p => p.ch != some n }

/-- The strongest pending reaction, when none is in progress, neither brown-out nor thermal trip runs (R82), and the
device is not latched off (R81). A reaction that becomes due while a weaker one runs waits for its end: the spec orders only
faults detected together (DESIGN CHOICE, log entry 100). -/
def Aon.nextReact (a : Aon) : Option PendReact :=
  if a.reacting == .none && !a.brown.tripped && !a.therm.trip && a.engine != stLatchoff then a.reactQ.head? else none

/-- RETRY_RAIL on channel `n` has failed its last attempt, or has none: GROUP_SHUTDOWN with RETRY_EXHAUSTED (R77, R78). -/
def Aon.escalate (a : Aon) (n : Nat) : Aon :=
  let a := (a.setRail n { a.rail n with retry := .idle }).inReaction n false
  (({ a with reacting := .none }).raiseRailWith 0xF n .groupShutdown)

/-- The next attempt of RETRY_RAIL on channel `n`, or its escalation (R78): SEQ_EN low and the back-off starts. -/
def Aon.attempt (a : Aon) (n : Nat) : Aon :=
  if a.rd (F.SEQ_RAIL_STAT_RETRY_COUNT n) < a.rd (F.SEQ_RAIL_CFG_RETRIES n) then
    let a := ((a.railOff n).dropReacts n).hold
    ((({ a with reacting := .retry n }).setRail n { a.rail n with retry := .backoff }).wr
      (F.SEQ_RAIL_STAT_RETRY_COUNT n) (a.rd (F.SEQ_RAIL_STAT_RETRY_COUNT n) + 1)).inReaction n true
  else a.escalate n

/-- A fault of a rail whose retry attempt is being verified starts the next attempt instead of a new reaction (R78). -/
def Aon.refault (a : Aon) (n : Nat) : Aon :=
  match a.reacting, (a.rail n).retry with
  | .retry m, .verify _ =>
    if m = n then (a.dropReacts n).attempt n else a
  | _, _ => a

/-- Drives low the next channel of a switch-off list; its pending reactions are dropped (R82). -/
def Aon.offNext (a : Aon) : List Nat → Aon × List Nat
  | [] => (a, [])
  | n :: ns => ((a.railOff n).dropReacts n, ns)

/-- GROUP_SHUTDOWN of group `g` begins (R79): the first channel goes low, GROUP_OFF is set, a SHARED group drives FAULT_N. -/
def Aon.groupStart (a : Aon) (g : Nat) : Aon :=
  let a := (a.hold).orf F.SEQ_STATUS_GROUP_OFF (2 ^ g)
  let a := if a.is (F.SEQ_GRP_CFG_SHARED g) then a.driveFaultN else a
  let offs := a.enOrder.reverse.filter fun n => a.rd (F.SEQ_RAIL_CFG_GROUP n) == g
  let (a, offs) := a.offNext offs
  if offs.isEmpty then a.endReaction else { a with reacting := .group g offs }

/-- SYSTEM_RESET begins (R80, R81): its record, FAULT_N, and the first channel low; past RST_LIMIT it ends in LATCHOFF. -/
def Aon.sysStart (a : Aon) (count : Bool) : Aon :=
  let rc := a.rd F.SEQ_STATUS_RST_COUNT
  let lim := a.rd F.SEQ_CTRL_RST_LIMIT
  let latch := count && lim != 0 && decide (lim < rc + 1)
  let a := (a.record 3 0 0xFF rc).driveFaultN
  let a := if latch then a.raiseDev 0xD .ignore else a
  let a := { a with wait := .none, reactQ := [], pmb0 := { last := a.pmb0.last }, pmb1 := { last := a.pmb1.last } }
  let (a, offs) := (a.setEngine stResetting).offNext a.enOrder.reverse
  { a with reacting := .sysOff offs count latch }

/-- The switch-off of SYSTEM_RESET has ended: LATCHOFF, or the 100 ms wait (R80, R81). -/
def Aon.sysOffDone (a : Aon) (count latch : Bool) : Aon :=
  if latch then ({ a with reacting := .none }).setEngine stLatchoff else { a with reacting := .sysWait count }

/-! ### The program (R63–R68) -/

/-- A SEQ instruction's fields (R67). -/
def iOp (w : Nat) : Nat := bits w 28 4
/-- MASK of ENABLE and DISABLE. -/
def iMask (w : Nat) : Nat := bits w 0 24
/-- IDX of WAITPG and CHECK, CH of MARGIN. -/
def iIdx (w : Nat) : Nat := bits w 16 5

/-- Whether an instruction of a program of length `len` is illegal (R65). -/
def Aon.illegal (a : Aon) (len w : Nat) : Bool :=
  match iOp w with
  | 0 => bits w 0 28 != 0
  | 1 => bits w 24 4 != 0
  | 2 => bits w 24 4 != 0
  | 3 => bits w 16 9 != 0 || bits w 27 1 != 0
  | 4 => bits w 21 4 != 0 || bits w 0 16 == 0 ||
      (if bits w 27 1 = 0 then decide (23 < iIdx w) else decide (7 < iIdx w))
  | 5 => bits w 12 4 != 0 || bits w 21 5 != 0 || (bits w 26 2 == 3 && decide (23 < iIdx w))
  | 6 => bits w 8 20 != 0 || decide (len ≤ bits w 0 8)
  | 7 => bits w 8 16 != 0 || bits w 25 3 != 0 || decide (len ≤ bits w 0 8)
  | 8 => bits w 8 8 != 0 || bits w 21 7 != 0 || decide (23 < iIdx w) || !stepOk (bits w 0 8) ||
      !a.is (F.SEQ_RAIL_PMB_EN (iIdx w))
  | 9 => bits w 24 4 != 0
  | _ => true

/-- The ROM steps: each enables the channels of its mask and waits for them (R63). -/
def romSteps : ProgSrc → List Nat
  | .preamble => [0x1, 0x2]
  | .remainder => [0x4, 0x8, 0x10, 0x20, 0x40, 0x180, 0x600]
  | .image => []

/-- The current index of the program. -/
def Aon.pc (a : Aon) : Nat := a.rd F.SEQ_STATUS_PC

/-- The ROM sequence runs its step at the current index: it enables the step's channels and waits for them; past its last
step the preamble waits 1 ms, and the remainder ends in DONE (R63). -/
def Aon.romStep (a : Aon) : Aon :=
  match (romSteps a.src)[a.pc]? with
  | some m => { a.railsOn (maskList 24 m) with wait := .pg (maskList 24 m) }
  | none => if a.src = .preamble then { a with wait := .time } else (a.setEngine stDone)

/-- The engine continues with the next instruction (R66): past index 255 or the last loaded instruction it stands at END. -/
def Aon.advance (a : Aon) : Aon :=
  let a := { a with wait := .none }
  match a.src with
  | .image =>
    if a.pc + 1 ≥ a.progLen then ({ a with past := true }).wr F.SEQ_STATUS_PC (a.pc + 1)
    else a.wr F.SEQ_STATUS_PC (a.pc + 1)
  | _ => (a.wr F.SEQ_STATUS_PC (a.pc + 1)).romStep

/-- The preamble starts (R63). -/
def Aon.startPreamble (a : Aon) : Aon :=
  ({ a with src := .preamble, wait := .none, past := false, progLen := 0, heldState := 0 }.setEngine stPreamble).wr
    F.SEQ_STATUS_PC 0

/-- The SEQ_ fields that an image sets: those whose Reset column says CFG (R94, R95). -/
def seqCfgKey (k : Nat) : Bool :=
  let o := k / 64
  (o == 0x100000 && decide (2 ≤ k % 64)) || o == 0x100014 || o == 0x10001c || (decide (0x100040 ≤ o) && decide (o < 0x100060)) ||
    (decide (0x100100 ≤ o) && decide (o < 0x100160)) || (decide (0x100200 ≤ o) && decide (o < 0x100260)) ||
    (decide (0x100400 ≤ o) && decide (o < 0x100480))

/-- The remainder runs in place of an image program (R63, R64), and the SEQ_ fields that an image would set take their ROM values (R94). -/
def Aon.startRemainder (a : Aon) : Aon :=
  let a := { a with src := .remainder, wait := .none, past := false, regs := a.regs.filter fun e => !seqCfgKey e.1 }
  (((a.wr F.SEQ_STATUS_ROMONLY 1).setEngine stRun).wr F.SEQ_STATUS_PC 0).romStep

/-- Stores the words of a loaded program (R94). -/
def Aon.storeProg (a : Aon) : Nat → List Nat → Aon
  | _, [] => a
  | k, w :: ws => (a.wr (F.SEQ_PROG_WORD k) w).storeProg (k + 1) ws

/-- The image program is delivered to the waiting engine (R64): validated, then run, or rejected with PROG_INVALID. -/
def Aon.deliver (a : Aon) (ws : List Nat) : Aon :=
  let a := (List.range 256).foldl (fun a k => a.wr (F.SEQ_PROG_WORD k) 0) a
  let a := a.storeProg 0 ws
  if ws.any (a.illegal ws.length) then
    ((a.wr F.SEQ_STATUS_PROG_REJECTED 1).raiseDev 8 .ignore).startRemainder
  else (({ a with src := .image, wait := .none, progLen := ws.length, past := false }).setEngine stRun).wr
    F.SEQ_STATUS_PC 0

/-- The instruction at the current index of the image program, when the engine may execute it. -/
def Aon.instr (a : Aon) : Option Nat :=
  if a.engine == stRun && a.src == .image && a.wait == .none && !a.past then some (a.rd (F.SEQ_PROG_WORD a.pc)) else none

/-- Runs `f` on the current instruction when its opcode is `op`. -/
def Aon.onInstr (a : Aon) (op : Nat) (f : Nat → Aon → Aon) : Aon :=
  match a.instr with
  | some w => if iOp w = op then f w a else a
  | none => a

/-! ### ADC windows (R72, R91) -/

/-- The margin, held as step + 10, of the channel that input `i` supervises; 10 is none. Of several channels bound to one input the
lowest counts: the spec speaks of one (DESIGN CHOICE, log entry 101). -/
def Aon.inputMargin (a : Aon) (i : Nat) : Nat :=
  match (List.range 24).find? fun n => a.is (F.SEQ_RAIL_CFG_ADC_EN n) && a.rd (F.SEQ_RAIL_CFG_ADC n) == i with
  | some n => (a.rail n).margin
  | none => 10
/-- LOW of input `i` as scaled by the margin of its rail (R91). -/
def Aon.winLow (a : Aon) (i : Nat) : Nat := roundDiv (a.rd (F.SEQ_ADC_WIN_LOW i) * (950 + 5 * a.inputMargin i)) 1000
/-- HIGH of input `i` as scaled by the margin of its rail (R91). -/
def Aon.winHigh (a : Aon) (i : Nat) : Nat := roundDiv (a.rd (F.SEQ_ADC_WIN_HIGH i) * (950 + 5 * a.inputMargin i)) 1000
/-- Whether code `c` of input `i` lies outside its window (R72). -/
def Aon.outside (a : Aon) (i c : Nat) : Bool :=
  decide (a.winHigh i ≤ a.winLow i) || decide (c < a.winLow i) || decide (a.winHigh i < c)

/-- The armed channels that input `i` supervises (R75). -/
def Aon.boundTo (a : Aon) (i : Nat) : List Nat :=
  (List.range 24).filter fun n => a.is (F.SEQ_RAIL_CFG_ADC_EN n) && a.rd (F.SEQ_RAIL_CFG_ADC n) == i && a.armed n

/-- The excursion of input `i` is noted as raised for channel `n`, or for no channel. -/
def Aon.noteRaised (a : Aon) (i : Nat) (n : Option Nat) : Aon := { a with adcRaised := (i, n) :: a.adcRaised }

/-- Raises a cause on each channel of a list for which this excursion of input `i` has not raised it yet. -/
def Aon.raiseAll (a : Aon) (i cause data : Nat) : List Nat → Aon
  | [] => a
  | n :: ns =>
    (if a.adcRaised.contains (i, some n) then a else ((a.noteRaised i (some n)).raiseRail cause n data).refault n).raiseAll i cause data ns

/-- Channels of a list return to health. -/
def Aon.healthyAll (a : Aon) : List Nat → Aon
  | [] => a
  | n :: ns => (a.healthy n).healthyAll ns

/-- The count and the excursion of input `i` start anew. -/
def Aon.adcClear (a : Aon) (i : Nat) : Aon :=
  ({ a with adcRaised := a.adcRaised.filter fun e => e.1 != i }).wr (F.SEQ_ADC_VAL_OUTCNT i) 0

/-- The excursion of input `i` has reached its filter count with code `c` (R72, R75): it raises its cause once for each armed channel
bound to it, and once with reaction IGNORE while there is none. -/
def Aon.adcFault (a : Aon) (i cause c : Nat) : Aon :=
  if !(a.boundTo i).isEmpty then a.raiseAll i cause c (a.boundTo i)
  else if a.adcRaised.contains (i, none) then a else (a.noteRaised i none).raiseDev cause .ignore c

/-- A conversion of input `i` gives code `c` (R71, R72, R75): SCAN is the number of its scan, scans counted from 0 after power-on.
Where LOW ≥ HIGH a code can lie outside in both senses or neither: one below LOW raises ADC_UV, any other ADC_OV (DESIGN CHOICE, log
entry 102). -/
def Aon.convert (a : Aon) (i c : Nat) : Aon :=
  let out := a.outside i c
  let a := ((a.wr (F.SEQ_ADC_VAL_CODE i) c).wr (F.SEQ_ADC_VAL_SCAN i) a.scanNo).wr (F.SEQ_ADC_VAL_OUT i) (if out then 1 else 0)
  if out && a.is (F.SEQ_ADC_WIN_EN i) then
    let n := min (a.rd (F.SEQ_ADC_VAL_OUTCNT i) + 1) 15
    let a := a.wr (F.SEQ_ADC_VAL_OUTCNT i) n
    if a.rd (F.SEQ_ADC_WIN_FILTER i) + 1 ≤ n then a.adcFault i (if c < a.winLow i then 3 else 4) c else a
  else (a.adcClear i).healthyAll (a.boundTo i)

/-- Whether input `i` is the last phase-current input of an enabled PHASE_CFG (R93). -/
def Aon.phaseEnd (a : Aon) (i : Nat) : Bool :=
  a.is F.SEQ_PHASE_CFG_EN && i == a.rd F.SEQ_PHASE_CFG_FIRST + a.rd F.SEQ_PHASE_CFG_COUNT

/-- The phases lost on this scan (R93): the mean exceeds MINCODE and the code lies below IMBAL % of the others' mean. -/
def Aon.lostPhases (a : Aon) : List Nat :=
  let k := a.rd F.SEQ_PHASE_CFG_COUNT + 1
  let ins := (List.range k).map fun j => a.rd (F.SEQ_ADC_VAL_CODE (a.rd F.SEQ_PHASE_CFG_FIRST + j))
  let tot := ins.sum
  if tot > a.rd F.SEQ_PHASE_CFG_MINCODE * k then
    (List.range k).filter fun j => decide (ins.getD j 0 * 100 * (k - 1) < a.rd F.SEQ_PHASE_CFG_IMBAL * (tot - ins.getD j 0))
  else []

/-- Whether a STATUS_WORD reports a VOUT, IOUT, temperature or input fault (R76; bits of the PMBus standard, PRESUMED, log
entry 21). -/
def statusFault (w : Nat) : Bool := w &&& 0xE03C != 0
/-- Whether a phase page reports OFF, IOUT_OC or POWER_GOOD# (R93; bits of the PMBus standard, PRESUMED, log entry 21). -/
def pageLost (w : Nat) : Bool := w &&& 0x0850 != 0

/-! ### Margins (R68, R90, R96) -/

/-- A margin write of channel `n` to step `st` (step + 10) starts; without a nominal there is nothing to scale (R90). -/
def Aon.marginStart (a : Aon) (n st : Nat) (host : Bool) : Aon := a.busAdd (a.busOf n) (.margin n st host)

/-- Removes the margin transactions of channel `n` from bus `b`. -/
def Aon.dropMargin (a : Aon) (b n : Nat) (host : Bool) : Aon :=
  let p := a.bus b
  let isM : PmbTxn → Bool := fun t => match t with | .margin m _ h => m == n && h == host | _ => false
  let p := { p with wait := p.wait.filter fun t => !isM t }
  let p := match p.txn with | some t => if isM t then { p with txn := none } else p | none => p
  (a.setBus b p).busKick b

/-- The engine continues with the next instruction now, or once no reaction is left (R69). -/
def Aon.advanceOrHold (a : Aon) : Aon := if a.running then a.advance else { a with wait := .resume }

/-- A margin write of channel `n` has ended (R68, R90, R96): VOUT_COMMAND has been written, or a failed one leaves the previous
margin. -/
def Aon.marginEnd (a : Aon) (n st : Nat) (host ok : Bool) : Aon :=
  let a := a.dropMargin (a.busOf n) n host
  let a := if ok then (a.send (.pmbus (a.busOf n) (.margin n st host) (a.voutWord n st))).setRail n { a.rail n with margin := st } else a
  if host then (a.wr F.SEQ_MARGIN_BUSY 0).wr F.SEQ_MARGIN_OK (if ok then 1 else 0)
  else (a.wr F.SEQ_STATUS_F (if ok then 1 else 0)).advanceOrHold

/-- The engine's or the host's margin write in progress. -/
def Aon.marginOf (a : Aon) : Option (Nat × Nat × Bool) :=
  match a.wait with
  | .margin n st => some (n, st, false)
  | _ => if a.is F.SEQ_MARGIN_BUSY then
      some (a.rd F.SEQ_MARGIN_CH, (a.rd F.SEQ_MARGIN_STEP + 10) % 256, true) else none

/-- The full scans over which a retry attempt of channel `n` is verified; 0 stands for 1 ms (R78). -/
def Aon.verifyScans (a : Aon) (n : Nat) : Nat :=
  if a.is (F.SEQ_RAIL_CFG_ADC_EN n) then a.rd (F.SEQ_ADC_WIN_FILTER (a.rd (F.SEQ_RAIL_CFG_ADC n))) + 1 else 0

/-- Channel `n` becomes armed (R60): its nominal is read when it first arms, and a margin is written again (R90). -/
def Aon.arm (a : Aon) (n : Nat) : Aon :=
  let r := a.rail n
  let rt := if r.retry = .waitPg then .verify (a.verifyScans n) else r.retry
  let a := (a.setRail n { r with armTimer := false, pgArm := false, retry := rt }).wr (F.SEQ_RAIL_STAT_ARMED n) 1
  if !a.is (F.SEQ_RAIL_PMB_EN n) then a
  else if r.nominal.isNone then a.busAdd (a.busOf n) (.nominal n)
  else if r.margin = 10 then a
  else a.busAdd (a.busOf n) (.restore n)

end Sys2Proof.Machine
end

