-- ==== Sys2Proof/Machine/ResetOps.lean ====
section
/-! DEFINITION. The resets of R116 that reset everything outside the always-on domain, and the restart of the preamble. -/

namespace Sys2Proof.Machine

/-- STRAP_BOOT (R55). -/
def State.strapBoot (s : State) : Nat := bits s.strap.toNat 4 2
/-- STRAP_PAIR (R55). -/
def State.strapPair (s : State) : Bool := s.strap.getLsbD 6
/-- STRAP_SEQROM (R55). -/
def State.strapSeqrom (s : State) : Bool := s.strap.getLsbD 7
/-- The clasp chip ID (R55, R56). -/
def State.chipId (s : State) : Nat := bits s.strap.toNat 0 4

/-- Reports the discovery of the always-on port in BOOT_SFDP (R122, log entry 23). -/
def Dev.showSfdp (d : Dev) (x : Option Sfdp) : Dev :=
  match x with
  | some f => d.wrs [(F.BOOT_SFDP_MODE, f.mode), (F.BOOT_SFDP_ERSUSP, if f.eraseSuspend then 1 else 0),
      (F.BOOT_SFDP_SIZE_LOG2, f.sizeLog2), (F.BOOT_SFDP_PRESENT, 1)]
  | none => d

/-- The part outside the always-on domain after a reset that covers PERI, CORE and TILE (R116): every register and every
piece of state at its reset value. What lies outside the block stays: the levels of input balls, the record
of what was sent, the free-value counter and the clocks. -/
def Dev.reset (d : Dev) : Dev :=
  { out := d.out, strap := d.strap, free := d.free, uptime := d.uptime, vp := { a := d.vp.a, csN := d.vp.csN, oeN := d.vp.oeN },
    card := { det := d.card.det, offGuard := d.card.vccEn || d.card.offGuard }, tb := { now := d.tb.now } }

/-- Notes a reset in BOOT_CAUSE (R137): 0 power-on, 1 SYSTEM_RESET, 2 RESET_N, 3 watchdog, 4 PERST#, 5 FLR. -/
def Aon.cause (a : Aon) (k : Nat) : Aon := (a.wr F.BOOT_CAUSE_LAST k).orf F.BOOT_CAUSE_SEEN (2 ^ k)

/-- The power and thermal controller is told that the bus of VDD_CORE is DEGRADED (R89). -/
def Dev.tellDegraded (d : Dev) (a : Aon) : Dev :=
  if a.is (F.SEQ_RAIL_PMB_EN 6) && a.degraded (a.busOf 6) then d.wr F.PWR_STATUS_VFROZEN 1 else d

/-- Full reset of everything outside the always-on domain, noted as cause `k`; a bus that stays DEGRADED through it is reported
again (R89). -/
def State.fullReset (s : State) (k : Nat) : State :=
  { s with aon := s.aon.cause k, dev := ((s.dev.reset).showSfdp s.aon.sfdp).tellDegraded s.aon }

/-- A rail at a restart of the preamble: its nominal is read anew, and no retry runs. -/
def Rail.restart (r : Rail) : Rail := { r with nominal := none, badMode := false, pmbBad := false, retry := .idle, onset := false }

/-- A PHASE_IMBAL mark and the margins' nominals are read anew after a SYSTEM_RESET (R90); groups that were shut down may be
enabled again (R79) and DEGRADED buses carry transactions again (R88). -/
def Aon.restartSeq (a : Aon) : Aon :=
  let rs := List.map (fun p : Nat × Rail => (p.1, p.2.restart)) a.rails
  let a := { a with reacting := .none, reactQ := [], pmb0 := {}, pmb1 := {}, rails := rs, coreCode := none }
  let a := ((a.wr F.SEQ_STATUS_GROUP_OFF 0).wr F.SEQ_STATUS_PMB0_DEGRADED 0).wr F.SEQ_STATUS_PMB1_DEGRADED 0
  let a := a.railsOff a.enOrder
  (((a.wr F.SEQ_STATUS_ROMONLY 0).wr F.SEQ_STATUS_PROG_REJECTED 0)).startPreamble

/-- The restart of the preamble with the reset scope of a SYSTEM_RESET (R80, R111, R116). -/
def State.restart (s : State) : State := (s.onAon Aon.restartSeq).fullReset 1

/-- The preferred copy of the image: 1 is A, 2 is B (R55). -/
def State.preferred (s : State) : Nat := if s.strapBoot = 1 then 2 else 1

/-- No image is in use: stage 8, and the waiting engine runs the ROM remainder (R120). -/
def State.noImage (s : State) : State :=
  let s := s.onDev fun d => { d with boot := { d.boot with romOnly := true, image := {} } }.setStage 8
  if s.aon.wait == .boot && s.aon.engine == stPreamble then s.onAon Aon.startRemainder else s

/-- The boot controller starts at the header stage, or in stage 8 when STRAP_BOOT is 0b10 or no NOR answers (R119, R120);
with TEST_EN high the ROM does not start (R52). -/
def State.startBoot (s : State) (redelivery : Bool) : State :=
  if s.aon.testEn then s
  else
    let s := s.onDev fun d => { d with boot := { d.boot with
      released := true, redelivery := redelivery, strapErr := s.strapBoot == 3 } }
    if s.strapBoot = 2 || s.aon.sfdp.isNone then s.noImage
    else s.onDev fun d => ({ d with boot := { d.boot with copy := s.preferred, tried := 0, retryAt := 0, retries := 0 } }).setStage 1

end Sys2Proof.Machine
end

