-- ==== Sys2Proof/Machine/HostIf.lean ====
section
/-! DEFINITION. The commands of the host interface (chapter 06) and of the memory system (chapter 07). -/

namespace Sys2Proof.Machine

/-! ### Configuration requests (R121, R138, R145, R194, R195) -/

/-- Whether configuration requests are answered: stage 5 has ended, or stage 8 is entered (R121). -/
def Dev.cfgReady (d : Dev) : Bool := decide (6 ≤ d.rd F.BOOT_STATUS_STAGE)

/-- Sends the messages of every pending vector that may now be sent (R151). -/
def Dev.flushAll (d : Dev) : Dev := (d.pci.pba.map (·.1)).foldl Dev.flushVec d

/-- One bit as a number. -/
def bit (b : Bool) : Nat := if b then 1 else 0

/-- The value of a field of configuration space (R138, R139), in the encoding of the PCIe Base Specification; sizes are in bytes. -/
def State.cfgField (s : State) (f : CfgField) : Nat :=
  let d := s.dev
  let p := d.pci
  match f with
  | .vendorId => 0x1E8C
  | .deviceId => 0x4816
  | .revisionId => 0x01
  | .classCode => 0x120000
  | .subsystemVendorId => d.boot.subsys.1
  | .subsystemId => d.boot.subsys.2
  | .memorySpaceEnable => bit p.memEnable
  | .linkSpeed => d.rd F.PCI_STATUS_SPEED
  | .linkWidth => d.rd F.PCI_STATUS_WIDTH
  | .maxLinkSpeed => 5
  | .maxLinkWidth => 16
  | .powerState => if d.is F.PCI_STATUS_D3 then 3 else 0
  | .noSoftReset => 0
  | .aspmSupport => 2
  | .aspmControl => if p.aspm then 2 else 0
  | .mpsSupported => 512
  | .mps => p.mps
  | .mrrs => p.mrrs
  | .tenBitTags => 1
  | .extendedTag => 1
  | .flr => 1
  | .cplTimeoutRanges => 6
  | .cplTimeoutValue => p.cplTimeout
  | .aerUncorStatus => p.aerUncor
  | .aerUncorMask => p.aerUncorMask
  | .aerCorStatus => p.aerCor
  | .aerCorMask => p.aerCorMask
  | .ecrcGen => bit p.ecrcGen
  | .ecrcCheck => bit p.ecrcCheck
  | .headerLog n => p.headerLog.getD n 0
  | .msixTableSize => 2047
  | .msixBir => 0
  | .msixTableOffset => 0x308000
  | .msixPbaOffset => 0x310000
  | .msixEnable => bit p.msixEnable
  | .msixFunctionMask => bit p.funcMask
  | .atsQueueDepth => 0
  | .atsPageAligned => 1
  | .atsStu => 0
  | .atsEnable => d.rd F.MMU_STATUS_ATS_EN
  | .priCapacity => 512
  | .priEnable => d.rd F.MMU_STATUS_PRI_EN
  | .priStopped => d.rd F.MMU_STATUS_PRI_STOPPED
  | .pasidWidth => 20
  | .pasidExecute => 0
  | .pasidPrivileged => 0
  | .rebarMin => 0
  | .rebarMax => 16
  | .rebarSize => d.rd F.PCI_BAR2_CTRL_SIZE
  | .serialNumber => Config.dieId.toNat

/-- Without ATS and PRI enabled, host-half requests go out untranslated (R195): what descriptors held by ATS is given up, the requests
for it are dropped, and descriptors that wait for a page request's index resume. -/
def Dev.dropHost (d : Dev) : Dev :=
  let waits := d.prgWait
  let go (q : Nat) (i : Issued) : Issued :=
    let i := { i with held := i.held.filter fun h => !h.host }
    if i.st == .suspended && waits.contains (q, .desc i.seq) then { i with pri := some .success } else i
  { d with
    queues := List.map (fun e : Nat × Queue => (e.1, { e.2 with
      issued := e.2.issued.map (go e.1), rfetch := { e.2.rfetch with waits := false, tr := none },
      rrec := { e.2.rrec with waits := false, tr := none } })) d.queues,
    atsOut := [], atsWait := [], prgWait := [] }

/-- Sets the Enables of ATS and PRI. -/
def Dev.setAtsPri (d : Dev) (f : Fld) (on : Bool) : Dev :=
  let d := d.wr f (bit on)
  if on then d else Dev.done (d.dropHost, [])

/-- What a configuration request does. -/
def Dev.cfgReq (d : Dev) (r : CfgReq) : Dev :=
  match r with
  | .read _ => d
  | .setMemEnable on => { d with pci := { d.pci with memEnable := on } }
  | .setMsix en mask => ({ d with pci := { d.pci with msixEnable := en, funcMask := mask } }).flushAll
  | .setAts on => d.setAtsPri F.MMU_STATUS_ATS_EN on
  | .setPri on => d.setAtsPri F.MMU_STATUS_PRI_EN on
  | .resetPri => d.wr F.MMU_STATUS_PRI_STOPPED 0
  | .setSizes mps mrrs => { d with pci := { d.pci with mps := min mps 512, mrrs := mrrs } }
  | .setCplTimeout v => { d with pci := { d.pci with cplTimeout := v } }
  | .setAspm on => { d with pci := { d.pci with aspm := on } }
  | .setEcrc gen chk => { d with pci := { d.pci with ecrcGen := gen, ecrcCheck := chk } }
  | .setAerMasks u c => { d with pci := { d.pci with aerUncorMask := u, aerCorMask := c } }
  | .clearAer u c =>
    { d with pci := { d.pci with aerUncor := d.pci.aerUncor - (d.pci.aerUncor &&& u), aerCor := d.pci.aerCor - (d.pci.aerCor &&& c) } }

/-- CONFIG_REQUEST (R121, R138, R139): Retry Status until stage 5 has ended; a read answers the field's value. -/
def execConfigRequest (r : CfgReq) (s : State) : Res := s.nextPeri fun d =>
  if d.cfgReady then
    match r with
    | .read f => d.send (.cfgData (s.cfgField f))
    | _ => (d.cfgReq r).send .cfgOk
  else d.send .crs

/-! ### BAR2 (R145–R149) -/

/-- BAR2_RESIZE (R145): ignored while Memory Space Enable is 1, and for a size the BAR does not have. -/
def execBar2Resize (k : Nat) (s : State) : Res := s.nextPeri fun d =>
  if d.pci.memEnable || 16 < k then d else d.wr F.PCI_BAR2_CTRL_SIZE k

/-- The size of BAR2 in bytes (R145). -/
def Dev.bar2Size (d : Dev) : Nat := 2 ^ (20 + d.rd F.PCI_BAR2_CTRL_SIZE)

/-- The device physical address that BAR2 offset `x` targets (R146). -/
def Dev.bar2Target (d : Dev) (x : Nat) : Nat :=
  let b := d.rd F.PCI_BAR2_BASE_BASE * 2 ^ 20
  b / d.bar2Size * d.bar2Size + x

/-- How many bytes from `p` on lie in one piece of backed memory (R146, R528). -/
def Dev.backedLen (d : Dev) (p : Nat) : Nat :=
  match d.region p with
  | .dram => if d.is F.BOOT_STATUS_DRAM_READY then d.memSize - p else 0
  | .sram => if d.sramReady then d.poolBase - p else 0
  | .tile k => if (d.tile k).shutter == .opened then tileBase k + tileSize - p else 0
  | _ => 0

/-- Whether `n` bytes at `p` lie in backed memory, which may be several pieces that adjoin (R146, R156). -/
def Dev.backedRun (d : Dev) : Nat → Nat → Nat → Bool
  | 0, _, n => n == 0
  | f + 1, p, n => n == 0 || (d.backedLen p != 0 && d.backedRun f (p + d.backedLen p) (n - d.backedLen p))

/-- Whether `n` bytes at `p` lie in backed memory (R146, R528). -/
def Dev.backed (d : Dev) (p n : Nat) : Bool := d.backedLen p != 0 && d.backedRun 4 p n

/-- Whether a BAR2 access of `n` bytes at `p` reaches memory: EN, backing, and for DRAM a usable key slot (R147, R148, R176). -/
def Dev.bar2Ok (d : Dev) (p n : Nat) : Bool :=
  d.is F.PCI_BAR2_CTRL_EN && d.backed p n && (decide (2 ^ 36 ≤ p) || d.keyOk (d.rd F.PCI_BAR2_CTRL_KEYSEL))

/-- BAR2_READ (R147, R148, R154). No rule says what bytes a poisoned completion carries: they are free values (log entry 12). -/
def execBar2Read (off len rid : Nat) (s : State) : Res := s.nextPeri fun d =>
  let p := d.bar2Target off
  if d.is F.PCI_STATUS_D3 then d.send .unsupported
  else if !d.bar2Ok p len then (d.pciErr 2 p rid).send (.completion (List.replicate len 0) false)
  else
    match d.badGran p len with
    | some g =>
      let bs := (List.range len).map fun k => (Config.freeValue (d.free + k)).setWidth 8
      ({ d with free := d.free + len }.logUe g 4 0).send (.completion bs true)
    | none =>
      let k := min len (2 ^ 36 - p)
      let bs := d.readMem (d.rd F.PCI_BAR2_CTRL_KEYSEL) p k ++ d.mem.read (p + k) (len - k)
      (d.correct p len).send (.completion bs false)

/-! A write brings a byte for each of its byte enables that is set (R147). -/

/-- The position after the last enabled byte. -/
def lastOn : List (Option Byte) → Nat
  | [] => 0
  | b :: bs => let n := lastOn bs; if n = 0 then (if b.isSome then 1 else 0) else n + 1

/-- The position of the first enabled byte. -/
def firstOn (bs : List (Option Byte)) : Nat := (bs.takeWhile Option.isNone).length

/-- Puts a byte before the runs of those that follow it. -/
def consRun (p : Nat) (b : Byte) : List (Nat × List Byte) → List (Nat × List Byte)
  | (q, xs) :: rs => if q = p + 1 then (p, b :: xs) :: rs else (p, [b]) :: (q, xs) :: rs
  | [] => [(p, [b])]

/-- The runs of enabled bytes of a write at `p`; none crosses the end of the DRAM region. -/
def byteRuns (p : Nat) : List (Option Byte) → List (Nat × List Byte)
  | [] => []
  | none :: bs => byteRuns (p + 1) bs
  | some b :: bs => if p + 1 = 2 ^ 36 then (p, [b]) :: byteRuns (p + 1) bs else consRun p b (byteRuns (p + 1) bs)

/-- The first address that a write at `p` touches, and the bytes from there to the last. -/
def spanOn (p : Nat) (bs : List (Option Byte)) : Nat × Nat := (p + firstOn bs, lastOn bs - firstOn bs)

/-- Whether a BAR2 write at `p` reaches memory. -/
def Dev.bar2Takes (d : Dev) (p : Nat) (bs : List (Option Byte)) : Bool := d.bar2Ok (spanOn p bs).1 (spanOn p bs).2

/-- A BAR2 write reaches memory or is discarded as a hole (R147, R149). -/
def Dev.bar2Store (d : Dev) (p rid : Nat) (bs : List (Option Byte)) : Dev :=
  if d.bar2Takes p bs then
    (byteRuns p bs).foldl (fun (d : Dev) (r : Nat × List Byte) => d.writeMem (d.rd F.PCI_BAR2_CTRL_KEYSEL) r.1 r.2 4 0) d
  else d.pciErr 2 p rid

/-- The enabled apertures that a requester ID matches, lowest first (R157). -/
def Dev.apMatch (d : Dev) (rid : Nat) : List Nat :=
  (List.range 8).filter fun k =>
    d.is (F.PCI_AP_CTL_EN k) && ((rid ^^^ d.rd (F.PCI_AP_CFG_RID k)) &&& (0xFFFF ^^^ d.rd (F.PCI_AP_CFG_RID_MASK k))) % 65536 == 0

/-- Whether `n` bytes at `p` lie in aperture `k` (R157). -/
def Dev.inAp (d : Dev) (k p n : Nat) : Bool :=
  decide (d.rd (F.PCI_AP_BASE_ADDR k) ≤ p) && decide (p + n ≤ d.rd (F.PCI_AP_LIMIT_ADDR k) + 1)

/-- The number of slots of aperture `k` whose last byte a write at `p` covers (R157). -/
def Dev.apSlots (d : Dev) (k p : Nat) (bs : List (Option Byte)) : Nat :=
  let b := d.rd (F.PCI_AP_BASE_ADDR k)
  let z := 2 ^ d.rd (F.PCI_AP_CTL_SLOT_LOG2 k)
  ((List.range bs.length).filter fun j => (bs.getD j none).isSome && (p + j + 1 - b) % z == 0).length

/-- Counts `c` completed slots of aperture `k` on its semaphore, together (R260), or as drops (R157). -/
def Dev.apCount (d : Dev) (k c : Nat) : Dev :=
  let sem := d.rd (F.PCI_AP_SEM_SEM k)
  if c = 0 then d
  else if d.semOwner sem == some (d.rd (F.PCI_AP_CTL_CTX k)) then Dev.done (d.semAdd sem c)
  else d.sat (F.PCI_AP_DROPS_DROPS k) c

/-- A posted write through BAR2 (R146, R147, R157, R158): the lowest matching aperture that holds it counts its slots; a write
of a matching requester that lies in none is a violation, discarded while FILTER = 1. -/
def Dev.bar2Posted (d : Dev) (p rid : Nat) (bs : List (Option Byte)) : Dev :=
  if lastOn bs = 0 then d
  else
    match d.apMatch rid with
    | [] => d.bar2Store p rid bs
    | ks =>
      match ks.find? fun k => d.inAp k (spanOn p bs).1 (spanOn p bs).2 with
      | some k => if d.bar2Takes p bs then (d.bar2Store p rid bs).apCount k (d.apSlots k p bs) else d.bar2Store p rid bs
      | none =>
        let d := (d.pciErr 3 p rid).aerAdvisory rid
        if d.is F.PCI_P2P_CTRL_FILTER then d else d.bar2Store p rid bs

/-- BAR2_WRITE (R149). -/
def execBar2Write (off rid : Nat) (bs : List (Option Byte)) (s : State) : Res := s.nextPeri fun d =>
  if d.is F.PCI_STATUS_D3 then d.send .unsupported else d.bar2Posted (d.bar2Target off) rid bs

/-- P2P_WRITE (R157, R158): the posted write of a peer. -/
def execP2pWrite (rid off : Nat) (bs : List (Option Byte)) (s : State) : Res := s.nextPeri fun d =>
  if d.is F.PCI_STATUS_D3 then d.send .unsupported else d.bar2Posted (d.bar2Target off) rid bs

/-- Whether aperture `k` meets the slot rules and is backed (R156). -/
def Dev.apOk (d : Dev) (k : Nat) : Bool :=
  let b := d.rd (F.PCI_AP_BASE_ADDR k)
  let l := d.rd (F.PCI_AP_LIMIT_ADDR k)
  let z := 2 ^ d.rd (F.PCI_AP_CTL_SLOT_LOG2 k)
  b % z == 0 && decide (b ≤ l) && (l + 1 - b) % z == 0 && d.is F.PCI_BAR2_CTRL_EN && d.backed b (l + 1 - b)

/-- Writing CTL.EN = 1 of aperture `k` (R156). -/
def Dev.apEnable (d : Dev) (k : Nat) : Dev :=
  if d.is (F.PCI_AP_CTL_EN k) then d else d.wr (F.PCI_AP_CTL_EN k) (if d.apOk k then 1 else 0)

/-- APERTURE_ENABLE (R156). -/
def execApertureEnable (k : Nat) (s : State) (req : Requester := .host 0) : Res :=
  s.devReg req (0x300444 + 32 * k) fun d => if k < 8 then d.apEnable k else d

/-! ### MSI-X table (R527) -/

/-- Writes one DWORD of the table, at offset `o` in it; unmasking a pending vector sends its message (R151). -/
def Dev.msixDword (d : Dev) (o v : Nat) : Dev :=
  let i := o / 16
  let e := d.msixEntry i
  let e := match o % 16 / 4 with
    | 0 => { e with addr := e.addr / 2 ^ 32 * 2 ^ 32 + v % 2 ^ 32 }
    | 1 => { e with addr := e.addr % 2 ^ 32 + v % 2 ^ 32 * 2 ^ 32 }
    | 2 => { e with data := v % 2 ^ 32 }
    | _ => { e with mask := v % 2 == 1 }
  ({ d with pci := { d.pci with msix := if e = (⟨0, 0, true⟩ : MsixEntry) then fdel d.pci.msix i else fset d.pci.msix i e } }).flushVec i

/-- The value of one DWORD of the table. -/
def Dev.msixRead (d : Dev) (o : Nat) : Nat :=
  let e := d.msixEntry (o / 16)
  match o % 16 / 4 with
  | 0 => e.addr % 2 ^ 32
  | 1 => e.addr / 2 ^ 32 % 2 ^ 32
  | 2 => e.data
  | _ => if e.mask then 1 else 0

/-- A write of `width` bytes to BAR0 offset `off` of the MSI-X table (R9, R527). -/
def Dev.msixWrite (d : Dev) (rid off width v : Nat) : Dev :=
  let o := off - 0x308000
  if width = 4 && off % 4 == 0 then d.msixDword o v
  else if width = 8 && off % 8 == 0 then (d.msixDword o (v % 2 ^ 32)).msixDword (o + 4) (v / 2 ^ 32)
  else d.pciErr 0 off rid

/-- MSIX_TABLE_WRITE (R527). -/
def execMsixTableWrite (off width val : Nat) (s : State) (req : Requester := .host 0) : Res := s.devReg req 0x308000 fun d =>
  if 0x308000 ≤ off && off < 0x310000 then d.msixWrite (ridOf req) off width val else d

/-! ### Completions (R140, R141) -/

/-- A failing completion of a mover request: CPL_FAIL in PCI_ERR with its host address, and the kill of the context (R141, R162). Context
0 sends no request to the host (R155). -/
def Dev.cplFail (d : Dev) (r : HRead) (i : Issued) : Dev :=
  (d.pciErr 4 r.src.addr 0).kill { c := d.qctx r.q, cause := 0x11, src := moverSrc i, addr := r.va }

/-- MOVER_COMPLETION (R141): the data of a good completion goes to its descriptor; one whose descriptor is no more, or has given the data
up, is discarded. -/
def execMoverCompletion (q idx addr : Nat) (st : CplStatus) (bytes : List Byte) (s : State) : Res := s.nextCore fun d =>
  match d.pci.reads.find? fun r => r.q == q && r.idx == idx && r.src.addr == addr with
  | none => d
  | some r =>
    let d := d.readDone r
    match if r.live then d.bySeq q r.seq else none with
    | none => d
    | some i =>
      if st = .ok then
        d.setIssued q { i with acked := i.acked + 1, rdata := i.rdata ++ [(r.elem, (bytes ++ List.replicate r.len 0).take r.len)] }
      else d.cplFail r i

/-- COMPLETION_TIMEOUT (R141, R215): the oldest read of the descriptor is not answered in time. -/
def execCompletionTimeout (q idx : Nat) (s : State) : Res := s.nextCore fun d =>
  match d.pci.reads.find? fun r => r.q == q && r.idx == idx with
  | none => d
  | some r =>
    let d := d.readDone r
    match if r.live then d.bySeq q r.seq else none with
    | none => d
    | some i => d.cplFail r i

/-- PCIE_LINK_UP (R121): with PERST# high and VDD_PCIE_A (channel 7) armed. The host's first credits come with it. -/
def execPcieLinkUp (speed width : Nat) (s : State) (credits : Nat := 1) : Res := s.nextPeri fun d =>
  if s.aon.perstN && s.aon.armed 7 then
    { d with pci := { d.pci with credits := credits, emptySince := if credits = 0 then some d.uptime else none } }.wrs
      [(F.PCI_STATUS_SPEED, speed), (F.PCI_STATUS_WIDTH, width), (F.PCI_STATUS_DL_UP, 1)]
  else d

/-! ### Memory (chapter 07) -/

/-- SHARED_SRAM_CLEAR (R528): once VDD_CORE (channel 6) is armed after a reset that lost its contents, shared SRAM is zero with
valid check bits, and can be reached. -/
def execSharedSramClear (s : State) : Res := s.nextPeri fun d =>
  if s.aon.armed 6 && !d.sramReady then
    { d with mem := d.mem.clear sramBase (sramBase + sramSize), sramReady := true,
             ecc := d.ecc.filter fun e => !(decide (sramBase ≤ e.1) && decide (e.1 < sramBase + sramSize)) }
  else d

/-- An uncorrectable error in the SRAM of the command processor or the translation unit (R37, R142, R179): a DEVICE-class error, logged,
recorded, signalled and posted. No rule names a reset for it, and none follows (log entry 110). -/
def State.internalUe (s : State) (translation : Bool) (ctx : Nat) : State :=
  let src := if translation then 1 else 0
  let code := (Config.blockCode src).toNat
  let (x, d) := (s.dev.logUe 0 6 ctx).fresh
  { s with aon := s.aon.record 8 0 0xFF (code + x * 2 ^ 32),
           dev := d.aerInternal.post { cls := 4, src := src, code := 0x300 + code, data := x } }

/-- A bit error that has arisen (log entry 111): it shows when its word is next read. Those of DRAM without ECC no rule describes. -/
def State.upset (s : State) (u : Upset) : State :=
  match u with
  | .mem a two =>
    match s.dev.region a with
    | .dram => if s.dev.is F.MEM_CFG_ECC then s.onDev fun d => d.upsetMem a two else s
    | .tile _ => s.onDev fun d => d.upsetMem a two
    | _ => if sramBase ≤ a && a < sramBase + sramSize then s.onDev fun d => d.upsetMem a two else s
  | .quire n e two =>
    if n < 16 && e < 4096 then
      s.onDev fun d =>
        let t := d.tile n
        d.setTile n { t with quireEcc := fset t.quireEcc e (two || (fget t.quireEcc e).isSome) }
    else s
  | .internal tr c two => if two then s.internalUe tr c else s.onDev fun d => d.sat F.MEM_ECC_STAT_SRAM_CE
  | .mullion n => if n < 16 then s.onDev fun d => d.setTile n { d.tile n with mullion := true } else s

/-- The scrubber reads the granule at `g` (R172, R179): a correctable one is rewritten and counted; an uncorrectable one is poisoned,
logged with source SCRUB and posted. The CODE of the event is a free value (log entry 25). -/
def Dev.scrub (d : Dev) (g : Nat) (r : EccResult) : Dev :=
  if r = .uncorrectable || (d.badGran g 64).isSome then
    let d := ({ d with ecc := fset d.ecc g .poison }).logUe g 5 0
    let (x, d) := d.fresh
    d.postInfo 34 (x % 65536) 0 g
  else if r = .correctable || (fget d.ecc g).isSome then ({ d with ecc := fdel d.ecc g }).sat F.MEM_ECC_STAT_DRAM_CE
  else d

/-- SCRUB_READ (R172): with the bit errors that have arisen by now. -/
def execScrubRead (addr : Nat) (r : EccResult) (s : State) (upsets : List Upset := []) : Res := s.inPeri (
  (upsets.foldl State.upset s).nextDev fun d =>
    if d.rd F.MEM_SCRUB_PERIOD = 0 || !d.is F.MEM_CFG_ECC || d.memSize ≤ addr then d else d.scrub (addr / 64 * 64) r)

/-- The key staged in MEM_KEY_DATA (R177, R180). -/
def Dev.stagedKey (d : Dev) : Nat := ((List.range 16).map fun j => d.rd (F.MEM_KEY_DATA_DATA j) * 2 ^ (32 * j)).sum

/-- Clears the staging registers (R177). -/
def Dev.clearStage (d : Dev) : Dev := (List.range 16).foldl (fun d j => d.wr (F.MEM_KEY_DATA_DATA j) 0) d

/-- RESULT of a key command (R177): the first that applies of BAD_SLOT, REFUSED_FUSE, REFUSED_CARD, OK. -/
def Dev.keyResult (d : Dev) (op slot : Nat) : Nat :=
  if slot = 0 then 3
  else if op = 0 && !d.is F.GLB_FUSE_ENC_EN then 2
  else if op = 0 && (d.key slot).st == .card then 1
  else 0

/-- A key command (R177): OP 0 LOAD, 1 ZEROIZE, 2 QUERY. It ends within the command that starts it, so BUSY never shows (log entry
109). -/
def Dev.keyCmd (d : Dev) (op slot : Nat) : Dev :=
  let r := d.keyResult op slot
  let d1 := if r != 0 then d
    else match op with
      | 0 => d.setKey slot { st := .host, key := d.stagedKey }
      | 1 => d.setKey slot {}
      | _ => d.wr F.MEM_KEY_STAT_STATE (d.key slot).st.code
  let d2 := if op = 0 then d1.clearStage else d1
  d2.wrs [(F.MEM_KEY_CMD_OP, op), (F.MEM_KEY_CMD_SLOT, slot), (F.MEM_KEY_STAT_RESULT, r)]

/-- KEY_SLOT_LOAD (R177). -/
def execKeySlotLoad (slot : Nat) (s : State) (req : Requester := .host 0) : Res :=
  s.devReg req 0x400040 fun d => d.keyCmd 0 (slot % 256)

/-- ZEROIZE (R177). -/
def execZeroize (slot : Nat) (s : State) (req : Requester := .host 0) : Res :=
  s.devReg req 0x400040 fun d => d.keyCmd 1 (slot % 256)

/-- KEY_SLOT_QUERY (R177). -/
def execKeySlotQuery (slot : Nat) (s : State) (req : Requester := .host 0) : Res :=
  s.devReg req 0x400040 fun d => d.keyCmd 2 (slot % 256)

end Sys2Proof.Machine
end

