-- ==== Sys2Proof/Machine/Ctx.lean ====
section
/-! DEFINITION. The commands of contexts and translation (chapter 08). -/

namespace Sys2Proof.Machine

/-! ### Context operations (R181–R183) -/

/-- The RESULT codes of MMU_CTX_CMD (R208). -/
inductive CtxRes where
  | ok | badState | ctxZero | pasidInUse | inFlight | noSaveSpace | pinUnmapped | pinNotPinned | pinDiscontig | pinKeyMix
  | pinSavePool | badArg
deriving DecidableEq, Repr

/-- The value of a RESULT code. -/
def CtxRes.code : CtxRes → Nat
  | .ok => 0 | .badState => 1 | .ctxZero => 2 | .pasidInUse => 3 | .inFlight => 4 | .noSaveSpace => 5
  | .pinUnmapped => 6 | .pinNotPinned => 7 | .pinDiscontig => 8 | .pinKeyMix => 9 | .pinSavePool => 10 | .badArg => 11

/-- The context selected by MMU_CTX_SEL. -/
def Dev.sel (d : Dev) : Nat := d.rd F.MMU_CTX_SEL_CTX

/-- An operation ends with a RESULT. -/
def Dev.ctxEnd (d : Dev) (r : CtxRes) : Dev := d.wrs [(F.MMU_CTX_CMD_RESULT, r.code), (F.MMU_CTX_CMD_BUSY, 0)]

/-- A GO with operation `op`: discarded while BUSY (R210); CTX_ZERO for context 0 (R181); else the operation on the selected
context. -/
def Dev.ctxGo (d : Dev) (op : Nat) (f : Dev → Nat → Dev) : Dev :=
  if d.is F.MMU_CTX_CMD_BUSY then d
  else
    let d := d.wr F.MMU_CTX_CMD_OP op
    if d.sel = 0 && op != 7 then d.ctxEnd .ctxZero else f d d.sel

/-- The root that MMU_CTX_ROOT names. -/
def Dev.rootArg (d : Dev) : Nat := d.rd F.MMU_CTX_ROOT_ROOT * 4096

/-- The lowest save record that no context holds; context 0 has record 0 (R228). -/
def Dev.freeRec (d : Dev) : Option Nat :=
  (List.range (256 * d.rd F.CMD_SAVE_POOL_SIZE)).find? fun n => n != 0 && !d.ctxs.any fun e => e.2.saveRec == some n

/-- CREATE (R182): every field cleared, the root set, one save record taken. -/
def Dev.ctxCreate (d : Dev) (c : Nat) : Dev :=
  if (d.ctx c).state != 0 then d.ctxEnd .badState
  else if !d.inMem d.rootArg 4096 then d.ctxEnd .badArg
  else
    match d.freeRec with
    | none => d.ctxEnd .noSaveSpace
    | some n => (d.setCtx c { state := 1, root := d.rootArg, saveRec := some n }).ctxEnd .ok

/-- CREATE. -/
def execCreate (s : State) (req : Requester := .host 0) : Res := s.devReg req 0x500014 fun d => d.ctxGo 0 Dev.ctxCreate

/-- Context `c` enters FREE (R181, R182): unbound, its save record released, its KILLED queues DISABLED (R233), its barrier
entries without an owner. Its energy stays readable (R379). -/
def Dev.freeCtx (d : Dev) (c : Nat) : Dev :=
  let x := d.ctx c
  let d := d.setCtx c { energy := x.energy, frac := x.frac }
  let d := (List.range 64).foldl (fun d q =>
    if d.qctx q == c && d.qstate q == 3 then (d.wrs [(F.Q_STATUS_STATE q, 0), (F.Q_CFG_EN q, 0)]).setQueue q {} else d) d
  { d with cls := { d.cls with bars := List.map (fun b : Nat × Barrier =>
      (b.1, if b.2.owner = some c then { b.2 with owner := none } else b.2)) d.cls.bars } }

/-- DESTROY (R182): an ACTIVE context is killed with DESTROYED; the operation waits until revocation ends. -/
def Dev.ctxDestroy (d : Dev) (c : Nat) : Dev :=
  if (d.ctx c).state = 0 then d.ctxEnd .badState
  else
    let d := if d.active c then d.kill { c := c, cause := 0x16, src := 1 } else d
    if (d.ctx c).revoking then (d.setCtx c { d.ctx c with destroying := true }).wr F.MMU_CTX_CMD_BUSY 1
    else (d.freeCtx c).ctxEnd .ok

/-- DESTROY. -/
def execDestroy (s : State) (req : Requester := .host 0) : Res := s.devReg req 0x500014 fun d => d.ctxGo 1 Dev.ctxDestroy

/-- Whether a context other than `c` is bound to PASID `p` (R183). -/
def Dev.pasidTaken (d : Dev) (c p : Nat) : Bool := d.ctxs.any fun e => e.1 != c && e.2.pasid == some p

/-- BIND (R182, R183). -/
def Dev.ctxBind (d : Dev) (c : Nat) : Dev :=
  let p := d.rd F.MMU_CTX_PASID_PASID
  if !d.active c || (d.ctx c).pasid.isSome then d.ctxEnd .badState
  else if d.pasidTaken c p then d.ctxEnd .pasidInUse
  else (d.setCtx c { d.ctx c with pasid := some p }).ctxEnd .ok

/-- BIND. -/
def execBind (s : State) (req : Requester := .host 0) : Res := s.devReg req 0x500014 fun d => d.ctxGo 2 Dev.ctxBind

/-- The issued descriptors of context `c` that meet `p`. -/
def Dev.flying (d : Dev) (c : Nat) (p : Desc → Bool) : Bool :=
  d.queues.any fun e => d.qctx e.1 == c && e.2.issued.any fun i => p i.d

/-- UNBIND (R182). -/
def Dev.ctxUnbind (d : Dev) (c : Nat) : Dev :=
  if !d.active c || (d.ctx c).pasid.isNone then d.ctxEnd .badState
  else if d.flying c hostHalf then d.ctxEnd .inFlight
  else (d.setCtx c { d.ctx c with pasid := none }).ctxEnd .ok

/-- UNBIND. -/
def execUnbind (s : State) (req : Requester := .host 0) : Res := s.devReg req 0x500014 fun d => d.ctxGo 3 Dev.ctxUnbind

/-- SET_ROOT (R182). -/
def Dev.ctxSetRoot (d : Dev) (c : Nat) : Dev :=
  if !d.active c then d.ctxEnd .badState
  else if !d.inMem d.rootArg 4096 then d.ctxEnd .badArg
  else if d.flying c fun _ => true then d.ctxEnd .inFlight
  else (d.setCtx c { d.ctx c with root := d.rootArg }).ctxEnd .ok

/-- SET_ROOT. -/
def execSetRoot (s : State) (req : Requester := .host 0) : Res := s.devReg req 0x500014 fun d => d.ctxGo 4 Dev.ctxSetRoot

/-! ### Pin windows (R197–R199) -/

/-- What the walk of a range to be pinned has found so far. -/
structure PinScan where
  first : Option Nat := none
  next : Nat := 0
  dram : Bool := false
  key : Nat := 0
  w : Bool := true
  notPin : Bool := false
  disc : Bool := false
  mix : Bool := false
  pool : Bool := false
deriving DecidableEq, Repr

/-- How the walk of a range to be pinned ends. -/
inductive PinR where
  | done (x : PinScan)
  | unmapped
  | ue (va pa : Nat)
deriving DecidableEq, Repr

/-- Adds `n` bytes at `pa` under leaf `l` to what a walk has found. -/
def Dev.pinStep (d : Dev) (x : PinScan) (l : Leaf) (pa n : Nat) : PinScan :=
  let dram := d.inDram pa n
  let fst := x.first.isNone
  { first := some (x.first.getD pa), next := pa + n, dram := dram, key := if dram then l.key else x.key,
    w := x.w && l.w, notPin := x.notPin || !l.pin,
    disc := x.disc || (!fst && (x.next != pa || x.dram != dram)),
    mix := x.mix || (!fst && dram && x.dram && x.key != l.key),
    pool := x.pool || (!dram && d.meetsPool pa n) }

/-- Walks `va` up to `stop` once (R198). -/
def Dev.pinWalk (d : Dev) (c : Nat) : Nat → Nat → Nat → PinScan → PinR
  | 0, _, _, x => .done x
  | f + 1, va, stop, x =>
    if stop ≤ va then .done x
    else
      match d.walk c va with
      | .ue a => .ue va a
      | .err _ => .unmapped
      | .leaf l =>
        let n := min (l.size - va % l.size) (stop - va)
        let pa := l.base + va % l.size
        if l.r && (d.inDram pa n || (decide (sramBase ≤ pa) && decide (pa + n ≤ sramBase + sramSize))) then
          d.pinWalk c f (va + n) stop (d.pinStep x l pa n)
        else .unmapped

/-- The result of a walk: a code, and the window when it is OK (R198). -/
def PinScan.result (x : PinScan) (va len : Nat) : CtxRes × PinWin :=
  let w : PinWin := { base := x.first.getD 0, len := len, key := if x.dram then x.key else 0, w := x.w, va := va }
  (if x.notPin then .pinNotPinned else if x.disc then .pinDiscontig else if x.mix then .pinKeyMix
   else if x.pool then .pinSavePool else .ok, w)

/-- The pass and vector operations of the tiles leased to context `c` that have begun by now: each tile's next number. -/
def Dev.tileMarks (d : Dev) (c : Nat) : List (Nat × Nat) :=
  ((List.range 16).filter fun n => d.leasedTo n c).map fun n => (n, (d.tile n).opseq)

/-- Whether every pass and vector operation older than the marks has ended (R199). -/
def Dev.quiet (d : Dev) (marks : List (Nat × Nat)) : Bool :=
  marks.all fun m =>
    let t := d.tile m.1
    (t.passes.all fun p => decide (m.2 ≤ p.mark)) && t.vq.all fun o => decide (m.2 ≤ o.seq)

/-- Walks and registers window `i` from MMU_PIN_VA and MMU_PIN_LEN (R198). -/
def Dev.pinNow (d : Dev) (c i : Nat) : Dev :=
  let va := d.rd F.MMU_PIN_VA_VA * 4096
  let len := d.rd F.MMU_PIN_LEN_LEN * 4096
  match d.pinWalk c (len / 4096 + 1) va (va + len) {} with
  | .unmapped => d.ctxEnd .pinUnmapped
  | .ue _ a => ((d.logUe a 1 c).kill { c := c, cause := 0x10, addr := a }).ctxEnd .pinUnmapped
  | .done x =>
    let (r, w) := x.result va len
    if r = .ok then
      ((d.setCtx c { d.ctx c with pins := fset (d.ctx c).pins i w }).wrs
        [(F.MMU_PIN_PA_PA, w.base / 4096), (F.MMU_PIN_PA_W, if w.w then 1 else 0)]).ctxEnd .ok
    else d.ctxEnd r

/-- Window `i` of context `c` is cleared, and the operation that waited for it goes on (R199). -/
def Dev.unpinNow (d : Dev) (c i : Nat) : Dev :=
  let x := d.ctx c
  let d := d.setCtx c { x with pins := fdel x.pins i, unpin := none, marks := [] }
  if d.rd F.MMU_CTX_CMD_OP = 5 then (if d.active c then d.pinNow c i else d.ctxEnd .badState) else d.ctxEnd .ok

/-- A request to clear window `i`: at once, or when the operations in progress have ended (R199). -/
def Dev.unpinAsk (d : Dev) (c i : Nat) : Dev :=
  let m := d.tileMarks c
  if d.quiet m then d.unpinNow c i
  else (d.setCtx c { d.ctx c with unpin := some i, marks := m }).wr F.MMU_CTX_CMD_BUSY 1

/-- PIN (R198, R199). -/
def Dev.ctxPin (d : Dev) (c : Nat) : Dev :=
  let i := d.rd F.MMU_PIN_IDX_IDX
  let len := d.rd F.MMU_PIN_LEN_LEN
  if !d.active c then d.ctxEnd .badState
  else if len = 0 || 2 ^ 24 < len || 2 ^ 47 < (d.rd F.MMU_PIN_VA_VA + len) * 4096 then d.ctxEnd .badArg
  else if (fget (d.ctx c).pins i).isSome then d.unpinAsk c i else d.pinNow c i

/-- PIN. -/
def execPin (s : State) (req : Requester := .host 0) : Res := s.devReg req 0x500014 fun d => d.ctxGo 5 Dev.ctxPin

/-- UNPIN (R199). -/
def Dev.ctxUnpin (d : Dev) (c : Nat) : Dev :=
  let i := d.rd F.MMU_PIN_IDX_IDX
  if !d.active c then d.ctxEnd .badState
  else if (fget (d.ctx c).pins i).isSome then d.unpinAsk c i else d.ctxEnd .ok

/-- UNPIN. -/
def execUnpin (s : State) (req : Requester := .host 0) : Res := s.devReg req 0x500014 fun d => d.ctxGo 6 Dev.ctxUnpin

/-- UNPIN_COMPLETE (R199): once the passes and vector operations in progress at the UNPIN have ended. -/
def execUnpinComplete (c idx : Nat) (s : State) : Res := s.nextCore fun d =>
  if (d.ctx c).unpin = some idx && d.quiet (d.ctx c).marks then d.unpinNow c idx else d

/-- The SUSPENDED descriptors of context `c` (R208). -/
def Dev.suspendedOf (d : Dev) (c : Nat) : Nat := (d.collect fun q i => d.qctx q == c && i.st == .suspended).length

/-- QUERY (R182, R208). -/
def Dev.ctxQuery (d : Dev) (c : Nat) : Dev :=
  let x := d.ctx c
  (d.wrs [(F.MMU_CTX_STATE_STATE, x.state), (F.MMU_CTX_STATE_CAUSE, x.cause), (F.MMU_CTX_STATE_SUSPENDED, d.suspendedOf c),
    (F.MMU_CTX_ROOT_ROOT, x.root / 4096), (F.MMU_CTX_PASID_PASID, x.pasid.getD 0),
    (F.MMU_CTX_PASID_BOUND, if x.pasid.isSome then 1 else 0)]).ctxEnd .ok

/-- CTX_QUERY. -/
def execCtxQuery (s : State) (req : Requester := .host 0) : Res := s.devReg req 0x500014 fun d => d.ctxGo 7 Dev.ctxQuery

/-! ### Walks of movers (R188, R190, R191) -/

/-- Whether a descriptor is being moved now. -/
def Dev.moving (d : Dev) (q : Nat) (i : Issued) : Bool := isMover i.d && i.st == .running && d.unpre q

/-- Whether the stream of an issued descriptor stands in the page of `va` (R191). -/
def Issued.standsAt (i : Issued) (va : Nat) (dst : Bool) : Bool := i.pos dst / 4096 == va / 4096

/-- A stream of descriptor `i` of queue `q` holds a translation more (R190, R204). -/
def Dev.hold (d : Dev) (q : Nat) (i : Issued) (h : HeldTr) : Dev :=
  d.setIssued q { i with held := holdTr (d.depth (d.qctx q) (streamStart i.d h.dst)) h (leavePages i.held h.dst (i.pos h.dst)) }

/-- Descriptor `i` of queue `q` walks at `va`: it holds the translation. An error kills its context when the stream stands in that page;
of a page ahead it has no effect (R188, R191). -/
def Dev.walkStep (d : Dev) (q : Nat) (i : Issued) (va : Nat) (write : Bool) : Dev :=
  let c := d.qctx q
  let d := d.walkCorrect c va
  let stop (x : Xl) : Dev :=
    if !i.standsAt va write then d
    else
      match x with
      | .ue a => (d.logUe a 1 c).kill { c := c, cause := 0x10, addr := a }
      | .kill k => d.kill { c := c, cause := k, src := moverSrc i, addr := va }
      | _ => d
  match d.walkTr c va write with
  | .error x => stop x
  | .ok h =>
    match d.through c va h with
    | .kill k => stop (.kill k)
    | _ => d.hold q i h

/-- PAGE_WALK_DONE (R188, R203): a PREFETCH completes with the first offending address instead of killing. -/
def execPageWalkDone (q idx va : Nat) (write : Bool) (s : State) : Res := s.nextCore fun d =>
  match d.issued q idx with
  | none => d
  | some i =>
    if !d.moving q i || !inStream i.d va write || 2 ^ 47 ≤ va then d
    else if dOp i.d = 0x20 then Dev.done (d.prefetchRun q i)
    else d.walkStep q i va write

/-! ### The end of a kill (R215) -/

/-- KILL_REVOCATION_DONE (R215): the tiles are cleared and free, the fatal event is posted, a DESTROY that waits ends. -/
def execKillRevocationDone (c : Nat) (s : State) : Res := s.nextCore fun d =>
  let x := d.ctx c
  if !x.revoking then d
  else
    let d := (List.range 16).foldl (fun d n =>
      if (d.tile n).clearing && !d.is (F.CMD_TILE_LEASED n) && d.rd (F.CMD_TILE_CTX n) == c then
        (d.tileReset n .opened).wrs [(F.CMD_TILE_CTX n, 0), (F.CMD_TILE_QUEUE n, 0)] else d) d
    let d := d.setCtx c { x with revoking := false, destroying := false }
    let (src, addr, data) := x.killData
    let d := d.post { cls := 3, src := src, code := 0x100 + x.cause, ctx := some c, addr := addr, data := data }
    (if x.destroying then (d.freeCtx c).ctxEnd .ok else d).preSettle

/-! ### ATS and PRI (R192–R196) -/

/-- The lowest PRG index that is not out. -/
def Dev.freePrg (d : Dev) : Option Nat := (List.range 512).find? fun k => (fget d.prgs k).isNone

/-- What the ring transfers of one kind of queue `q` wait for. -/
def Dev.side (d : Dev) (q : Nat) (write : Bool) : RingSide := if write then (d.queue q).rrec else (d.queue q).rfetch

/-- Changes it. -/
def Dev.onSide (d : Dev) (q : Nat) (write : Bool) (f : RingSide → RingSide) : Dev :=
  let x := d.queue q
  d.setQueue q (if write then { x with rrec := f x.rrec } else { x with rfetch := f x.rfetch })

/-- The page that a page request asks for, and the access that it needs (R193): read, write. -/
def Dev.prgNeeds (d : Dev) (q : Nat) (own : Own) : Nat × Bool × Bool :=
  match own with
  | .desc n =>
    match d.bySeq q n with
    | some i => (i.faultVa, !i.faultW || dOp i.d == 0x20, i.faultW)
    | none => (0, false, false)
  | .ring w => ((d.side q w).va, !w, w)
  | .advise va _ => (va, true, false)

/-- Sends the page request of a stream of queue `q` with PRG index `k` (R193). -/
def Dev.sendPrg (d : Dev) (q : Nat) (own : Own) (k : Nat) : Dev :=
  let c := d.qctx q
  let (va, r, w) := d.prgNeeds q own
  let d := { d with prgs := fset d.prgs k { q := q, own := own, ctx := c, live := true } }
  let d := d.send (.pageRequest ((d.ctx c).pasid.getD 0) ((va - 2 ^ 47) / 4096 * 4096) k r w)
  match own with
  | .desc n =>
    match d.bySeq q n with
    | some i =>
      (d.setIssued q { i with prg := some k, priTries := i.priTries + 1 }).post
        { cls := 2, src := moverSrc i, code := 4, ctx := some c, q := some q, addr := va, data := k }
    | none => d
  | .ring w => d.onSide q w fun x => { x with tries := x.tries + 1 }
  | .advise _ _ => d

/-- A page request goes out, or waits for a PRG index in arrival order (R193). -/
def Dev.pageAsk (d : Dev) (q : Nat) (own : Own) : Dev :=
  match d.freePrg with
  | some k => d.sendPrg q own k
  | none => { d with prgWait := d.prgWait ++ [(q, own)] }

/-- A descriptor suspends at host page `va` of its stream `w` (R193, R194, R213); the data it has moved stays in place. -/
def Dev.suspend (d : Dev) (q : Nat) (i : Issued) (va : Nat) (w : Bool) : Dev :=
  let c := d.qctx q
  let tries := if i.faultVa / 4096 = va / 4096 then i.priTries else 0
  if d.is F.MMU_STATUS_PRI_STOPPED then d.kill { c := c, cause := 6, src := moverSrc i, addr := va }
  else if d.rd F.MMU_CTRL_PRI_ATTEMPTS ≤ tries then d.kill { c := c, cause := 8, src := moverSrc i, addr := va }
  else
    let i := { i with st := .suspended, held := [], faultVa := va, faultW := w, priTries := tries, prg := none, pri := none }
    Dev.done ((d.setIssued q i).pageAsk q (.desc i.seq), [])

/-- A ring page that the host does not permit is requested while the queue waits (R235). -/
def Dev.ringFault (d : Dev) (q : Nat) (w : Bool) : Dev :=
  let x := d.side q w
  if d.is F.MMU_STATUS_PRI_STOPPED then d.kill { c := d.qctx q, cause := 6, addr := x.va }
  else if d.rd F.MMU_CTRL_PRI_ATTEMPTS ≤ x.tries then d.kill { c := d.qctx q, cause := 8, addr := x.va }
  else d.pageAsk q (.ring w)

/-- Whether a translation request is the one that a completion answers. -/
def AtsReq.isFor (x : AtsReq) (q : Nat) (who : AtsFor) (va : Nat) : Bool :=
  x.q == q && x.va == va / 4096 * 4096 &&
    match who, x.own with
    | .desc n, .desc m => n == m
    | .ring w, .ring v => w == v
    | .advise, .advise _ _ => true
    | _, _ => false

/-- A translation request is answered: its place goes to the one that has waited longest. -/
def Dev.atsNext (d : Dev) (x : AtsReq) : Dev :=
  let d := { d with atsOut := d.atsOut.erase x }
  match d.atsWait with
  | [] => d
  | y :: ys => { d with atsWait := ys }.atsAsk y.q y.own y.va y.write

/-- What the answer to a translation request does (R192, R193, R203, R235): the translation `h` is held, or, where it does not permit
the access, the page is requested; a denial of a page ahead has no effect (R191). -/
def Dev.atsDone (d : Dev) (x : AtsReq) (h : HeldTr) (r w : Bool) : Dev :=
  match x.own with
  | .desc n =>
    match d.bySeq x.q n with
    | none => d
    | some i =>
      if !d.moving x.q i then d
      else if dOp i.d = 0x20 then
        if r && (w || !x.write) then Dev.done (d.prefetchRun x.q { i with progress := h.va + h.size, priTries := 0 })
        else d.suspend x.q i x.va x.write
      else if (if x.write then w else r) then d.hold x.q { i with priTries := 0 } h
      else if i.standsAt x.va x.write then d.suspend x.q i x.va x.write
      else d
  | .ring wr =>
    if (if wr then w else r) then
      let d := d.onSide x.q wr fun y => { y with waits := false, tr := some h, tries := 0 }
      if wr then Dev.done (d.writeRecs ((d.queue x.q).recs.length + 1) x.q) else d
    else d.ringFault x.q wr
  | .advise va n =>
    if r then d
    else if d.is F.MMU_STATUS_PRI_STOPPED || d.rd F.MMU_CTRL_PRI_ATTEMPTS ≤ n then d.sat F.MMU_STATUS_ADVISE_ERR
    else d.pageAsk x.q (.advise va (n + 1))

/-- ATS_COMPLETION (R192, R193): taken at the size it reports, up to 1 GiB. One that answers no request is discarded. -/
def execAtsCompletion (q : Nat) (who : AtsFor) (va pa size : Nat) (r w u : Bool) (s : State) : Res := s.nextCore fun d =>
  match d.atsOut.find? fun x => x.isFor q who va with
  | none => d
  | some x =>
    let z := min (max size 4096) (2 ^ 30)
    (d.atsNext x).atsDone x
      { va := va / z * z, pa := pa / z * z, size := z, host := true, dst := x.write, untr := u } r w

/-- The streams that wait longest for a PRG index receive those that are free, while page requests may be sent (R193–R195). -/
def Dev.nextPrgs : Nat → Dev → Dev
  | 0, d => d
  | f + 1, d =>
    match d.prgWait, d.freePrg with
    | (q, own) :: rest, some k =>
      if d.is F.MMU_STATUS_PRI_STOPPED || !d.atsOn then d
      else
        let d := { d with prgWait := rest }
        let there : Bool := match own with
          | .desc n => (d.bySeq q n).isSome
          | .ring w => (d.side q w).waits
          | .advise _ _ => d.qstate q != 3
        (if there then d.sendPrg q own k else d).nextPrgs f
    | _, _ => d

/-- PRI is stopped (R194): the faults that still wait for a PRG index kill their contexts (log entry 113). -/
def Dev.stopPri (d : Dev) : Dev × List KillReq :=
  ({ d with prgWait := [] }.wr F.MMU_STATUS_PRI_STOPPED 1,
   d.prgWait.filterMap fun w =>
     match w.2 with
     | .desc n => (d.bySeq w.1 n).map fun i => { c := d.qctx w.1, cause := 6, src := moverSrc i, addr := i.faultVa }
     | .ring x => if (d.side w.1 x).waits then some { c := d.qctx w.1, cause := 6, addr := (d.side w.1 x).va } else none
     | .advise _ _ => none)

/-- What a response means for the stream that page request `p` with index `k` is for (R193, R194, R224): Success resumes it, a failure
kills; for saved work the response is recorded. -/
def Dev.priAnswer (d : Dev) (k : Nat) (p : Prg) (code : PriCode) : Dev × List KillReq :=
  match p.own with
  | .desc n =>
    match d.bySeq p.q n with
    | none => (d, [])
    | some i =>
      if i.prg != some k then (d, [])
      else if i.st = .stopped then (d.setIssued p.q { i with prg := none, pri := some code }, [])
      else if code = .success then (d.setIssued p.q { i with prg := none, pri := some .success }, [])
      else (d, [{ c := p.ctx, cause := 6, src := moverSrc i, addr := i.faultVa }])
  | .ring w =>
    if code = .success then (d.atsAsk p.q (.ring w) (d.side p.q w).va w, [])
    else (d, [{ c := p.ctx, cause := 6, addr := (d.side p.q w).va }])
  | .advise va n => if code = .success then (d.atsAsk p.q (.advise va n) va false, []) else (d.sat F.MMU_STATUS_ADVISE_ERR, [])

/-- PRI_RESPONSE (R193, R194): the index returns; Response Failure stops PRI before any further page request goes out. -/
def execPriResponse (k : Nat) (code : PriCode) (s : State) : Res := s.nextCore fun d =>
  match fget d.prgs k with
  | none => d
  | some p =>
    let d := { d with prgs := fdel d.prgs k }
    if !p.live then d.nextPrgs 512
    else
      let a := if code = .failure then d.stopPri else (d, [])
      let b := a.1.priAnswer k p code
      (Dev.done (b.1, a.2 ++ b.2)).nextPrgs 512

/-- PRI_TIMEOUT (R194, R215): the context is killed, and the index of a request that has timed out returns (log entry 114). -/
def execPriTimeout (k : Nat) (s : State) : Res := s.nextCore fun d =>
  match fget d.prgs k with
  | none => d
  | some p =>
    let d' := { d with prgs := fdel d.prgs k }
    let va := (d.prgNeeds p.q p.own).1
    let d' := if !p.live then d'
      else
        match p.own with
        | .advise _ _ => d'.sat F.MMU_STATUS_ADVISE_ERR
        | _ => d'.kill { c := p.ctx, cause := 7, src := 1, addr := va }
    d'.nextPrgs 512

/-- Whether a held host translation overlaps an invalidated range of untranslated addresses. -/
def HeldTr.overlaps (h : HeldTr) (v : Inval) : Bool :=
  h.host && decide (h.va - 2 ^ 47 < v.base + v.size) && decide (v.base < h.va - 2 ^ 47 + h.size)

/-- The oldest queued invalidation is carried out (R196, R214): the descriptors that hold an overlapping translation pause and
hold none, and a ring transfer asks again. -/
def Dev.invalStart (d : Dev) : Dev :=
  match d.invals with
  | [] => d
  | v :: _ =>
    let hit : Nat → Bool := fun q => match v.pasid with | none => true | some p => (d.ctx (d.qctx q)).pasid == some p
    let pause (i : Issued) : Issued :=
      if i.st == .running && i.held.any (·.overlaps v) then
        { i with st := .paused, inval := true, held := [], again := (i.held.filter (·.host)).map fun h => (h.va, h.dst) }
      else i
    let drop (x : RingSide) : RingSide := if x.tr.any (·.overlaps v) then { x with tr := none } else x
    { d with queues := List.map (fun e : Nat × Queue =>
        if hit e.1 then (e.1, { e.2 with issued := e.2.issued.map pause, rfetch := drop e.2.rfetch, rrec := drop e.2.rrec })
        else e) d.queues }

/-- ATS_INVALIDATE (R196): taken in arrival order. -/
def execAtsInvalidate (itag : Nat) (pasid : Option Nat) (base size : Nat) (s : State) : Res := s.nextCore fun d =>
  let d' := { d with invals := d.invals ++ [{ itag := itag, pasid := pasid, base := base, size := size }] }
  if d.invals.isEmpty then d'.invalStart else d'

/-- A paused descriptor resumes when nothing pauses it any more (R214), and asks again for the pages it held (R196). -/
def Dev.unpause (d : Dev) (q n : Nat) : Dev :=
  match d.bySeq q n with
  | none => d
  | some i =>
    if i.inval || i.upd || i.st != .paused then d
    else
      let d := d.setIssued q { i with st := .running, again := [] }
      if d.atsOn then i.again.foldl (fun d a => d.atsAsk q (.desc n) a.1 a.2) d else d

/-- Once its completion has been sent, an invalidation has ended (R196): the descriptors it paused resume, and the next one starts. -/
def Dev.invalEnd (d : Dev) : Dev :=
  match d.invals with
  | [] => d
  | v :: rest =>
    if !v.sent || d.pci.stalled.any (fun p => p.out == .invalComplete v.itag) then d
    else
      let d := { d with invals := rest }
      ((d.collect fun _ i => i.inval).foldl (fun d w =>
        (d.setIssued w.1 { w.2 with inval := false }).unpause w.1 w.2.seq) d).invalStart

/-- Whether every read that was sent under the translations of paused descriptors has completed (R196). -/
def Dev.readsDrained (d : Dev) : Bool :=
  (d.pci.reads ++ d.pci.readWait).all fun r => !(r.live && (d.bySeq r.q r.seq).any fun i => i.inval)

/-- INVALIDATE_READS_DRAINED (R196, R214): the completion goes out behind the posted writes, and once it has been sent the paused
descriptors resume. -/
def execInvalidateReadsDrained (s : State) : Res := s.nextCore fun d =>
  match d.invals with
  | [] => d
  | v :: rest =>
    if v.sent || !d.readsDrained then d
    else (({ d with invals := { v with sent := true } :: rest }).postOut { out := .invalComplete v.itag }).invalEnd

end Sys2Proof.Machine
end

