-- ==== Sys2Proof/Machine/Lease.lean ====
section
/-! DEFINITION. Tile leases: the DISPATCH commands, the start and the end of the programs of a RUN, and the clearing of tiles
(R21, R244–R246, R315, R334). -/

namespace Sys2Proof.Machine

/-! ### Programs (R244, R315) -/

/-- A tile at the start of a RUN (R315, R340). -/
def Tile.start (t : Tile) (x : Desc) : Tile :=
  let args := (List.range 4).foldl (fun (m : FMap Word64) i =>
    if dfld x (16 + 4 * i) 0 32 = 0 then m else fset m (1 + i) (BitVec.ofNat 64 (dfld x (16 + 4 * i) 0 32))) []
  { t with s := args, pc := dEntry x, loops := [], a := {}, b := {}, resv := none, live := 0xFFFFFFFFFFFF, wait := .none, mma := none,
           gang := dTiles x, bar := 0, lastMask := 0, bankB := false, v := [], k := [], vops := 0, running := true, idleSince := false }

/-- The programs start on every tile of the gang (R244, R278, R315). -/
def Dev.startRun (d : Dev) (x : Desc) : Dev :=
  (maskList 16 (dTiles x)).foldl (fun d n =>
    let (tr, tc) := gridOff (dTiles x) n
    (d.setTile n ((d.tile n).start x)).wrs [(F.MT_GANG_SHAPE n, dShape x), (F.MT_GANG_ORIGIN n, originOf (dTiles x)),
      (F.MT_GANG_TR n, tr), (F.MT_GANG_TC n, tc), (F.MT_PASS_SEQ_SEQ n, 0)]) d

/-- Whether tile `n` is idle: no program runs on it. -/
def Dev.tileIdle (d : Dev) (n : Nat) : Bool := !(d.tile n).running

/-- The RUN of queue `q` that has been issued and waits for its tiles starts once all of them are idle and open (R21, R244). When the end of
an earlier RUN has taken tiles of M out of L meanwhile, the rules are held to again: with L empty the tiles are acquired once more, else M
no longer lies within L, a conflict (DESIGN CHOICE, log entry 116). -/
def Dev.tryStart (d : Dev) (q : Nat) : Dev :=
  match (d.queue q).issued.find? fun i => dOp i.d == 2 && i.wait with
  | none => d
  | some i =>
    let m := dTiles i.d
    let l := d.rd (F.Q_LEASE_L q)
    let start (d : Dev) : Dev :=
      if (maskList 16 m).all fun n => d.tileIdle n && (d.tile n).shutter == .opened then (d.startRun i.d).setIssued q { i with wait := false }
      else d
    if !d.unpre q then d
    else if m &&& l = m then start d
    else if l != 0 then d.complete q i 0x87
    else if (maskList 16 m).all d.tileFree then start (d.lease q m)
    else d

/-- A RUN is issued: it blocks its queue until its programs start (R241, R244). -/
def Dev.runIssue (d : Dev) (q : Nat) (x : Desc) : Dev :=
  let r := d.take q x
  (r.1.setIssued q { r.2 with wait := true }).tryStart q

/-- A DISPATCH at the head of queue `q`, well-formed and free to issue (R244): it issues, conflicts, or waits for its tiles. -/
def Dev.dispatch (d : Dev) (q : Nat) (x : Desc) : Dev :=
  let l := d.rd (F.Q_LEASE_L q)
  let m := dTiles x
  let within_ := m &&& l == m
  let free := (maskList 16 m).all d.tileFree
  let end_ (d : Dev) : Dev := let r := d.take q x; r.1.complete q r.2 0
  match dMode x with
  | 0 => if l = 0 then (if free then (d.lease q m).runIssue q x else d.waitTiles q) else if within_ then d.runIssue q x else d.reject q x 0x87
  | 1 => if l = 0 then (if free then end_ (d.lease q m) else d.waitTiles q) else if within_ then end_ d else d.reject q x 0x87
  | _ =>
    if !within_ then d.reject q x 0x87
    else if (maskList 16 m).all d.tileIdle then
      let r := d.take q x
      (r.1.unlease q m).complete q r.2 0
    else d.blockAs q 5

/-- The head DISPATCH of queue `q` with mode `mode`, checked first (R246, R259). -/
def Dev.dispatchHead (d : Dev) (q : Nat) (p : Nat → Bool) : Dev := d.onHead q 2 fun d x =>
  if !p (dMode x) then d
  else if dispatchStatus x != 0 then d.reject q x (dispatchStatus x)
  else d.dispatch q x

/-- DISPATCH_ACQUIRE (R244). -/
def execDispatchAcquire (q : Nat) (s : State) : Res := s.nextCore fun d => d.dispatchHead q fun m => m == 1

/-- DISPATCH_RUN (R244, R246). -/
def execDispatchRun (q : Nat) (s : State) : Res := s.nextCore fun d => d.dispatchHead q fun m => m == 0

/-- DISPATCH_RELEASE (R244). -/
def execDispatchRelease (q : Nat) (s : State) : Res := s.nextCore fun d => d.dispatchHead q fun m => m == 2

/-- LEASE_GRANT (R21, R244): a DISPATCH that waits for its tiles takes them all in one step. -/
def execLeaseGrant (q : Nat) (s : State) : Res := s.nextCore fun d =>
  if d.rd (F.Q_LEASE_L q) = 0 then (d.tryStart q).dispatchHead q fun m => m ≤ 1 else d

/-- TILE_CLEAR_DONE (R20, R244): the tile is free. The tiles of a killed context are freed at the end of its revocation. -/
def execTileClearDone (n : Nat) (s : State) : Res := s.nextCore fun d =>
  if (d.tile n).clearing && !d.is (F.CMD_TILE_LEASED n) && !(d.ctx (d.tctx n)).revoking then
    (d.tileReset n (d.tile n).shutter).wrs [(F.CMD_TILE_CTX n, 0), (F.CMD_TILE_QUEUE n, 0)]
  else d

/-- The RUN of a gang has ended on every tile: its DISPATCH completes with the cycles it took, which the model does not count (a
free value, log entry 12), and its tiles leave the lease unless KEEP = 1 (R244, R256, R334). -/
def Dev.runEnd (d : Dev) (q gang : Nat) : Dev :=
  match (d.queue q).issued.find? fun i => dOp i.d == 2 && dMode i.d == 0 && !i.wait && dTiles i.d == gang with
  | some i =>
    let (x, d) := d.fresh
    let d := if dKeep i.d then d else d.unlease q gang
    (d.complete q i 0 x).tryStart q
  | none => d

end Sys2Proof.Machine
end

