-- ==== Sys2Proof/Machine/Preempt.lean ====
section
/-! DEFINITION. The commands of pre-emption, the host kill and the event ring (chapter 09). -/

namespace Sys2Proof.Machine

/-! ### Spill slots (R222) -/

/-- The size of a spill slot. -/
def slotSize : Nat := 6336 * 1024
/-- The size of a spill area. -/
def spillSize : Nat := 16 * slotSize
/-- The size of a bank of tile memory (R167). -/
def bankSize : Nat := 0x20000

/-- The length of the quire RAM and of the register state in a spill slot. -/
def quireLen : Nat := 0x20000
def imageLen : Nat := 0x10000

/-- The pieces of a slot that SAVE writes (R222, R223), as offsets and lengths: the banks of a mask, the quire RAM, the register state. -/
def slotPieces (live : Nat) : List (Nat × Nat) :=
  (maskList 48 live).map (fun b => (b * bankSize, bankSize)) ++ [(0x600000, quireLen), (0x600000 + quireLen, imageLen)]

/-- The bytes of the quire RAM, entry by entry. -/
def Tile.quireBytes (t : Tile) : List Byte := (List.range 4096).flatMap fun e => toBytes 32 ((fget t.quire e).getD 0).toNat

/-- The quire RAM that such bytes give; an entry that is zero is not listed. -/
def quireOf (bs : List Byte) : FMap (BitVec 256) :=
  (List.range 4096).filterMap fun e =>
    let v := BitVec.ofNat 256 (bytesAt bs (32 * e) 32)
    if v = 0 then none else some (e, v)

/-- `n` bytes of a layout that is private to the device: free values (R222, log entry 56). -/
def Dev.privateBytes (d : Dev) (n : Nat) : List Byte × Dev :=
  ((List.range n).map fun k => (Config.freeValue (d.free + k)).setWidth 8, { d with free := d.free + n })

/-- The bytes of tile `n` that SAVE writes to the banks and the quire RAM of its slot. -/
def Dev.tileBytes (d : Dev) (n live : Nat) : List Byte :=
  (maskList 48 live).flatMap (fun b => d.mem.read (tileBase n + b * bankSize) bankSize) ++ (d.tile n).quireBytes

/-- Writes bytes piece by piece to the slot at `p`. -/
def Dev.slotWrite (d : Dev) (key p c : Nat) : List (Nat × Nat) → List Byte → Dev
  | [], _ => d
  | (o, n) :: l, bs => (d.writeMem key (p + o) (bs.take n) 6 c).slotWrite key p c l (bs.drop n)

/-- The bytes of the pieces of the slot at `p`. -/
def Dev.slotRead (d : Dev) (key p : Nat) (l : List (Nat × Nat)) : List Byte := l.flatMap fun x => d.readMem key (p + x.1) x.2

/-- Writes the banks of a mask back to tile memory. -/
def Dev.spillIn (d : Dev) (n : Nat) : List Nat → List Byte → Dev
  | [], _ => d
  | b :: bs, bytes =>
    ({ d with mem := d.mem.write (tileBase n + b * bankSize) (bytes.take bankSize) }).spillIn n bs (bytes.drop bankSize)

/-- Where the save record of context `c` lies (R228). -/
def Dev.recAt (d : Dev) (c : Nat) : Nat := d.poolBase + 4096 * ((d.ctx c).saveRec.getD 0)

/-- The register fields of tile block `n`. -/
def Dev.tileFields (d : Dev) (n : Nat) : FMap Nat := d.regs.filter fun e => tileBlockOff n (e.1 / 64)

/-! ### Triggers (R220–R222) -/

/-- Pre-emption of queue `q` begins, or, with the spill key slot EMPTY, becomes a kill of its context (R222). -/
def Dev.preBegin (d : Dev) (q : Nat) (host : Bool) : Dev :=
  let c := d.qctx q
  match (d.ctx c).spill with
  | none => d
  | some (_, key) =>
    if (d.queue q).pre != .running then d
    else if !d.keyOk key then d.kill { c := c, cause := 0x19, src := 0 }
    else
      let x := d.ctx c
      let d := d.setCtx c { x with preCount := min (x.preCount + 1) 65535 }
      (d.setQueue q { d.queue q with pre := .stop, preHost := host }).blockAs q 12

/-- The tiles that the head descriptor of queue `q` waits for: a RUN or an ACQUIRE of a queue that holds no lease (R244). -/
def Dev.wants (d : Dev) (q : Nat) : Option Nat :=
  match d.head q 2 with
  | some x =>
    if d.rd (F.Q_LEASE_L q) = 0 && dfld x 8 4 2 ≤ 1 && d.issueBlock q x == 0 then some (dfld x 10 0 16) else none
  | none => none

/-- The queues that hold tiles of a mask. -/
def Dev.holders (d : Dev) (m : Nat) : List Nat :=
  ((maskList 16 m).filter fun n => d.is (F.CMD_TILE_LEASED n)).map (fun n => d.rd (F.CMD_TILE_QUEUE n)) |>.eraseDups

/-- Whether priority may pre-empt queue `r` for a queue of priority `p` (R220, R221). -/
def Dev.mayPre (d : Dev) (p r : Nat) : Bool :=
  decide (d.rd (F.Q_CFG_PRIO r) < p) && d.qctx r != 0 && (d.ctx (d.qctx r)).spill.isSome && d.unpre r &&
    decide ((d.queue r).minUntil ≤ d.uptime)

/-- Whether the waiting DISPATCH of queue `q` would pre-empt (R220): its GRACE is over, and queues of lower priority hold its tiles. -/
def Dev.wouldPre (d : Dev) (q : Nat) : Bool :=
  (d.queue q).grace && d.rd F.CMD_PRE_CTRL_GRACE != 0 && (d.wants q).any fun m =>
    !(d.holders m).isEmpty && (d.holders m).all (d.mayPre (d.rd (F.Q_CFG_PRIO q)))

/-- The best of a list under a comparison, the first among equals. -/
def bestOf (better : Nat → Nat → Bool) : List Nat → Option Nat
  | [] => none
  | a :: l => match bestOf better l with
    | some b => some (if better b a then b else a)
    | none => some a

/-- The waiting DISPATCH that is served first (R221): of higher priority, or of equal priority the one that has waited longer. -/
def Dev.served (d : Dev) : Option Nat :=
  bestOf (fun a b =>
    let p := d.rd (F.Q_CFG_PRIO a)
    let r := d.rd (F.Q_CFG_PRIO b)
    decide (r < p) || (p == r && decide (((d.queue a).waitSeq.getD 0) < ((d.queue b).waitSeq.getD 0))))
    ((d.queues.map (·.1)).filter d.wouldPre)

/-- The queue that is pre-empted next for queue `q` (R220): of lowest priority, or of equal priority the most recently leased. -/
def Dev.victim (d : Dev) (q : Nat) : Option Nat :=
  bestOf (fun a b =>
    let p := d.rd (F.Q_CFG_PRIO a)
    let r := d.rd (F.Q_CFG_PRIO b)
    decide (p < r) || (p == r && decide ((d.queue b).leaseSeq < (d.queue a).leaseSeq))) (d.holders ((d.wants q).getD 0))

/-- Whether a pre-emption is in progress: it acts on one queue at a time (R220). -/
def Dev.preActive (d : Dev) : Bool :=
  d.queues.any fun e => e.2.pre == .stop || e.2.pre == .save || e.2.pre == .clear

/-- The next pre-emption begins while none is in progress: those the host asks for in the order it asked, then those of priority. A queue
being restored waits for the end of its restore. -/
def Dev.preNext : Nat → Dev → Dev
  | 0, d => d
  | f + 1, d =>
    if d.preActive then d
    else
      let d := { d with preQ := d.preQ.filter fun q => d.qstate q != 0 && d.qstate q != 3 && (d.queue q).pre != PrePhase.preempted }
      match d.preQ.find? d.unpre with
      | some q => ({ d with preQ := d.preQ.erase q }.preBegin q true).preNext f
      | none =>
        match d.served with
        | none => d
        | some q =>
          match d.victim q with
          | some r => (d.preBegin r false).preNext f
          | none => d

/-- Begins the pre-emptions that are due. -/
def Dev.preGoOn (d : Dev) : Dev := (d.preNext 130).preSettle

/-- GRACE_EXPIRE (R220, R221): the DISPATCH at the head of queue `q` has waited GRACE for its tiles. -/
def execGraceExpire (q : Nat) (s : State) : Res := s.nextCore fun d =>
  if (d.wants q).isSome && d.rd F.CMD_PRE_CTRL_GRACE != 0 then (d.setQueue q { d.queue q with grace := true }).preGoOn else d

/-! ### The save (R223, R224) -/

/-- Whether a CONVERT of tile `t` waits for the drain of a pass that STOP abandons: it stays, with the vector operations behind
it. -/
def Tile.convHeld (t : Tile) : Bool :=
  match t.conv with
  | some c => !c.started && !t.passes.isEmpty
  | none => false

/-- Whether the work that STOP waits for on tile `n` has ended (R223, R311, R357): passes past their last operand beat, stores,
a conversion, vector operations. -/
def Dev.tileStopped (d : Dev) (n : Nat) : Bool :=
  let t := d.tile n
  decide (t.passes.length ≤ 1) && (t.passes.all fun p => !p.fed) && t.stores.isEmpty &&
    (t.convHeld || (t.conv.isNone && t.vq.isEmpty))

/-- A pass still receiving operands is abandoned: it is issued again after the restore, in bank A (R268, R335). A sequencer that
waits gives up what it made for the waiting instruction, which is its restart point. -/
def Tile.stopAt (t : Tile) : Tile :=
  { t with passes := t.passes.map (fun p => { p with bankB := false, cost := isolatedCycles (shapeOf p.mask) p.op.k }),
           bankB := t.bankB && t.passes.isEmpty, wait := .none, mma := none, bar := 0 }

/-- The banks that SAVE writes (R336): the live ones and the one that holds the restart point. -/
def Tile.savedBanks (t : Tile) : Nat := if t.running then t.live ||| 2 ^ (t.pc / 0x20000) else t.live

/-- A mover descriptor is STOPPED at its lowest offset not yet wholly written (R223): what it has read is given up; `w` of its clasp
writes are still to be answered. -/
def Issued.stop (i : Issued) (w : Nat) : Issued :=
  if isMover i.d then
    { i with st := .stopped, held := [], inval := false, upd := false, again := [], asked := i.progress, rdata := [], toAck := w, acked := 0 }
  else i

/-- The data of the outstanding reads of queue `q` is discarded on arrival, and those not yet sent are not sent (R223). -/
def Dev.dropReads (d : Dev) (q : Nat) : Dev :=
  { d with
    pci := { d.pci with reads := d.pci.reads.map fun r => if r.q = q then { r with live := false } else r,
                        readWait := d.pci.readWait.filter fun r => r.q != q },
    cls := { d.cls with
      reqs := List.map (fun e : Nat × CReq => (e.1, if e.2.q = q && e.2.read then { e.2 with live := false } else e.2)) d.cls.reqs,
      waiting := d.cls.waiting.filter fun w => !(w.1.q == q && w.1.read) } }

/-- The clasp writes of descriptor `n` of queue `q` that are not answered. -/
def Dev.writesOut (d : Dev) (q n : Nat) : Nat :=
  ((d.cls.reqs.map (·.2) ++ d.cls.waiting.map (·.1)).filter fun r => r.q == q && r.idx == n && !r.read).length

/-- PREEMPT_STOP_DONE (R223, R224): passes that still receive operands are abandoned, and the descriptors are STOPPED. -/
def execPreemptStopDone (q : Nat) (s : State) : Res := s.nextCore fun d =>
  let ts := maskList 16 (d.rd (F.Q_LEASE_L q))
  if (d.queue q).pre != .stop || !ts.all d.tileStopped then d
  else
    let d := ts.foldl (fun d n => d.setTile n (d.tile n).stopAt) d
    let x := d.queue q
    let d := d.setQueue q { x with pre := .save, issued := x.issued.map fun i => i.stop (d.writesOut q i.seq) }
    Dev.done (d.dropReads q, [])

/-- An uncorrectable error that SAVE meets in the banks or the quire RAM of tile `n`: its address and source (R179). -/
def Dev.saveUe (d : Dev) (n live : Nat) : Option (Nat × Nat) :=
  match (maskList 48 live).findSome? fun b => d.badGran (tileBase n + b * bankSize) bankSize with
  | some g => some (g, 6)
  | none => ((d.tile n).quireEcc.find? fun e => e.2).map fun e => (e.1 + n * 4096, 3)

/-- Saves tile `n` of queue `q`: its banks, the whole quire RAM and its register state (R222, R223). -/
def Dev.saveTile (d : Dev) (q key base n : Nat) : Dev :=
  let live := (d.tile n).savedBanks
  let d := (maskList 48 live).foldl (fun d b => d.correct (tileBase n + b * bankSize) bankSize) d
  let d := d.sat F.MEM_ECC_STAT_SRAM_CE (d.tile n).quireEcc.length
  let (image, d) := d.privateBytes imageLen
  let bytes := d.tileBytes n live ++ image
  let e : Saved := { n := n, tile := { d.tile n with quire := [], quireEcc := [] }, fields := d.tileFields n, live := live,
                     crc := (crc32 bytes).toNat }
  let d := d.slotWrite key (base + n * slotSize) (d.qctx q) (slotPieces live) bytes
  { d with saved := fset d.saved q ((fget d.saved q).getD [] ++ [e]) }

/-- The save record of context `c` is written (R223, R228). -/
def Dev.recWrite (d : Dev) (c : Nat) : Dev :=
  let (bs, d) := d.privateBytes 4096
  d.writeMem 0 (d.recAt c) bs 6 c

/-- PREEMPT_SAVE_DONE (R223). -/
def execPreemptSaveDone (q : Nat) (s : State) : Res := s.nextCore fun d =>
  let c := d.qctx q
  match (d.ctx c).spill with
  | none => d
  | some (base, key) =>
    if (d.queue q).pre != .save then d
    else
      let ts := maskList 16 (d.rd (F.Q_LEASE_L q))
      match ts.findSome? fun n => d.saveUe n (d.tile n).savedBanks with
      | some (a, src) => (d.logUe a src c).kill { c := c, cause := 0x10, addr := a }
      | none =>
        let d := (ts.foldl (fun (d : Dev) n => d.saveTile q key base n) { d with saved := fdel d.saved q }).recWrite c
        d.setQueue q { d.queue q with pre := .clear }

/-- The lease of queue `q` is released with its tiles cleared (R223). -/
def Dev.dropTiles (d : Dev) (m : Nat) : Dev :=
  (maskList 16 m).foldl (fun d n =>
    (d.tileReset n .opened).wrs [(F.CMD_TILE_LEASED n, 0), (F.CMD_TILE_QUEUE n, 0), (F.CMD_TILE_CTX n, 0)]) d

/-- PREEMPT_CLEAR_DONE (R223, R225, R229). -/
def execPreemptClearDone (q latencyNs : Nat) (s : State) : Res := s.nextCore fun d =>
  if (d.queue q).pre != .clear then d
  else
    let l := d.rd (F.Q_LEASE_L q)
    let d := (d.dropTiles l).wr (F.Q_LEASE_L q) 0
    let d := d.setQueue q { d.queue q with pre := .preempted, savedLease := l }
    let d := d.wrs [(F.CMD_PRE_LAT_LAST, min (latencyNs / 10) 65535),
      (F.CMD_PRE_LAT_MAX, max (d.rd F.CMD_PRE_LAT_MAX) (min (latencyNs / 1000) 65535))]
    (d.postInfo 0 1 latencyNs 0 (some (d.qctx q)) (some q)).preGoOn

/-! ### Restore (R226, R227) -/

/-- Whether pre-empted queue `q` may be restored: no HOLD, and its tiles are free. -/
def Dev.restorable (d : Dev) (q : Nat) : Bool :=
  (d.queue q).pre == .preempted && !(d.ctx (d.qctx q)).hold && (maskList 16 (d.queue q).savedLease).all d.tileFree

/-- The tiles a queue could take now: those of its restore, or of its head DISPATCH. -/
def Dev.claim (d : Dev) (q : Nat) : Nat :=
  if d.restorable q then (d.queue q).savedLease
  else match d.wants q with
    | some m => if (maskList 16 m).all d.tileFree then m else 0
    | none => 0

/-- RESTORE_START (R226): the highest-priority ready queue is leased the same tiles. -/
def execRestoreStart (q : Nat) (s : State) : Res := s.nextCore fun d =>
  let m := (d.queue q).savedLease
  let higher := d.queues.any fun e =>
    decide (d.rd (F.Q_CFG_PRIO q) < d.rd (F.Q_CFG_PRIO e.1)) && (d.claim e.1 &&& m) != 0
  if !d.restorable q || higher then d
  else
    let d := d.lease q m
    d.setQueue q { d.queue q with pre := .restoring }

/-- A STOPPED descriptor as it returns: waiting for its mover place, or suspended as it was (R224, R226). -/
def Issued.resumed (i : Issued) (waits : Bool) : Issued :=
  if i.st != .stopped then i
  else if i.prg.isSome || waits || i.pri.isSome then { i with st := .suspended }
  else { i with st := .queued }

/-- Restores tile `e.n` from its spill slot (R226): its banks, its quire RAM, and its register state. -/
def Dev.restoreTile (d : Dev) (key base : Nat) (e : Saved) : Dev :=
  let p := base + e.n * slotSize
  let d := (slotPieces e.live).foldl (fun d x => d.correct (p + x.1) x.2) d
  let d := d.spillIn e.n (maskList 48 e.live) (d.slotRead key p ((maskList 48 e.live).map fun b => (b * bankSize, bankSize)))
  let d := { d with regs := e.fields.foldl (fun (m : FMap Nat) (p : Nat × Nat) => finsert p.1 p.2 (fdel m p.1)) d.regs }
  d.setTile e.n { e.tile with quire := quireOf (d.readMem key (p + 0x600000) quireLen) }

/-- The kill cause of a spill slot that does not check, with the address of its event, 0 where it checks (R227). -/
def Dev.slotCause (d : Dev) (key base : Nat) (e : Saved) : Nat × Nat :=
  let p := base + e.n * slotSize
  match (slotPieces e.live).findSome? fun x => d.badGran (p + x.1) x.2 with
  | some g => (0x10, g)
  | none => if (crc32 (d.slotRead key p (slotPieces e.live))).toNat != e.crc then (0x14, p) else (0, 0)

/-- The same of the slots and the save record of a context. -/
def Dev.saveCause (d : Dev) (c key base : Nat) (es : List Saved) : Nat × Nat :=
  match d.badGran (d.recAt c) 4096 with
  | some g => (0x10, g)
  | none => ((es.map (d.slotCause key base)).find? fun k => k.1 != 0).getD (0, 0)

/-- The work that became due while queue `q` was pre-empted: recorded timebase commands (status above 64 bits of
position in `progress`), WAITs
whose condition holds, and recorded PRI failures (R224, R226). -/
def Dev.afterRestore (d : Dev) (q : Nat) : Dev × List KillReq :=
  (d.queue q).issued.foldl (fun r i =>
    if i.satisfied then
      let x := r.1.finish q i (i.progress / 2 ^ 64) (i.progress % 2 ^ 64) 0
      (x.1, r.2 ++ x.2)
    else if dOp i.d = 5 then
      let x := r.1.semChange (dSem i.d)
      (x.1, r.2 ++ x.2)
    else match i.pri with
      | some .invalidRequest => (r.1, r.2 ++ [{ c := d.qctx q, cause := 6, src := moverSrc i, addr := i.faultVa }])
      | some .failure => (r.1, r.2 ++ [{ c := d.qctx q, cause := 6, src := moverSrc i, addr := i.faultVa }])
      | _ => r) (d, [])

/-- The descriptors of queue `q` that only waited for replies complete, if those have come while it was pre-empted. -/
def Dev.endAll (d : Dev) (q : Nat) : Dev := ((d.queue q).issued.filter fun i => i.endAs.isSome).foldl (fun d i => d.endCheck q i.seq) d

/-- RESTORE_DONE (R221, R226, R227). -/
def execRestoreDone (q timeNs : Nat) (s : State) : Res := s.nextCore fun d =>
  let c := d.qctx q
  match (d.ctx c).spill with
  | none => d
  | some (base, key) =>
    if (d.queue q).pre != .restoring then d
    else
      let es := (fget d.saved q).getD []
      match d.saveCause c key base es with
      | (0, _) =>
        let d := (es.foldl (fun (d : Dev) e => d.restoreTile key base e) { d with saved := fdel d.saved q }).correct (d.recAt c) 4096
        let x := d.queue q
        let until_ := if x.preHost then x.minUntil else d.uptime + d.rd F.CMD_PRE_CTRL_MIN_RUN
        let iss := x.issued.map fun i => i.resumed (d.prgWait.any fun w => w.2 == .desc i.seq)
        let d := (d.setQueue q { x with pre := .running, preHost := false, savedLease := 0, minUntil := until_, issued := iss }).blockAs q 0
        let d := d.postInfo 0 2 timeNs 0 (some c) (some q)
        (((Dev.done (d.afterRestore q)).endAll q).tryStart q).preGoOn
      | (k, a) => (if k = 0x10 then d.logUe a 6 c else d).kill { c := c, cause := k, src := 0, addr := a }

/-! ### CMD_PRE_CMD (R218, R222, R232) -/

/-- RESULT of an operation of CMD_PRE_CMD; PREEMPT and KILL stay BUSY while the work they started goes on (R232, log entry 51). -/
def Dev.preEnd (d : Dev) (op res : Nat) : Dev :=
  (d.wr F.CMD_PRE_CMD_RESULT res).wr F.CMD_PRE_CMD_BUSY
    (if (op == 1 || op == 3) && res == 0 && d.preBusy (d.rd F.CMD_PRE_SEL_CTX) then 1 else 0)

/-- A GO of CMD_PRE_CMD with operation `op` on the context in CMD_PRE_SEL; discarded while BUSY. -/
def Dev.preGo (d : Dev) (op : Nat) (f : Dev → Nat → Dev × Nat) : Dev :=
  if d.is F.CMD_PRE_CMD_BUSY then d
  else
    let r := f (d.wr F.CMD_PRE_CMD_OP op) (d.rd F.CMD_PRE_SEL_CTX)
    r.1.preEnd op r.2

/-- The queues of context `c` that are enabled and not KILLED. -/
def Dev.liveQueues (d : Dev) (c : Nat) : List Nat := (d.queuesOf c).filter fun q => d.qstate q != 3

/-- PREEMPT of context `c` (R218, R220): results 1 BAD_STATE, 2 CTX_ZERO, 3 NO_SPILL. -/
def Dev.preemptCtx (d : Dev) (c : Nat) : Dev × Nat :=
  if c = 0 then (d, 2)
  else if !d.active c then (d, 1)
  else if (d.ctx c).spill.isNone then (d, 3)
  else
    let d := d.setCtx c { d.ctx c with hold := true }
    let qs := (d.liveQueues c).filter fun q => ((d.queue q).pre == .running || (d.queue q).pre == .restoring) && !d.preQ.contains q
    ({ d with preQ := d.preQ ++ qs }.preNext 130, 0)

/-- PREEMPT. -/
def execPreempt (s : State) (req : Requester := .host 0) : Res := s.devReg req 0x608058 fun d => d.preGo 1 Dev.preemptCtx

/-- RESUME of context `c` (R226). -/
def Dev.resumeCtx (d : Dev) (c : Nat) : Dev × Nat :=
  if !d.active c then (d, 1) else (d.setCtx c { d.ctx c with hold := false }, 0)

/-- RESUME. -/
def execResume (s : State) (req : Requester := .host 0) : Res := s.devReg req 0x608058 fun d => d.preGo 2 Dev.resumeCtx

/-- The host's KILL of context `c` (R218). -/
def Dev.hostKill (d : Dev) (c : Nat) : Dev × Nat :=
  if c = 0 then (d, 2) else if !d.active c then (d, 1) else (d.kill { c := c, cause := 0x12, src := 0 }, 0)

/-- KILL. -/
def execKill (s : State) (req : Requester := .host 0) : Res := s.devReg req 0x608058 fun d => d.preGo 3 Dev.hostKill

/-- Whether a spill area at `base` is refused for context `c` (R222). -/
def Dev.badSpill (d : Dev) (c base key : Nat) : Bool :=
  !d.inDram base spillSize || !d.keyOk key ||
    d.ctxs.any fun e => e.1 != c && match e.2.spill with
      | some (b, _) => decide (b < base + spillSize) && decide (base < b + spillSize)
      | none => false

/-- SET_SPILL of context `c` (R222): result 4 BAD_SPILL. -/
def Dev.setSpillCtx (d : Dev) (c : Nat) : Dev × Nat :=
  let base := d.rd F.CMD_PRE_SPILL_BASE * 65536
  let key := d.rd F.CMD_PRE_SPILL_KEY
  if !d.active c then (d, 1)
  else if d.badSpill c base key then (d, 4)
  else (d.setCtx c { d.ctx c with spill := some (base, key) }, 0)

/-- SET_SPILL. -/
def execSetSpill (s : State) (req : Requester := .host 0) : Res := s.devReg req 0x608058 fun d => d.preGo 0 Dev.setSpillCtx

/-- CLEAR_SPILL of context `c` (R232): result 5 SPILL_IN_USE. -/
def Dev.clearSpillCtx (d : Dev) (c : Nat) : Dev × Nat :=
  if !d.active c then (d, 1)
  else if (d.queuesOf c).any fun q => !d.unpre q then (d, 5)
  else (d.setCtx c { d.ctx c with spill := none }, 0)

/-- CLEAR_SPILL. -/
def execClearSpill (s : State) (req : Requester := .host 0) : Res := s.devReg req 0x608058 fun d => d.preGo 5 Dev.clearSpillCtx

/-- PSTATE of a context (R232): SAVING while a queue is being saved, else RESTORING, else PREEMPTED, else RUNNING. -/
def Dev.pstate (d : Dev) (c : Nat) : Nat :=
  let ps := (d.queuesOf c).map fun q => (d.queue q).pre
  if ps.any fun p => p == .stop || p == .save || p == .clear then 1
  else if ps.contains .restoring then 3
  else if ps.contains .preempted then 2
  else 0

/-- QUERY of context `c` (R232). -/
def Dev.preQuery (d : Dev) (c : Nat) : Dev × Nat :=
  let x := d.ctx c
  (d.wrs [(F.CMD_PRE_STAT_PSTATE, d.pstate c), (F.CMD_PRE_STAT_HOLD, if x.hold then 1 else 0),
    (F.CMD_PRE_STAT_SPILL, if x.spill.isSome then 1 else 0), (F.CMD_PRE_STAT_COUNT, x.preCount)], 0)

/-- PREEMPT_QUERY. -/
def execPreemptQuery (s : State) (req : Requester := .host 0) : Res := s.devReg req 0x608058 fun d => d.preGo 4 Dev.preQuery

/-! ### Event ring and save pool (R228–R231) -/

/-- EVT_RING_ENABLE (R229): a write of CMD_EVT_CTRL. -/
def execEvtRingEnable (val : Nat) (s : State) (req : Requester := .host 0) : Res := s.devReg req 0x608008 fun d => d.evCtrl val

/-- EVT_HEAD_WRITE (R231). -/
def execEvtHeadWrite (head : Nat) (s : State) (req : Requester := .host 0) : Res := s.devReg req 0x60800C fun d => d.evHead head

/-- A write of CMD_SAVE_POOL.SIZE (R228). -/
def Dev.poolWrite (d : Dev) (size : Nat) : Dev :=
  let used := d.ctxs.any fun e => e.1 != 0 && e.2.state != 0
  let ring := d.rd F.CMD_EVT_BASE_ADDR * 4096
  let meets := d.is F.CMD_EVT_CTRL_EN && !d.is F.CMD_EVT_BASE_LOC && decide (ring < sramBase + sramSize) &&
    decide (sramBase + sramSize - size * 2 ^ 20 < ring + 0x20000)
  if size = 0 || 16 < size || used || meets then d else d.wr F.CMD_SAVE_POOL_SIZE size

/-- SAVE_POOL_WRITE (R228). -/
def execSavePoolWrite (size : Nat) (s : State) (req : Requester := .host 0) : Res := s.devReg req 0x608040 fun d => d.poolWrite (size % 32)

end Sys2Proof.Machine
end

