-- ==== Sys2Proof/Machine/Queues.lean ====
section
/-! DEFINITION. The queues, their registers, the semaphores and the commands that the command processor carries out itself
(chapter 10, R199–R204). -/

namespace Sys2Proof.Machine

/-! ### Queue registers (R233–R239, R243) -/

/-- Whether queue `q` is one of the standing program: bound to context 0 and not DISABLED, or listed by the image while the
program waits for the host or runs (R134, R237, log entry 28). -/
def Dev.standingQueue (d : Dev) (q : Nat) : Bool :=
  let st := d.rd F.BOOT_STANDING_STATE
  d.qctx q == 0 && (d.qstate q != 0 ||
    ((st == 4 || st == 5) && d.boot.image.standing.any fun s => s.queues.any fun e => e.queue == q))

/-- Whether requester `req` may not write the registers of queue `q` (R237). -/
def Dev.qProtected (d : Dev) (req : Requester) (q : Nat) : Bool := d.standingQueue q && req != .mover 0

/-- A write of CMD_DB or of TAIL (R236): one that moves TAIL behind what has been fetched withdraws the rest, and nothing is fetched until
TAIL is written again. -/
def Dev.doorbell (d : Dev) (req : Requester) (q v : Nat) : Dev :=
  if d.qProtected req q then d
  else if 2 ^ d.rd (F.Q_CFG_LOG2 q) ≤ v then d.postRequest 0 0x8D (some (d.qctx q)) (some q) 0 v
  else
    let n := 2 ^ d.rd (F.Q_CFG_LOG2 q)
    let x := d.queue q
    let behind := decide ((v + n - d.rd (F.Q_HEAD_HEAD q) % n) % n < x.fetched.length)
    (d.setQueue q { x with back := behind }).wr (F.Q_TAIL_TAIL q) v

/-- DOORBELL (R236). -/
def execDoorbell (req : Requester) (q tail : Nat) (s : State) : Res := s.devReg req (0x700000 + 0x1000 * q) fun d =>
  if q < 64 then d.doorbell req q (tail % 65536) else d

/-- The status with which an EN = 1 is refused, 0 where it is not (R237). -/
def Dev.enableStatus (d : Dev) (q : Nat) : Nat :=
  let l := d.rd (F.Q_CFG_LOG2 q)
  let cl := d.rd (F.Q_CFG_CPL_LOG2 q)
  if d.qctx q = 0 || !d.active (d.qctx q) then 0x8C
  else if l < 6 || 16 < l || cl < 6 || 16 < cl then 0x85
  else if d.rd (F.Q_RING_BASE_VA q) % 64 != 0 || d.rd (F.Q_CPL_BASE_VA q) % 32 != 0 then 0x84
  else 0

/-- Queue `q` starts with HEAD = 0 and the present TAIL (R237), and with its completion ring empty, at its first record and with PHASE 1, as
its first pass begins (R256; that the pointers of the ring go back too is a DESIGN CHOICE, log entry 117). A pair member that does not drive holds a queue of
context 0 (R500). -/
def Dev.startQueue (d : Dev) (q : Nat) : Dev :=
  (d.setQueue q { pairHold := d.isPair && !d.drives && d.qctx q == 0 }).wrs
    [(F.Q_CFG_EN q, 1), (F.Q_STATUS_STATE q, 1), (F.Q_STATUS_BLOCK q, 0), (F.Q_HEAD_HEAD q, 0), (F.Q_LEASE_L q, 0),
     (F.Q_CPL_HEAD_HEAD q, 0), (F.Q_CPL_TAIL_TAIL q, 0), (F.Q_CPL_TAIL_PHASE q, 1)]

/-- The configuration of a DISABLED queue (R237). -/
def Dev.configure (d : Dev) (q v : Nat) : Dev :=
  let d := d.wrs [(F.Q_CFG_PRIO q, bits v 1 3), (F.Q_CFG_LOG2 q, bits v 4 5), (F.Q_CFG_CPL_LOG2 q, bits v 9 5),
    (F.Q_CFG_CPL_MODE q, bits v 14 1), (F.Q_CFG_PRIV q, bits v 15 1), (F.Q_CFG_HALT_ON_FAIL q, bits v 16 1), (F.Q_CFG_CTX q, bits v 20 12)]
  if bits v 0 1 = 0 then d
  else if d.enableStatus q != 0 then d.wr (F.Q_STATUS_LAST_STATUS q) (d.enableStatus q)
  else d.startQueue q

/-- Drops what queue `q` has in the timebase: its WAIT_POSITION and every position command that has not fired (R239). -/
def Tb.dropQueue (t : Tb) (q : Nat) : Tb :=
  { t with waits := fdel t.waits q, alarms := t.alarms.filter fun a => a.2.q != q, verdicts := t.verdicts.filter fun v => v.q != q,
           gates := List.map (fun g : Nat × List GEntry => (g.1, g.2.filter fun e => e.active || e.q != q)) t.gates }

/-- Whether an issued descriptor of queue `q` is cancelled when its queue drains (R239): waits, barriers, and position commands
that have not fired and whose gate pulse has not begun. -/
def Dev.cancels (d : Dev) (q : Nat) (i : Issued) : Bool :=
  let op := dOp i.d
  !i.satisfied && (op == 5 || op == 0x10 || op == 0x11 || op == 0x12 || op == 0x50 ||
    (op == 0x13 && !d.tb.gates.any fun g => g.2.any fun e => e.active && e.q == q && e.seq == i.seq))

/-- The barrier that a CLASP_BARRIER of queue `q` waits at fails (R489). -/
def Dev.dropBarrier (d : Dev) (q : Nat) : Dev :=
  (List.filter (fun b : Nat × Barrier => b.2.wait.any fun w => w.1 == q) d.cls.bars).foldl (fun d b => d.barAbandon b.1) d

/-- DATA0 of an issued descriptor that is cancelled (R256): the semaphore's value, the members arrived, or the position of an action
that has not taken place, for which no rule gives a value (free, log entry 12). -/
def Dev.cancelData (d : Dev) (i : Issued) : Nat × Dev :=
  if dOp i.d = 5 then (d.rd (F.SEM_VAL_VALUE (dSem i.d)), d)
  else if dOp i.d = 0x50 then (d.barMask (dfld i.d 8 0 8), d)
  else d.fresh

/-- What each of some descriptors reports as it is cancelled. -/
def Dev.cancelDatas (d : Dev) : List Issued → List (Issued × Nat) × Dev
  | [] => ([], d)
  | i :: is =>
    let r := d.cancelData i
    let r' := r.2.cancelDatas is
    ((i, r.1) :: r'.1, r'.2)

/-- Completes issued descriptors with CANCELLED. -/
def Dev.cancelAll (d : Dev) (q : Nat) : List (Issued × Nat) → Dev × List KillReq
  | [] => (d, [])
  | i :: is =>
    let r := d.finish q i.1 4 i.2 0
    let r' := r.1.cancelAll q is
    (r'.1, r.2 ++ r'.2)

/-- Queue `q` is disabled by software (R239). -/
def Dev.drain (d : Dev) (q : Nat) : Dev :=
  let ql := d.queue q
  let c := d.cancelDatas (ql.issued.filter (d.cancels q))
  let d := (c.2.setQueue q { ql with fetched := [] }).wrs [(F.Q_CFG_EN q, 0), (F.Q_STATUS_STATE q, 4), (F.Q_STATUS_BLOCK q, 0)]
  let r := ({ d with tb := d.tb.dropQueue q }.dropBarrier q).cancelAll q c.1
  Dev.done (r.1.drainCheck q, r.2)

/-- A write of the CFG register of queue `q` (R237, R239, R243). -/
def Dev.cfgWrite (d : Dev) (req : Requester) (q v : Nat) : Dev :=
  let st := d.qstate q
  if d.qProtected req q then d
  else if st = 0 then d.configure q v
  else if bits v 0 1 = 0 then (if st = 1 || st = 2 then d.drain q else d)
  else if bits v 17 1 = 1 && st = 2 then d.wr (F.Q_STATUS_STATE q) 1
  else d

/-- QUEUE_ENABLE (R237). -/
def execQueueEnable (req : Requester) (q cfg : Nat) (s : State) : Res := s.devReg req (0x601000 + 0x40 * q) fun d =>
  if q < 64 && d.qstate q == 0 then d.cfgWrite req q cfg else d

/-- QUEUE_DISABLE (R239). -/
def execQueueDisable (req : Requester) (q : Nat) (s : State) : Res := s.devReg req (0x601000 + 0x40 * q) fun d =>
  if q < 64 && d.qstate q != 0 then d.cfgWrite req q 0 else d

/-- QUEUE_RESUME (R243). -/
def execQueueResume (req : Requester) (q : Nat) (s : State) : Res := s.devReg req (0x601000 + 0x40 * q) fun d =>
  if q < 64 && d.qstate q != 0 then d.cfgWrite req q (1 + 2 ^ 17) else d

/-- A write of CPL_HEAD (R234, R241): the records passed are read. -/
def Dev.cplHead (d : Dev) (req : Requester) (q v : Nat) : Dev :=
  if d.qProtected req q then d
  else
    let n := 2 ^ d.rd (F.Q_CFG_CPL_LOG2 q)
    let k := (v + n - d.rd (F.Q_CPL_HEAD_HEAD q) % n) % n
    (d.setQueue q { d.queue q with unread := (d.queue q).unread - k }).wr (F.Q_CPL_HEAD_HEAD q) v

/-- A write of RING_BASE or CPL_BASE (R237): only while the queue is DISABLED. -/
def Dev.qBase (d : Dev) (req : Requester) (q : Nat) (f : Fld) (v : Nat) : Dev :=
  if d.qProtected req q || d.qstate q != 0 then d else d.wr f v

/-! ### Semaphore registers (R247, R249) -/

/-- Whether requester `req` may not write the registers of semaphore `s`: one of context 0 while the standing program runs. -/
def Dev.semProtected (d : Dev) (req : Requester) (s : Nat) : Bool :=
  d.rd F.BOOT_STANDING_STATE == 5 && d.semOwner s == some 0 && req != .mover 0

/-- A write of CMD_SEM_VAL (R247). -/
def Dev.semValWrite (d : Dev) (req : Requester) (s v : Nat) : Dev :=
  if d.semProtected req s then d else Dev.done (d.semSet s (v % 2 ^ 32))

/-- SEM_VAL_WRITE (R247, R248). -/
def execSemValWrite (req : Requester) (sem val : Nat) (s : State) : Res := s.devReg req (0x604000 + 4 * sem) fun d =>
  if sem < 4096 then d.semValWrite req sem val else d

/-- A write of CMD_SEM_CFG (R249). -/
def Dev.semCfgWrite (d : Dev) (req : Requester) (s v : Nat) : Dev :=
  if d.semProtected req s then d
  else if d.is (F.SEM_CFG_EN s) then (if bits v 0 1 = 0 then Dev.done (d.semOff s) else d)
  else d.wrs [(F.SEM_CFG_EN s, bits v 0 1), (F.SEM_CFG_SHARE s, bits v 1 1), (F.SEM_CFG_CTX s, bits v 16 12)]

/-- SEM_CFG_WRITE (R249). -/
def execSemCfgWrite (req : Requester) (sem val : Nat) (s : State) : Res := s.devReg req (0x610000 + 4 * sem) fun d =>
  if sem < 4096 then d.semCfgWrite req sem val else d

/-! ### Fetch (R234, R235) -/

/-- The posted entries of queue `q` that have not been fetched, at most the 8 that may be ahead of issue (R235, R236). -/
def Dev.toFetch (d : Dev) (q : Nat) : Nat :=
  let n := 2 ^ d.rd (F.Q_CFG_LOG2 q)
  let posted := (d.rd (F.Q_TAIL_TAIL q) + n - d.rd (F.Q_HEAD_HEAD q) % n) % n
  let x := d.queue q
  if x.back || x.rfetch.waits then 0 else Nat.min (8 - x.fetched.length) (posted - x.fetched.length)

/-- Takes a fetched entry. -/
def Dev.fetched (d : Dev) (q : Nat) (x : Desc) : Dev := d.setQueue q { d.queue q with fetched := (d.queue q).fetched ++ [x] }

/-- Fetches `n` entries of queue `q` (R235). Entries of a device-half ring are read from memory; those of a host-half ring are the
ones given, or, when `ok` is false, their completion fails (R141). For a host page that is not translated the queue waits. -/
def Dev.fetchRun (d : Dev) (q : Nat) (ok : Bool) : Nat → List Desc → Dev
  | 0, _ => d
  | n + 1, es =>
    let c := d.qctx q
    let k := (d.rd (F.Q_HEAD_HEAD q) + (d.queue q).fetched.length) % 2 ^ d.rd (F.Q_CFG_LOG2 q)
    let va := d.rd (F.Q_RING_BASE_VA q) + 64 * k
    let d := d.walkCorrect c va
    match d.ringXl q va (d.queue q).rfetch.tr false with
    | .mem pa key _ =>
      match d.badGran pa 64 with
      | some g => (d.logUe g 0 c).kill { c := c, cause := 0x10, addr := g }
      | none => ((d.correct pa 64).fetched q (BitVec.ofNat 512 (ofBytes (d.readMem key pa 64)))).fetchRun q ok n es
    | .host a _ =>
      if !ok then ((d.send (.hostRead a 64)).pciErr 4 a.addr 0).kill { c := c, cause := 0x11, addr := va }
      else match es with
        | [] => d
        | e :: es => ((d.send (.hostRead a 64)).fetched q e).fetchRun q ok n es
    | .ats => (d.onSide q false fun x => { x with waits := true, va := va, tr := none }).atsAsk q (.ring false) va false
    | .ue a => (d.logUe a 1 c).kill { c := c, cause := 0x10, addr := a }
    | .kill k => d.kill (ringKill c k va)
    | _ => d.kill (ringKill c 4 va)

/-- DESCRIPTOR_FETCH (R235): no translation is held after it. -/
def execDescriptorFetch (q : Nat) (entries : List Desc) (ok : Bool) (s : State) : Res := s.nextCore fun d =>
  if d.qstate q == 1 && d.unpre q && !(d.queue q).pairHold then
    (d.fetchRun q ok (d.toFetch q) entries).onSide q false fun x => { x with tr := none }
  else d

/-! ### Commands that end at issue (R241, R253, R259) -/

/-- RESERVED_OPCODE (R259): a head descriptor that is not well-formed completes with its status before any effect. -/
def execReservedOpcode (q : Nat) (s : State) : Res := s.nextCore fun d =>
  match (d.queue q).fetched with
  | x :: _ => d.onHead q (dOp x) fun d x => if d.headStatus q x != 0 then d.reject q x (d.headStatus q x) else d
  | [] => d

/-- NOP. -/
def execNop (q : Nat) (s : State) : Res := s.nextCore fun d => d.goHead q 0x00 fun d x => d.reject q x 0

/-- Issues a mover descriptor: it waits for a mover place (R211). -/
def Dev.issueMover (d : Dev) (q : Nat) (x : Desc) : Dev :=
  let r := d.take q x
  Dev.done (r.1.setIssued q { r.2 with st := .queued }, [])

/-- DMA (R255). -/
def execDma (q : Nat) (s : State) : Res := s.nextCore fun d => d.goHead q 0x01 fun d x => d.issueMover q x

/-- A SIGNAL gives its semaphore the value `v` (R247): its record carries `v`, and the waiters are evaluated after it. -/
def Dev.signal (d : Dev) (q : Nat) (x : Desc) (v : Nat) : Dev :=
  let s := dSem x
  let r := d.take q x
  let a := (r.1.wr (F.SEM_VAL_VALUE s) v).finish q r.2 0 v 0
  let b := a.1.semChange s
  Dev.done (b.1, a.2 ++ b.2)

/-- SIGNAL_ADD (R247). -/
def execSignalAdd (q : Nat) (s : State) : Res := s.nextCore fun d => d.goHead q 0x04 fun d x =>
  if dfld x 10 0 2 = 0 then d.signal q x (Nat.min (d.rd (F.SEM_VAL_VALUE (dSem x)) + dfld x 12 0 32) (2 ^ 32 - 1)) else d

/-- SIGNAL_SET (R247). -/
def execSignalSet (q : Nat) (s : State) : Res := s.nextCore fun d => d.goHead q 0x04 fun d x =>
  if dfld x 10 0 2 = 1 then d.signal q x (dfld x 12 0 32) else d

/-! ### Waits and fences (R248, R250) -/

/-- WAIT (R248): it is evaluated at issue, and a DEC it makes is a change that is evaluated in turn. -/
def execWait (q : Nat) (s : State) : Res := s.nextCore fun d => d.goHead q 0x05 fun d x =>
  let r := d.take q x
  if condHolds x (d.rd (F.SEM_VAL_VALUE (dSem x))) then
    let a := r.1.waitFire q r.2
    let b := a.1.semChange (dSem x)
    Dev.done (b.1, a.2 ++ b.2)
  else r.1

/-- WAIT_TIMEOUT (R248). -/
def execWaitTimeout (q : Nat) (s : State) : Res := s.nextCore fun d =>
  match (d.queue q).issued.find? fun i => dOp i.d == 5 && dfld i.d 16 0 32 != 0 with
  | some i => if d.unpre q then d.complete q i 2 (d.rd (F.SEM_VAL_VALUE (dSem i.d))) else d
  | none => d

/-- FENCE (R250). -/
def execFence (q : Nat) (s : State) : Res := s.nextCore fun d => d.goHead q 0x03 fun d x => Dev.done ((d.take q x).1, [])

/-- FENCE_FLUSH_DONE (R250). -/
def execFenceFlushDone (q : Nat) (s : State) : Res := s.nextCore fun d =>
  match (d.queue q).issued.find? fun i => dOp i.d == 3 && i.flushing with
  | some i => d.complete q i 0
  | none => d

/-! ### PREFETCH and ADVISE (R203, R204) -/

/-- PREFETCH (R203): it runs as soon as it has a mover place. -/
def execPrefetch (q : Nat) (s : State) : Res := s.nextCore fun d => d.goHead q 0x20 fun d x => d.issueMover q x

/-- ADVISE (R204). -/
def execAdvise (q : Nat) (s : State) : Res := s.nextCore fun d => d.goHead q 0x21 fun d x =>
  let c := d.qctx q
  let lo := dfld x 8 0 64
  let hi := rangeEnd x
  let kind := dfld x 24 0 4
  let d := d.setCtx c { d.ctx c with advice := advise (d.ctx c).advice lo hi kind }
  let d := d.reject q x 0
  if kind = 3 then Dev.done (d.probeCount q c 64 lo hi) else d

/-! ### TABLE_UPDATE (R199–R202) -/

/-- Where an item's entry lies, or how its validation fails. -/
inductive Slot where
  | at_ (table i : Nat)
  | bad
  | ue (addr : Nat)
deriving DecidableEq, Repr

/-- The walk from the table at `t` of level `l` to the table of level `stop` (R201). -/
def Dev.slotFrom (d : Dev) (va stop : Nat) : Nat → Nat → Slot
  | 0, t => if d.tableMem t then .at_ t (vaIdx 0 va) else .bad
  | l + 1, t =>
    if !d.tableMem t then .bad
    else if stop = l + 1 then .at_ t (vaIdx (l + 1) va)
    else
      match d.badGran (t + 8 * vaIdx (l + 1) va) 8 with
      | some a => .ue a
      | none =>
        let e := d.pte t (vaIdx (l + 1) va)
        if !pteV e || (!linkPriv t e && d.malformed (l + 1) e false) || pteLeaf e then .bad else d.slotFrom va stop l (pteAddr e)

/-- Whether the first entry of the group of entry `i` in the table at `t` makes a 64 KiB page. -/
def Dev.group64 (d : Dev) (t i : Nat) : Bool := let e := d.pte t (i / 16 * 16); pteV e && pteC64 e

/-- The range of virtual addresses whose walks read entry `i` of the table at `t`, of level `l`, that locates `va`. -/
def Dev.itemSpan (d : Dev) (l t i va : Nat) : Nat × Nat :=
  if l != 0 then (va / spanOf l * spanOf l, va / spanOf l * spanOf l + spanOf l)
  else if i % 16 = 0 then (va / 65536 * 65536, va / 65536 * 65536 + 65536)
  else if d.group64 t i then (0, 0)
  else (va / 4096 * 4096, va / 4096 * 4096 + 4096)

/-- Whether a walk of an address from `lo` to `hi - 1`, which lie in the span of the table at `t` of level `l`, reads the entry at `p`. -/
def Dev.onPath (d : Dev) (p : Nat) : Nat → Nat → Nat → Nat → Bool
  | 0, t, lo, hi =>
    let i := (p - t) / 8
    decide (t ≤ p) && decide (p < t + 4096) && decide (vaIdx 0 lo / 16 ≤ i / 16) && decide (i / 16 ≤ vaIdx 0 (hi - 1) / 16) &&
      (i % 16 == 0 || (!d.group64 t i && decide (vaIdx 0 lo ≤ i) && decide (i ≤ vaIdx 0 (hi - 1))))
  | l + 1, t, lo, hi =>
    let a := vaIdx (l + 1) lo
    let b := vaIdx (l + 1) (hi - 1)
    let z := spanOf (l + 1)
    (decide (t + 8 * a ≤ p) && decide (p < t + 8 * b + 8)) ||
      (List.range (b + 1 - a)).any fun j =>
        let e := d.pte t (a + j)
        let v := (lo / z + j) * z
        pteV e && !pteLeaf e && d.tableMem (pteAddr e) && d.onPath p l (pteAddr e) (max lo v) (min hi (v + z))

/-- Whether the entry at `p` is on the walk path of a page that a pin window of context `c` covers (R199). -/
def Dev.pinned (d : Dev) (c p : Nat) : Bool :=
  (d.ctx c).pins.any fun w => d.onPath p 3 (d.ctx c).root w.2.va (w.2.va + w.2.len)

/-- What an item does when it is good: the entry's address, its value, and the range it locates. -/
inductive Item where
  | good (addr val : Nat) (span : Nat × Nat)
  | bad
  | ue (addr : Nat)

/-- Validates the 16 bytes of an item for target context `c` (R201). -/
def Dev.item (d : Dev) (c : Nat) (bs : List Byte) : Item :=
  let v := bytesAt bs 0 8
  let w := bytesAt bs 8 8
  let l := bits w 0 2
  if bits w 4 8 != 0 || bits w 48 16 != 0 then .bad
  else match bits w 2 2 with
  | 0 =>
    let va := bits w 12 36 * 4096
    match d.slotFrom va l 3 (d.ctx c).root with
    | .bad => .bad
    | .ue a => .ue a
    | .at_ t i =>
      let span := d.itemSpan l t i va
      if (pteV v && d.malformed l v (l == 0 && i % 16 != 0 && !d.group64 t i)) || (d.pinned c (t + 8 * i) && d.pte t i != v) then .bad
      else .good (t + 8 * i) v span
  | 1 =>
    let k := bits w 12 6
    if l != 0 || bits w 27 21 != 0 || d.rd (F.MMU_WIN_CTL_CTX k) != c || (pteV v && d.winMalformed v) then .bad
    else .good (d.rd (F.MMU_WIN_BASE_BASE k) * 4096 + 8 * bits w 18 9) v (0, 0)
  | _ => .bad

/-- How a list of items ends: the state with every entry written and the ranges located, the first failing item, or an
uncorrectable error and whether it lies in the list. -/
inductive TableR where
  | ok (d : Dev) (spans : List (Nat × Nat))
  | bad (i : Nat)
  | ue (addr : Nat) (list : Bool) (i : Nat)

/-- Validates and writes `n` items from item `i` at `a` of the list as `d0` holds it (R201): each against the tables as the
earlier ones leave them. -/
def Dev.items (d0 d : Dev) (c src : Nat) : Nat → Nat → Nat → List (Nat × Nat) → TableR
  | 0, _, _, sp => .ok d sp
  | n + 1, i, a, sp =>
    match d0.badGran a 16 with
    | some g => .ue g true i
    | none =>
      match d.item c (d0.readMem 0 a 16) with
      | .bad => .bad i
      | .ue g => .ue g false i
      | .good p v r =>
        let d := (d.correct a 16).walkCorrect c r.1
        let d := if d.inMem p 8 || isPriv p then d.writeMem 0 p (toBytes 8 v) 0 src else d
        d0.items d c src n (i + 1) (a + 16) (sp ++ [r])

/-- The descriptors of context `c` whose held translations meet a range pause, hold none, and walk again as they resume (R201, R214): the
pause and the resume fall in one command, and a descriptor that an invalidation pauses as well stays paused. -/
def Dev.rewalk (d : Dev) (c : Nat) (sp : List (Nat × Nat)) : Dev :=
  let meets : HeldTr → Bool := fun h => !h.host && sp.any fun r => decide (h.va < r.2) && decide (r.1 < h.va + h.size)
  let hit := d.collect fun q i => d.qctx q == c && i.held.any meets
  let d := hit.foldl (fun d w => d.setIssued w.1 { w.2 with st := .paused, upd := true, held := [] }) d
  hit.foldl (fun d w => (d.onIssued w.1 w.2.seq fun i => { i with upd := false }).unpause w.1 w.2.seq) d

/-- TABLE_UPDATE (R200, R201): the list is taken from memory as it was before. -/
def execTableUpdate (q : Nat) (s : State) : Res := s.nextCore fun d => d.goHead q 0x22 fun d x =>
  let c := dCtx x
  let r := d.take q x
  match r.1.items r.1 c (d.qctx q) (dfld x 24 0 16) 0 (dfld x 16 0 64) [] with
  | .ok d' sp => (d'.rewalk c sp).complete q r.2 0
  | .bad i => r.1.complete q r.2 0x8B i
  | .ue a true _ => (r.1.logUe a 0 (d.qctx q)).kill { c := d.qctx q, cause := 0x10, addr := a }
  | .ue a false i =>
    let d := (r.1.logUe a 1 c).kill { c := c, cause := 0x10, addr := a }
    if d.qctx q = c then d else d.complete q r.2 0x8B i

end Sys2Proof.Machine
end

