-- ==== Sys2Proof/Machine/TbOps.lean ====
section
/-! DEFINITION. The position counter, its events and stores, and the verdict table, as the operations the timebase commands share
(chapter 17). -/

namespace Sys2Proof.Machine

/-! ### Position (R387, R389, R392, R395, R398) -/

/-- One count in the units of P. -/
def one : Int := 65536

/-- Quality (R393): 0 LOCKED, 1 HOLDOVER, 2 LOST, 3 RECOVERING. -/
def Dev.qual (d : Dev) : Nat := d.rd F.TB_STATUS_QUALITY

/-- The signed difference of two positions modulo 2^64 (R387). -/
def posDiff (p x : Int) : Int := signed 64 (twos 64 (p - x))

/-- Whether position `x` has been reached at `p` (R387). -/
def reached (p : Int) (x : Nat) : Bool := decide (0 ≤ posDiff p x)

/-- An advance of at most the next edge's count less the smallest fraction (R389). -/
def clampStep (x step : Int) : Int := if 0 ≤ step then min x (step - 1) else max x (step + 1)

/-- How far velocity `v` goes in `dt` nanoseconds, in the units of P. -/
def travel (v : Int) (dt : Nat) : Int := (v * dt).fdiv 65536

/-- The rate of the HOST source, in the units of v. -/
def Dev.hostRate (d : Dev) : Int :=
  if d.is F.TB_CFG_REVERSE then signed 32 (d.rd F.TB_HOST_RATE_RATE) else d.rd F.TB_HOST_RATE_RATE

/-- The velocity of P: the measured one, or the rate of the HOST source (R389, R392). -/
def Dev.vel (d : Dev) : Int := if d.rd F.TB_CTRL_SRC = 3 then d.hostRate else d.tb.v

/-- P at time `t` by its mode; in forward mode it never decreases (R399). -/
def Dev.posAt (d : Dev) (t : Nat) : Int :=
  let b := d.tb
  let dt := t - b.t0
  let x := match b.mode with
    | .frozen => b.p0
    | .hold => b.p0
    | .follow => b.p0 + clampStep (travel b.v dt) b.step
    | .host => b.p0 + travel d.hostRate dt
    | .extrap => b.p0 + travel b.v dt
    | .slew up => b.p0 + (d.vel * dt * (if up then 17 else 15)).fdiv (16 * 65536)
  if d.is F.TB_CFG_REVERSE then x else max b.p x

/-- The multiple of TB_PULSE_DIV at or below a position (R407). -/
def Dev.pulseIdx (d : Dev) (p : Int) : Int := (p.fdiv 65536).fdiv (max 1 (d.rd F.TB_PULSE_DIV_DIV))

/-- P takes a value: it is shown in TB_POS; travel downwards is forgotten for TB_PULSE. -/
def Dev.setPos (d : Dev) (p : Int) : Dev :=
  ({ d with tb := { d.tb with p := p, crossed := min d.tb.crossed (d.pulseIdx p) } }).wr F.TB_POS_P (twos 64 p)

/-- Time goes on to `t`. -/
def Dev.tbTo (d : Dev) (t : Nat) : Dev :=
  let t := max t d.tb.now
  ({ d with tb := { d.tb with now := t } }).setPos (d.posAt t)

/-- P takes the base `p` now and moves on by mode `m`. -/
def Dev.rebase (d : Dev) (m : TbMode) (p : Int) : Dev :=
  let d := { d with tb := { d.tb with mode := m, p0 := p, t0 := d.tb.now } }
  d.setPos (d.posAt d.tb.now)

/-- The velocity is shown in TB_VEL, saturating. -/
def Dev.setVel (d : Dev) (v : Int) : Dev :=
  let shown := if d.is F.TB_CFG_REVERSE then twos 32 (max (-2147483648) (min 2147483647 v)) else (min v (2 ^ 32 - 1)).toNat
  ({ d with tb := { d.tb with v := v } }).wr F.TB_VEL_V shown

/-- The raw count is shown in TB_RAW. -/
def Dev.setN (d : Dev) (n : Int) : Dev := ({ d with tb := { d.tb with n := n } }).wr F.TB_RAW_N (twos 64 n)

/-- The position as DATA0. -/
def Dev.posData (d : Dev) : Nat := twos 64 d.tb.p

/-- A change of quality (R393): its event and interrupt source 68. -/
def Dev.setQual (d : Dev) (q : Nat) : Dev :=
  let old := d.qual
  if old = q then d
  else ((d.wr F.TB_STATUS_QUALITY q).postInfo 36 0x1700 (old + q * 256 + d.posData / 65536 * 65536)).irq 68

/-! ### Completion of timebase commands (R224, R402) -/

/-- The descriptor of a timebase command completes with status `st` at the present position; for a pre-empted queue that is recorded
and found on restore. -/
def Dev.tbEnd (d : Dev) (q seq st pos : Nat) : Dev :=
  match d.bySeq q seq with
  | none => d
  | some i =>
    let (data, d) := if st = 4 then d.fresh else (pos, d)
    if d.unpre q then d.complete q i st data
    else d.setIssued q { i with satisfied := true, progress := data + st * 2 ^ 64 }

/-- Counts an event fired LATE. -/
def Dev.countLate (d : Dev) : Dev := d.sat F.TB_CNT0_LATE

/-- Counts the drops of one step and reports them (R400). -/
def Dev.dropped (d : Dev) (n : Nat) : Dev :=
  if n = 0 then d else (d.sat F.TB_CNT1_DROPPED n).postInfo 36 0x1702 n

/-! ### Gates (R396, R400, R406) -/

/-- The entries of gate `g`. -/
def Dev.gate (d : Dev) (g : Nat) : List GEntry := (fget d.tb.gates g).getD []
/-- Sets the entries of gate `g`. -/
def Dev.setGate (d : Dev) (g : Nat) (l : List GEntry) : Dev :=
  { d with tb := { d.tb with gates := if l.isEmpty then fdel d.tb.gates g else fset d.tb.gates g l } }

/-- The level of gate `g` (R406). -/
def Dev.gateLevel (d : Dev) (g : Nat) : Bool :=
  (d.is (F.TB_GATE_CFG_EN g) && (d.gate g).any (·.active)) != d.is (F.TB_GATE_CFG_INV g)

/-- Whether the second edge of an active pulse is due. -/
def Dev.gateDue (d : Dev) (e : GEntry) : Bool :=
  e.active && (if e.byPos then reached d.tb.p e.off else decide (e.endT ≤ d.tb.now))

/-- An entry at its first edge. -/
def Dev.gateOn (d : Dev) (e : GEntry) (late : Bool) : GEntry :=
  { e with active := true, late := late, firedAt := d.posData, endT := if e.byPos then 0 else d.tb.now + e.off }

/-- Completes entries that have left gate `g`. -/
def Dev.gateEnds (d : Dev) (l : List GEntry) (st : GEntry → Nat) : Dev :=
  l.foldl (fun d e => d.tbEnd e.q e.seq (st e) e.firedAt) d

/-- Places the edges of gate `g` that are due (R406): second edges, then first edges. -/
def Dev.gateStep (d : Dev) (g : Nat) : Dev :=
  let l := d.gate g
  let out := l.filter d.gateDue
  let l := (l.filter fun e => !d.gateDue e).map fun e => if !e.active && reached d.tb.p e.pos then d.gateOn e false else e
  (d.setGate g l).gateEnds out fun e => if e.late then 3 else 0

/-! ### Verdict words (R404, R405, R408) -/

/-- Updates verdict word `i` with a value and a quality; a member of a pair notes it (R508, R510). -/
def Dev.putWord (d : Dev) (i value quality : Nat) : Dev :=
  let o := d.rd (F.VP_TABLE_WORD i)
  let add (l : List Nat) : List Nat := if l.contains i then l else l ++ [i]
  let d := if d.paired then { d with pair := { d.pair with dirty := add d.pair.dirty, dirtySleep := add d.pair.dirtySleep } } else d
  (d.wr (F.VP_TABLE_WORD i) ((1 - o / 2 ^ 15 % 2) * 2 ^ 15 + quality * 2 ^ 12 + value % 4096)).bump F.VP_UPDATES_COUNT

/-- The verdict quality that the timebase gives a write (R408). -/
def Dev.verdictQual (d : Dev) : Nat := match d.qual with | 0 => 1 | 1 => 2 | 3 => 3 | _ => 6

/-- The words that a list of writes updates, each once. -/
def wordsOf (l : List VEntry) : List Nat := (l.map (·.word)).eraseDups

/-- Fires verdict writes together (R405): one update a word, with the value of the last write accepted. -/
def Dev.fireVerdicts (d : Dev) (l : List VEntry) (quality st : Nat) : Dev :=
  let p := d.posData
  let d := (wordsOf l).foldl (fun d w =>
    match (l.filter fun e => e.word == w).getLast? with
    | some e => d.putWord w e.value quality
    | none => d) d
  l.foldl (fun d e => d.tbEnd e.q e.seq st p) d

/-! ### Alarms and waits (R251, R402) -/

/-- An alarm fires (R251, R402): the permission is checked again. -/
def Dev.fireAlarm (d : Dev) (a : Alarm) (st : Nat) : Dev :=
  let p := d.posData
  if d.semPerm a.ctx a.sem then (Dev.done (d.semAdd a.sem a.value)).tbEnd a.q a.seq st p
  else d.tbEnd a.q a.seq 1 p

/-- What of one position has taken effect before the verdict writes: the gate edges that are due (R405); none while LOST (R396). -/
def Dev.gatesDue (d : Dev) : Dev := if d.qual = 2 then d else (List.range 4).foldl Dev.gateStep d

/-- The verdict writes whose position has been reached take effect (R402, R405). -/
def Dev.verdictsDue (d : Dev) : Dev :=
  if d.qual = 2 then d
  else
    let on (v : VEntry) : Bool := reached d.tb.p v.pos
    ({ d with tb := { d.tb with verdicts := d.tb.verdicts.filter fun v => !on v } }).fireVerdicts (d.tb.verdicts.filter on) d.verdictQual 0

/-- The alarm in slot `k` fires if its position has been reached (R402). -/
def Dev.alarmDue (d : Dev) (k : Nat) : Dev :=
  match fget d.tb.alarms k with
  | some a => if reached d.tb.p a.pos && d.qual != 2 then ({ d with tb := { d.tb with alarms := fdel d.tb.alarms k } }).fireAlarm a 0 else d
  | none => d

/-- Every alarm whose position has been reached fires. -/
def Dev.alarmsDue (d : Dev) : Dev := (d.tb.alarms.map (·.1)).foldl Dev.alarmDue d

/-- The WAIT_POSITION of queue `q` completes. -/
def Dev.endWait (d : Dev) (q st : Nat) : Dev :=
  let d := { d with tb := { d.tb with waits := fdel d.tb.waits q } }
  match (d.queue q).issued.find? fun i => dOp i.d == 0x10 with
  | some i => d.tbEnd q i.seq st d.posData
  | none => d

/-! ### Steps (R400) -/

/-- Whether a step from position `b` passed over `x`. -/
def Dev.passed (d : Dev) (b : Int) (x : Nat) : Bool := !reached b x && reached d.tb.p x

/-- The gate entries of gate `g` that a step passed over fire late (R400). -/
def Dev.gateLate (d : Dev) (b : Int) (g : Nat) : Dev :=
  let fix (e : GEntry) : GEntry :=
    if e.active || !d.passed b e.pos then e
    else
      let x := d.gateOn e true
      if e.byPos && d.passed b e.off then { x with byPos := false, endT := d.tb.now + 100 * d.rd (F.TB_GATE_CFG_LATE_W g) } else x
  let n := ((d.gate g).filter fun e => !e.active && d.passed b e.pos).length
  let isPast (e : GEntry) : Bool := e.active && e.byPos && d.passed b e.off
  let out := (d.gate g).filter isPast
  ((d.setGate g (((d.gate g).filter fun e => !isPast e).map fix)).sat F.TB_CNT0_LATE (n + out.length)).gateEnds out fun _ => 3

/-- The gate entries of gate `g` that a step passed over are dropped; a pulse whose end it passed over ends (R400). -/
def Dev.gateDrop (d : Dev) (b : Int) (g : Nat) : Dev × Nat :=
  let isPast (e : GEntry) : Bool := if e.active then e.byPos && d.passed b e.off else d.passed b e.pos
  let out := (d.gate g).filter isPast
  ((d.setGate g ((d.gate g).filter fun e => !isPast e)).gateEnds out (fun _ => 4), out.length)

/-- What a step from position `b` passed over fires late or is dropped, in the order of R405; a WAIT_POSITION completes with LATE
under either policy (R400). -/
def Dev.passOver (d : Dev) (b : Int) : Dev :=
  let vs := d.tb.verdicts.filter fun v => d.passed b v.pos
  let as := d.tb.alarms.filter fun a => d.passed b a.2.pos
  let ws := d.tb.waits.filter fun w => d.passed b w.2
  let drop := d.is F.TB_CFG_LATE_POLICY
  let d0 := d
  let gs := (List.range 4).foldl (fun (x : Dev × Nat) g =>
    if drop then let r := x.1.gateDrop b g; (r.1, x.2 + r.2) else (x.1.gateLate b g, x.2)) (d, 0)
  let d := gs.1
  let d := { d with tb := { d.tb with verdicts := d.tb.verdicts.filter fun v => !d0.passed b v.pos,
                                      alarms := d.tb.alarms.filter fun a => !d0.passed b a.2.pos } }
  let d := if drop then
      let d := vs.foldl (fun d v => d.tbEnd v.q v.seq 4 0) d
      let d := as.foldl (fun d a => d.tbEnd a.2.q a.2.seq 4 0) d
      d.dropped (gs.2 + vs.length + as.length)
    else
      let d := (d.fireVerdicts vs 4 3).sat F.TB_CNT0_LATE (vs.length + as.length)
      as.foldl (fun d a => d.fireAlarm a.2 3) d
  ws.foldl (fun d w => (d.countLate).endWait w.1 3) d

/-! ### TB_PULSE (R407) -/

/-- TB_PULSE starts a pulse where P has crossed a multiple of TB_PULSE_DIV; further multiples are skipped. -/
def Dev.pulse (d : Dev) : Dev :=
  let k := d.pulseIdx d.tb.p
  let n := (k - d.tb.crossed).toNat
  if n = 0 then d
  else if d.is F.TB_PULSE_CFG_EN && d.qual != 2 then
    ({ d with tb := { d.tb with crossed := k, pulseEnds := d.tb.pulseEnds ++ [d.tb.now + d.rd F.TB_PULSE_CFG_WIDTH] } }).sat
      F.TB_PULSE_SKIP_COUNT (n - 1)
  else { d with tb := { d.tb with crossed := k } }

/-- P steps to `p` in one cycle and goes on by mode `m` (R391, R392, R398). -/
def Dev.stepPos (d : Dev) (m : TbMode) (p : Int) : Dev :=
  let b := d.tb.p
  let d := { d with tb := { d.tb with mode := m, p0 := p, t0 := d.tb.now, p := p } }.setPos p
  if b < p then (d.passOver b).pulse else d

/-! ### Entry to LOST (R396) -/

/-- The OFF_MODE 1 pulses of gate `g` are driven low. -/
def Dev.gateLost (d : Dev) (g : Nat) : Dev :=
  let out := (d.gate g).filter fun e => e.active && e.byPos
  (d.setGate g ((d.gate g).filter fun e => !(e.active && e.byPos))).gateEnds out fun _ => 3

/-- Every armed command whose first edge has not been placed is cancelled. -/
def Dev.cancelArmed (d : Dev) : Dev :=
  let b := d.tb
  let gs := b.gates.flatMap fun g => g.2.filter fun e => !e.active
  let on := (List.map (fun g : Nat × List GEntry => (g.1, g.2.filter (·.active))) b.gates).filter fun g => !g.2.isEmpty
  let d := { d with tb := { b with verdicts := [], alarms := [], waits := [], gates := on } }
  let d := d.gateEnds gs fun _ => 4
  let d := b.verdicts.foldl (fun d v => d.tbEnd v.q v.seq 4 0) d
  let d := b.alarms.foldl (fun d a => d.tbEnd a.2.q a.2.seq 4 0) d
  b.waits.foldl (fun d w => d.endWait w.1 4) d

/-- The quality becomes LOST and P is frozen (R396). -/
def Dev.enterLost (d : Dev) : Dev :=
  let was := d.qual
  let d := { d with tb := { d.tb with mode := .frozen, p0 := d.tb.p, t0 := d.tb.now, awaitRef := false } }.wrs
    [(F.TB_STATUS_SLEWING, 0), (F.TB_STATUS_HOLDBACK, 0), (F.TB_STATUS_BACKING, 0)]
  if was = 2 then d
  else
    let d := (List.range 4).foldl Dev.gateLost (d.setQual 2)
    if d.is F.TB_CFG_LOST_POLICY then d.cancelArmed else d

end Sys2Proof.Machine
end

