-- ==== Sys2Proof/Machine/Timebase.lean ====
section
/-! DEFINITION. The commands of the position timebase, the gates, TB_PULSE and the verdict port (chapter 17, R251). Each carries the
TBCLK cycle at which it happens. -/

namespace Sys2Proof.Machine

/-! ### Edges (R388–R390, R397) -/

/-- The quality becomes LOCKED on the reference in force (R398). -/
def Dev.tbLock (d : Dev) : Dev :=
  let b := d.tb
  let m : TbMode := if d.rd F.TB_CTRL_SRC = 3 then .host else .follow
  let d := { d with tb := { b with mode := m, p0 := b.pref, t0 := b.tref, tofs := b.ofs } }
  let d := d.setPos (d.posAt b.now)
  (d.wrs [(F.TB_STATUS_SLEWING, 0), (F.TB_STATUS_HOLDBACK, 0), (F.TB_STATUS_BACKING, 0)]).setQual 0

/-- The step of a correction (R398). -/
def Dev.corrStep (d : Dev) (e pref : Int) : Dev :=
  let d := (d.sat F.TB_CNT0_STEPS).postInfo 36 0x1701 (twos 64 e)
  (d.stepPos .follow pref).tbLock

/-- The error is measured at the reference event and its correction begins (R397, R398). -/
def Dev.reference (d : Dev) (pref : Int) : Dev :=
  let e := pref - d.tb.p
  let lim := one * d.rd F.TB_SLEW_SLEW_MAX
  let d := { d with tb := { d.tb with ofs := pref - one * d.tb.n, awaitRef := false, pref := pref, tref := d.tb.now } }.wr
    F.TB_ERR_E (twos 64 e)
  if e = 0 then d.tbLock
  else if e.natAbs ≤ lim then (d.rebase (.slew (decide (0 < e))) d.tb.p).wr F.TB_STATUS_SLEWING 1
  else if 0 < e || d.is F.TB_CFG_REVERSE then d.corrStep e pref
  else (d.rebase .hold d.tb.p).wr F.TB_STATUS_HOLDBACK 1

/-- The value congruent to `ph` modulo `z` counts that lies nearest to `p`, the higher of two (R397). -/
def nearestPos (p : Int) (z ph : Nat) : Int :=
  let w := one * z
  one * ph + ((2 * (p - one * ph) + w).fdiv (2 * w)) * w

/-- The velocity at an edge now (R389), with the times of the edges before it; with too few of them the rule gives none: a free
value (log entry 12). -/
def Dev.velocity (d : Dev) (cnt : Int) : Int × Dev :=
  let j := if d.rd F.TB_CTRL_SRC = 0 then 4 else 1
  let k := if d.rd F.TB_CTRL_SRC = 0 then 4 else cnt.natAbs
  let (v, d) := match d.tb.edges[j - 1]? with
    | some t => if t < d.tb.now then (k * 2 ^ 32 / (d.tb.now - t), d) else let (x, d) := d.fresh; (x % 2 ^ 32, d)
    | none => let (x, d) := d.fresh; (x % 2 ^ 32, d)
  (if cnt < 0 && d.is F.TB_CFG_REVERSE then -(v : Int) else v, d)

/-- P follows N + OFS at an edge, or holds while the source runs backwards in forward mode (R389, R390). -/
def Dev.followEdge (d : Dev) : Dev :=
  let cand := one * d.tb.n + d.tb.tofs
  if d.is F.TB_CFG_REVERSE then d.rebase .follow cand
  else if cand < d.tb.p || (d.is F.TB_STATUS_BACKING && cand == d.tb.p) then (d.rebase .frozen d.tb.p).wr F.TB_STATUS_BACKING 1
  else (d.rebase .follow cand).wr F.TB_STATUS_BACKING 0

/-- A decoded edge of `cnt` counts now (R389–R391, R397). -/
def Dev.edge (d : Dev) (cnt : Int) : Dev :=
  let q := d.qual
  let n0 := d.tb.n
  let mains := d.rd F.TB_CTRL_SRC == 2
  let (v, d) := if q = 0 || q = 3 || !d.is F.TB_STATUS_ACQUIRED then d.velocity cnt else (d.tb.v, d)
  let d := ({ d with tb := { d.tb with edges := (d.tb.now :: d.tb.edges).take 5, step := one * cnt } }.setVel v).setN (n0 + cnt)
  if !d.is F.TB_STATUS_ACQUIRED then
    let d := { d with tb := { d.tb with tofs := d.tb.ofs } }.wr F.TB_STATUS_ACQUIRED 1
    d.followEdge.setQual 0
  else if q = 1 || q = 2 then
    let d := { d with tb := { d.tb with tofs := d.tb.p / one * one - one * n0, awaitRef := true } }.wr F.TB_STATUS_BACKING 0
    let d := d.followEdge.setQual 3
    if mains then d.reference (nearestPos d.tb.p 65536 0)
    else if !d.is F.TB_CFG_RECOV_REF then d.reference (one * d.tb.n + d.tb.ofs)
    else d
  else match d.tb.mode with
    | .slew up =>
      let d := d.rebase (.slew up) d.tb.p
      { d with tb := { d.tb with pref := one * d.tb.n + d.tb.ofs, tref := d.tb.now } }
    | .hold => { d with tb := { d.tb with pref := one * d.tb.n + d.tb.ofs, tref := d.tb.now } }
    | _ => d.followEdge

/-- Whether the timebase runs on source `src`. -/
def Dev.tbOn (d : Dev) (src : Nat) : Bool := d.is F.TB_CTRL_EN && d.rd F.TB_CTRL_SRC == src

/-- An illegal transition (R388): at most one QUAD_ERROR event a millisecond. Its code and DATA are free values (log entry 32). -/
def Dev.quadError (d : Dev) : Dev :=
  let d := d.sat F.TB_CNT1_QERR
  if d.tb.lastQerr.any fun t => decide (d.tb.now < t + 1000000) then d
  else
    let (c, d) := d.fresh
    let (x, d) := d.fresh
    { d with tb := { d.tb with lastQerr := some d.tb.now } }.postInfo 36 (c % 65536) x

/-- QUAD_EDGE (R388–R390). -/
def execQuadEdge (t : Nat) (step : QuadStep) (s : State) : Res := s.nextPeri fun d =>
  if !d.tbOn 0 then d
  else match step with
    | .up => (d.tbTo t).edge 1
    | .down => (d.tbTo t).edge (-1)
    | .illegal => (d.tbTo t).quadError

/-- PULSE_EDGE (R388). -/
def execPulseEdge (t : Nat) (s : State) : Res := s.nextPeri fun d =>
  if d.tbOn 1 then (d.tbTo t).edge (d.rd F.TB_PULSECNT_COUNTS) else d

/-- The source is lost (R395): P steps to the extrapolated position, and the quality becomes HOLDOVER. -/
def Dev.tbLoss (d : Dev) : Dev :=
  let b := d.tb
  let d := if b.mode = .follow then { d with tb := { b with mode := .extrap, awaitRef := false, tHold := b.now } }
    else { d with tb := { b with mode := .extrap, p0 := b.p, t0 := b.now, awaitRef := false, tHold := b.now } }
  let d := d.setPos (d.posAt b.now)
  (d.wrs [(F.TB_STATUS_SLEWING, 0), (F.TB_STATUS_HOLDBACK, 0), (F.TB_STATUS_BACKING, 0)]).setQual 1

/-- Whether a source can be lost now. -/
def Dev.canLose (d : Dev) : Bool := d.is F.TB_CTRL_EN && d.is F.TB_STATUS_ACQUIRED && (d.qual == 0 || d.qual == 3)

/-- MAINS_EDGE (R388, R394): an edge less than 15.3 ms after the last is ignored, and the source is then lost. -/
def execMainsEdge (t : Nat) (s : State) : Res := s.nextPeri fun d =>
  if !d.tbOn 2 then d
  else
    let d := d.tbTo t
    match d.tb.edges with
    | e :: _ => if e + 15300000 ≤ d.tb.now then d.edge 65536 else if d.canLose then d.tbLoss else d
    | [] => d.edge 65536

/-- INDEX_EDGE (R397, R412). -/
def execIndexEdge (t : Nat) (s : State) : Res := s.nextPeri fun d =>
  if !(d.tbOn 0 || d.tbOn 1) || !d.is F.TB_CFG_RECOV_REF then d
  else
    let d := d.tbTo t
    let z := max 1 (d.rd F.TB_ZPERIOD_PERIOD)
    let ph := d.rd F.TB_ZPHASE_PHASE % z
    if d.qual = 3 && d.tb.awaitRef then d.reference (nearestPos d.tb.p z ph)
    else if d.qual = 0 then
      let x : Int := (d.tb.p.fdiv 65536) % z - ph
      if x = 0 then d else (d.sat F.TB_ZMISS_COUNT).postInfo 36 0x1703 (twos 64 x)
    else d

/-- Whether an edge is overdue (R394). -/
def Dev.overdue (d : Dev) : Bool :=
  match d.rd F.TB_CTRL_SRC, d.tb.edges with
  | 2, e :: _ => decide (e + 22300000 ≤ d.tb.now)
  | 3, _ => false
  | _, e :: e' :: _ =>
    decide ((d.rd F.TB_MINVEL_VMIN : Int) ≤ d.tb.v.natAbs) && decide (e + d.rd F.TB_CFG_LOSS_FACTOR * (e - e') ≤ d.tb.now)
  | _, _ => false

/-- SOURCE_LOSS (R394, R395). -/
def execSourceLoss (t : Nat) (s : State) : Res := s.nextPeri fun d =>
  let d' := d.tbTo t
  if d'.canLose && d'.overdue then d'.tbLoss else d

/-- HOLDOVER_EXPIRE (R395, R396). -/
def execHoldoverExpire (t : Nat) (s : State) : Res := s.nextPeri fun d =>
  let d' := d.tbTo t
  if d'.qual = 1 && d'.tb.tHold + 1000000 * d'.rd F.TB_HOLD_HOLDOVER_MAX ≤ d'.tb.now then d'.enterLost else d

/-- The position that the reference gives now (R398). -/
def Dev.target (d : Dev) : Int :=
  let x := travel d.vel (d.tb.now - d.tb.tref)
  d.tb.pref + if d.rd F.TB_CTRL_SRC = 3 then x else clampStep x d.tb.step

/-- SLEW_COMPLETE (R398). -/
def execSlewComplete (t : Nat) (s : State) : Res := s.nextPeri fun d =>
  let d' := d.tbTo t
  match d'.tb.mode with
  | .slew up => if (if up then d'.target ≤ d'.tb.p else d'.tb.p ≤ d'.target) then d'.tbLock else d
  | _ => d

/-- HOLDBACK_END (R398). -/
def execHoldbackEnd (t : Nat) (s : State) : Res := s.nextPeri fun d =>
  let d' := d.tbTo t
  if d'.tb.mode = .hold && d'.tb.p ≤ d'.target then d'.tbLock else d

/-! ### Enable and host steps (R391, R392) -/

/-- EN goes to 1 (R391): P, N and OFS are loaded, N + OFS = P. -/
def Dev.tbEnable (d : Dev) : Dev :=
  let raw := d.rd F.TB_POS_SET_P
  let p := d.tb.p + posDiff raw d.tb.p
  let d := { d with tb := { d.tb with ofs := p % one, tofs := p % one, edges := [], awaitRef := false, step := 0 } }
  let d := ((d.setVel 0).setN (p.fdiv 65536)).wrs [(F.TB_CTRL_EN, 1), (F.TB_STATUS_ACQUIRED, 0), (F.TB_STATUS_BACKING, 0)]
  if d.rd F.TB_CTRL_SRC = 3 then ((d.stepPos .host p).wr F.TB_STATUS_ACQUIRED 1).setQual 0 else d.stepPos .frozen p

/-- A write of TB_CTRL (R391, R411). -/
def Dev.tbCtrl (d : Dev) (v : Nat) : Dev :=
  let locked := d.is F.TB_CTRL_LOCK
  let d := if bits v 3 1 = 1 then d.wr F.TB_CTRL_LOCK 1 else d
  if locked then d
  else if d.is F.TB_CTRL_EN then
    if bits v 0 1 = 1 then d else (d.wrs [(F.TB_CTRL_EN, 0), (F.TB_CTRL_SRC, d.rd F.TB_CTRL_SRC), (F.TB_STATUS_ACQUIRED, 0)]).enterLost
  else
    let d := d.wr F.TB_CTRL_SRC (bits v 1 2)
    if bits v 0 1 = 1 then d.tbEnable else d

/-- TB_EN_WRITE (R391): a write of TB_CTRL. -/
def execTbEnWrite (t : Nat) (req : Requester) (val : Nat) (s : State) : Res := s.devReg req 0x900000 fun d => (d.tbTo t).tbCtrl val

/-- A write of TB_HOST_STEP (R392, R411). -/
def Dev.hostStep (d : Dev) (v : Nat) : Dev :=
  if d.tbOn 3 && !d.is F.TB_CTRL_LOCK && v ≤ 2 ^ 63 then d.stepPos .host (d.tb.p + v) else d

/-- HOST_STEP (R392). -/
def execHostStep (t : Nat) (req : Requester) (step : Nat) (s : State) : Res := s.devReg req 0x900038 fun d => (d.tbTo t).hostStep (step % 2 ^ 64)

/-! ### Firing (R402, R405–R407) -/

/-- ALARM_FIRE (R402, R405): after the gate edges and verdict writes that are due. -/
def execAlarmFire (t slot : Nat) (s : State) : Res := s.nextPeri fun d => (d.tbTo t).gatesDue.verdictsDue.alarmDue slot

/-- VERDICT_UPDATE (R405): every pending write whose position has been reached, after the gate edges that are due. -/
def execVerdictUpdate (t : Nat) (s : State) : Res := s.nextPeri fun d => (d.tbTo t).gatesDue.verdictsDue

/-- GATE_EDGE (R406). In LOST only the second edges of pulses with OFF_MODE 0 are placed (R396). -/
def execGateEdge (t g : Nat) (s : State) : Res := s.nextPeri fun d =>
  let d := d.tbTo t
  if 4 ≤ g then d
  else if d.qual = 2 then
    let out := (d.gate g).filter fun e => e.active && !e.byPos && decide (e.endT ≤ d.tb.now)
    (d.setGate g ((d.gate g).filter fun e => !(e.active && !e.byPos && decide (e.endT ≤ d.tb.now)))).gateEnds out
      fun e => if e.late then 3 else 0
  else d.gateStep g

/-- WAIT_POSITION_REACHED (R402, R405): after the gate edges, verdict writes and alarms that are due. -/
def execWaitPositionReached (t q : Nat) (s : State) : Res := s.nextPeri fun d =>
  let d := (d.tbTo t).gatesDue.verdictsDue.alarmsDue
  match fget d.tb.waits q with
  | some x => if reached d.tb.p x && d.qual != 2 then d.endWait q 0 else d
  | none => d

/-- TB_PULSE_START (R407). -/
def execTbPulseStart (t : Nat) (s : State) : Res := s.nextPeri fun d =>
  (d.tbTo t).pulse

/-- TB_PULSE_END (R407): the output falls when the last pulse ends. -/
def execTbPulseEnd (t : Nat) (s : State) : Res := s.nextPeri fun d =>
  let d := d.tbTo t
  { d with tb := { d.tb with pulseEnds := d.tb.pulseEnds.filter fun e => decide (d.tb.now < e) } }

/-! ### Scheduled commands (R251, R400, R401, R403, R404) -/

/-- A command whose position has already been reached at its acceptance counts as one step (R400): it fires late or is dropped. -/
def Dev.lateOr (d : Dev) (q seq : Nat) (f : Dev → Dev) : Dev :=
  if d.is F.TB_CFG_LATE_POLICY then (d.dropped 1).tbEnd q seq 4 0 else f d.countLate

/-- WAIT_POSITION (R251). -/
def execWaitPosition (q t : Nat) (s : State) : Res := s.nextCore fun d => d.goHead q 0x10 fun d x =>
  let d := d.tbTo t
  let r := d.take q x
  let pos := dfld x 8 0 64
  if reached d.tb.p pos then (r.1.countLate).complete q r.2 3 d.posData
  else { r.1 with tb := { r.1.tb with waits := fset r.1.tb.waits q pos } }

/-- AT_POSITION (R251). -/
def execAtPosition (q t : Nat) (s : State) : Res := s.nextCore fun d => d.goHead q 0x11 fun d x =>
  let d := d.tbTo t
  let r := d.take q x
  let a : Alarm := { pos := dfld x 8 0 64, sem := dfld x 18 0 12, value := dfld x 20 0 32, ctx := d.qctx q, q := q, seq := r.2.seq }
  if reached d.tb.p a.pos then r.1.lateOr q r.2.seq fun d => d.fireAlarm a 3
  else { r.1 with tb := { r.1.tb with alarms := fset r.1.tb.alarms (dfld x 16 0 6) a } }

/-- VERDICT_WRITE (R403, R404). -/
def execVerdictWrite (q t : Nat) (s : State) : Res := s.nextCore fun d => d.goHead q 0x12 fun d x =>
  let d := d.tbTo t
  let w := dfld x 16 0 10
  let v := dfld x 18 0 12
  if !d.is (F.VP_BLOCK_EN (w / 64)) || d.rd (F.VP_BLOCK_CTX (w / 64)) != d.qctx q then d.reject q x 0x82
  else if dfld x 20 0 1 = 1 then
    let r := d.take q x
    (r.1.putWord w v d.verdictQual).complete q r.2 0 d.posData
  else
    let e (i : Nat) : VEntry := { pos := dfld x 8 0 64, word := w, value := v, ctx := d.qctx q, q := q, seq := i }
    if reached d.tb.p (dfld x 8 0 64) then
      let r := d.take q x
      r.1.lateOr q r.2.seq fun d => d.fireVerdicts [e r.2.seq] 4 3
    else if 256 ≤ d.tb.verdicts.length then d.blockAs q 9
    else
      let r := d.take q x
      { r.1 with tb := { r.1.tb with verdicts := r.1.tb.verdicts ++ [e r.2.seq] } }

/-- Whether the OFF of a GATE_ARM is good (R404). -/
def gateOffOk (x : Desc) : Bool :=
  let on := dfld x 8 0 64
  let off := dfld x 16 0 64
  if dfld x 24 2 1 = 0 then off != 0
  else
    let n := (off + 2 ^ 64 - on) % 2 ^ 64
    decide (65536 ≤ n) && decide (n ≤ 2 ^ 63)

/-- GATE_ARM (R404, R406). -/
def execGateArm (q t : Nat) (s : State) : Res := s.nextCore fun d => d.goHead q 0x13 fun d x =>
  let d := d.tbTo t
  let g := dfld x 24 0 2
  if !d.is (F.TB_GATE_CFG_EN g) || d.rd (F.TB_GATE_CFG_CTX g) != d.qctx q then d.reject q x 0x82
  else if !gateOffOk x then d.reject q x 0x85
  else if 16 ≤ (d.gate g).length then d.blockAs q 9
  else
    let r := d.take q x
    let e : GEntry := { pos := dfld x 8 0 64, byPos := dfld x 24 2 1 == 1, off := dfld x 16 0 64, ctx := d.qctx q, q := q, seq := r.2.seq }
    if reached d.tb.p e.pos then
      r.1.lateOr q r.2.seq fun d =>
        let y := d.gateOn e true
        let y := if e.byPos && reached d.tb.p e.off then
            { y with byPos := false, endT := d.tb.now + 100 * d.rd (F.TB_GATE_CFG_LATE_W g) } else y
        d.setGate g (d.gate g ++ [y])
    else r.1.setGate g (r.1.gate g ++ [e])

/-! ### The verdict port (R408, R409) -/

/-- A write of VP_CTRL.CLEAR = 1 (R408, R411). -/
def Dev.verdictClear (d : Dev) : Dev :=
  if d.is F.TB_CTRL_LOCK then d else { d with regs := d.regs.filter fun e => !(decide (0x901000 ≤ e.1 / 64) && decide (e.1 / 64 < 0x902000)) }

/-- VERDICT_CLEAR (R408). -/
def execVerdictClear (s : State) (req : Requester := .host 0) : Res := s.devReg req 0x900100 Dev.verdictClear

/-- VP_READ_CYCLE (R409): the levels change whether or not the port has its supply; a capture follows where it has. -/
def execVpReadCycle (a : Nat) (csN oeN : Bool) (s : State) : Res := s.nextDev fun d =>
  { d with vp := { d.vp with a := a % 1024, csN := csN, oeN := oeN, capturing := s.periRuns } }

/-- VP_CAPTURE (R409). -/
def execVpCapture (s : State) : Res := s.nextPeri fun d =>
  if d.vp.capturing then { d with vp := { d.vp with capturing := false, word := d.rd (F.VP_TABLE_WORD d.vp.a) } } else d

end Sys2Proof.Machine
end

