-- ==== Sys2Proof/Machine/Pair.lean ====
section
/-! DEFINITION. The cufflink pair (chapter 22). -/

namespace Sys2Proof.Machine

/-- Changes the pair controller beside its registers. -/
def Dev.onPair (d : Dev) (f : Pair → Pair) : Dev := { d with pair := f d.pair }

/-! ### Roles (R495–R499) -/

/-- Whether port 3 can carry pair messages: UP, and the pair not asleep (R509). -/
def Dev.pairLink (d : Dev) : Bool := d.isPair && d.portState 3 == 2 && !d.is F.PAIR_STATUS_ASLEEP

/-- Sends a pair message over port 3 (R511). -/
def Dev.pairSend (d : Dev) (mtype arg : Nat) (bytes : List Byte) : Dev :=
  d.sendOn 3 0 { mtype := mtype, src := d.chip, dst := d.rd (F.CLS_PORT_STAT_PEER 3), tag := 0, sctx := 0, offset := 0, arg := arg,
                 data := bytes, len := bytes.length - 1 }

/-- The identity of this member (R499). -/
def Dev.ident (d : Dev) : Ident :=
  { gen := d.rd F.BOOT_GEN_GENERATION, step := d.rd F.GLB_ID_STEP, recipe := (d.boot.loaded.getD (0, 0)).1,
    ocrc := (d.boot.loaded.getD (0, 0)).2, loaded := d.boot.loaded.isSome }

/-- Whether two identities are equal (R499). -/
def Ident.same (a b : Ident) : Bool :=
  a.gen == b.gen && a.step == b.step && a.loaded == b.loaded && (!a.loaded || (a.recipe == b.recipe && a.ocrc == b.ocrc))

/-- The 16 bytes of an identity; the layout is private to the device (R511). -/
def Ident.bytes (i : Ident) : List Byte :=
  toBytes 4 i.gen ++ toBytes 4 (i.step + if i.loaded then 2 ^ 31 else 0) ++ toBytes 4 i.recipe ++ toBytes 4 i.ocrc

/-- Sends HELLO (R497, R511). -/
def Dev.helloSend (d : Dev) : Dev := if d.pairLink then d.pairSend 0x20 d.role d.ident.bytes else d

/-- The queues of context 0 that are not DISABLED. -/
def Dev.standQueues (d : Dev) : List Nat := d.queuesOf 0

/-- Holds the context-0 queues from fetching and issue, or lets them go on (R500, R507). -/
def Dev.holdQueues (d : Dev) (on : Bool) : Dev :=
  d.standQueues.foldl (fun d q => d.setQueue q { d.queue q with pairHold := on }) d

/-- The role changes (R495): interrupt source 69 and event ROLE; the queues run only in ACTIVE and SINGLE. -/
def Dev.setRole (d : Dev) (r : Nat) : Dev :=
  let old := d.role
  if old = r then d
  else
    let d := (d.wr F.PAIR_STATUS_ROLE r).holdQueues (r != 2)
    let d := { d with tb := { d.tb with driving := true } }
    (d.irq 69).postInfo 42 0x1A00 (old + 256 * r)

/-! ### Commits (R501, R502) -/

/-- The ring index at which queue `q` would resume (R501). -/
def Dev.resumeIdx (d : Dev) (q : Nat) : Nat := ((d.queue q).issued.head?.map (·.idx)).getD (d.rd (F.Q_HEAD_HEAD q))

/-- Captures what WHAT selects, and the pointers of the queues of a mask (R501). -/
def Dev.capture (d : Dev) (what qmask : Nat) : Commit :=
  let b := d.tb
  let ptr (q : Nat) : Nat × Nat × Nat × Nat × Nat :=
    (q, d.resumeIdx q, d.rd (F.Q_TAIL_TAIL q), d.rd (F.Q_CPL_TAIL_TAIL q), d.rd (F.Q_CPL_TAIL_PHASE q))
  { seq := d.pair.nextSeq, what := what,
    words := if what.testBit 0 then (List.range 1024).map fun i => (i, d.rd (F.VP_TABLE_WORD i)) else [],
    blocks := if what.testBit 0 then listMask ((List.range 16).filter fun i => d.is (F.VP_BLOCK_EN i)) else 0,
    p := twos 64 b.p, n := twos 64 b.n, ofs := b.ofs, v := twos 64 d.vel, quality := d.qual, acquired := d.is F.TB_STATUS_ACQUIRED,
    ptrs := if what.testBit 2 then (maskList 64 qmask).map ptr else [] }

/-- Pieces of at most 256 bytes. -/
def parts256 : Nat → List Byte → List (List Byte)
  | 0, _ => []
  | n + 1, bs => if bs.isEmpty then [] else bs.take 256 :: parts256 n (bs.drop 256)

/-- The MIRROR parts of a commit: 9 for the verdict table, 1 for the position state, and those of the queue pointers (R511). Their
layout is private to the device. -/
def Commit.parts (c : Commit) : List (List Byte) :=
  let verdict := c.words.flatMap (fun w => toBytes 2 w.2) ++ toBytes 2 c.blocks
  let pos := toBytes 8 c.p ++ toBytes 8 c.n ++ toBytes 8 (twos 64 c.ofs) ++ toBytes 8 c.v ++ toBytes 8 (c.quality + if c.acquired then 256 else 0)
  let ptrs := c.ptrs.flatMap fun x => toBytes 2 x.2.1 ++ toBytes 2 x.2.2.1 ++ toBytes 2 x.2.2.2.1 ++ toBytes 1 x.2.2.2.2 ++ toBytes 1 x.1
  (if c.what.testBit 0 then parts256 9 verdict else []) ++ (if c.what.testBit 1 then [pos] else []) ++
    (if c.what.testBit 2 then parts256 2 ptrs else [])

/-- The commit that staged parts give; none where a part is not intact. -/
def Commit.ofParts (seq what : Nat) (ps : List (List Byte)) : Option Commit :=
  let nv := if what.testBit 0 then 9 else 0
  let np := if what.testBit 1 then 1 else 0
  let v := (ps.take nv).flatten
  let pos := ((ps.drop nv).take np).flatten
  let q := (ps.drop (nv + np)).flatten
  let ptr (k : Nat) : Nat × Nat × Nat × Nat × Nat :=
    (bytesAt q (8 * k + 7) 1, bytesAt q (8 * k) 2, bytesAt q (8 * k + 2) 2, bytesAt q (8 * k + 4) 2, bytesAt q (8 * k + 6) 1)
  if v.length == (if nv = 0 then 0 else 2050) && pos.length == 40 * np && q.length % 8 == 0 && (what.testBit 2 || q.isEmpty) then
    some { seq := seq, what := what, words := if nv = 0 then [] else (List.range 1024).map fun i => (i, bytesAt v (2 * i) 2),
           blocks := bytesAt v 2048 2, p := bytesAt pos 0 8, n := bytesAt pos 8 8, ofs := signed 64 (bytesAt pos 16 8),
           v := bytesAt pos 24 8, quality := bytesAt pos 32 1, acquired := bytesAt pos 33 1 == 1,
           ptrs := (List.range (q.length / 8)).map ptr }
  else none

/-- Ships a captured commit for queue `q`: the MIRROR messages and MIRROR_END (R501, R511). -/
def Dev.ship (d : Dev) (q n : Nat) (c : Commit) : Dev :=
  let ps := c.parts
  let d := (List.range ps.length).foldl (fun d k => d.pairSend 0x22 (c.seq + k * 2 ^ 32) (ps.getD k [])) d
  (d.pairSend 0x23 (c.seq + c.what * 2 ^ 32 + ps.length * 2 ^ 40) []).onPair fun p => { p with
    commit := some (q, n, c), nextSeq := (p.nextSeq + 1) % 2 ^ 32 }

/-- The mask of the context-0 queues. -/
def Dev.standMask (d : Dev) : Nat := listMask d.standQueues

/-- Ships a full mirror (R497), unless a commit is in progress. -/
def Dev.fullMirror (d : Dev) : Dev :=
  if d.pairLink && d.pair.commit.isNone then d.ship 64 0 (d.capture 7 d.standMask) else d

/-- MIRROR_COMMIT (R496, R501). -/
def execMirrorCommit (q t : Nat) (s : State) : Res := s.nextCore fun d => d.goHead q 0x51 fun d x =>
  let what := dfld x 8 0 3
  let mask := dfld x 16 0 64
  if !d.isPair then d.reject q x 0xF
  else if d.qctx q != 0 then d.reject q x 0x89
  else if (maskList 64 mask).any fun k => d.qctx k != 0 then d.reject q x 0x82
  else if d.role != 2 || d.pair.peerRole != 3 || !d.pairLink then d.reject q x 0xF
  else if d.pair.commit.isSome then d
  else
    let c := (d.tbTo t).capture what mask
    let r := (d.tbTo t).take q x
    r.1.ship q r.2.seq c

/-- MIRROR_ACK (R502, R507). -/
def execMirrorAck (commit : Nat) (s : State) : Res := s.nextPeri fun d =>
  match d.pair.commit with
  | some (q, n, c) =>
    if c.seq != commit then d
    else
      let d := (d.onPair fun p => { p with commit := none, dirty := [] }).wr F.PAIR_COMMIT_SEQ commit
      if q < 64 then
        match d.bySeq q n with
        | some i => d.complete q i 0
        | none => d
      else if q = 65 then
        ((d.setRole 3).onPair fun p => { p with switching := 0, peerRole := 2 }).wrs [(F.PAIR_CMD_BUSY, 0), (F.PAIR_CMD_RESULT, 0)]
      else d
  | none => d

/-- The commit in progress, if any, is not acknowledged (R502, R507): LINK_FAIL; a switchover is undone. -/
def Dev.commitLost (d : Dev) : Dev :=
  match d.pair.commit with
  | some (q, n, _) =>
    let d := d.onPair fun p => { p with commit := none }
    if q < 64 then
      match d.bySeq q n with
      | some i => d.complete q i 0xE
      | none => d
    else if q = 65 then
      let d := ({ d with tb := { d.tb with driving := true } }.holdQueues false).onPair fun p => { p with switching := 0 }
      d.wrs [(F.PAIR_CMD_BUSY, 0), (F.PAIR_CMD_RESULT, 3)]
    else d
  | none => d

/-- MIRROR_ACK_TIMEOUT (R502, R507). -/
def execMirrorAckTimeout (s : State) : Res := s.nextPeri Dev.commitLost

/-- MIRROR (R502): the standby stages a part; a new commit number discards the parts of another. -/
def execMirror (commit part : Nat) (bytes : List Byte) (s : State) : Res := s.nextPeri fun d =>
  if d.role != 3 then d
  else d.onPair fun p =>
    { p with stagedSeq := commit, staged := fset (if p.stagedSeq = commit then p.staged else []) part bytes }

/-! ### Drift (R503, R504) -/

/-- ΔP in the units of P, for a partner that was at `p` with velocity `v` when it sent. -/
def Dev.drift (d : Dev) (p : Nat) (v : Int) : Int := posDiff d.tb.p p - travel v (d.rd F.PAIR_STATUS_LAT)

/-- The guard in the units of P. -/
def Dev.guard (d : Dev) (v : Int) : Int :=
  one * max (d.rd F.PAIR_GUARD_CNT : Int) ((v * d.rd F.PAIR_GUARD_NS).fdiv (2 ^ 32))

/-- The standby corrects its own position with E = −ΔP, as a return (R398, R503); a disabled timebase stays frozen (R391). -/
def Dev.pairCorrect (d : Dev) (dp : Int) : Dev := if d.is F.TB_CTRL_EN then (d.setQual 3).reference (d.tb.p - dp) else d

/-- The drift rule for a mirrored position: whether ΔP exceeds the guard (R503). -/
def Dev.driftStep (d : Dev) (p : Nat) (v : Int) : Dev × Bool :=
  let dp := d.drift p v
  let far := decide (d.guard v < dp.natAbs)
  let d := d.wr F.PAIR_DRIFT_DP (twos 64 dp)
  (if far then d.pairCorrect dp else d, far)

/-- MIRROR_END (R502): the commit is applied when every part is staged, and acknowledged; else it is discarded. -/
def execMirrorEnd (t commit what parts : Nat) (s : State) : Res := s.nextPeri fun d =>
  let ps := (List.range parts).map fun k => fget d.pair.staged k
  let whole := d.pair.stagedSeq == commit && ps.all Option.isSome
  let c := if whole || parts == 0 then Commit.ofParts commit what (ps.map fun x => x.getD []) else none
  if d.role != 3 then d
  else
    let d := d.onPair fun p => { p with staged := [], stagedSeq := 0 }
    match c with
    | none => d
    | some c =>
      let d := d.tbTo t
      let d := d.wrs ((List.map (fun w : Nat × Nat => (F.VP_TABLE_WORD w.1, w.2)) c.words))
      let d := if what.testBit 0 then d.wrs ((List.range 16).map fun i => (F.VP_BLOCK_EN i, if c.blocks.testBit i then 1 else 0)) else d
      let old := (d.pair.applied.map (·.ptrs)).getD []
      let d := d.onPair fun p => { p with applied := some { c with ptrs := if what.testBit 2 then c.ptrs else old } }
      let d := if what.testBit 1 then (d.driftStep c.p (signed 64 c.v)).1 else d
      (d.wr F.PAIR_COMMIT_SEQ commit).pairSend 0x24 commit []

/-! ### Becoming active, and giving way (R505, R508) -/

/-- Rewrites verdict words with quality RESYNC: value kept, TOGGLE inverted (R505, R508, R510). -/
def Dev.resyncWords (d : Dev) (ws : List Nat) : Dev := ws.foldl (fun d i => d.putWord i (d.rd (F.VP_TABLE_WORD i) % 4096) 5) d

/-- The words of the enabled verdict blocks, 64 words each. -/
def Dev.blockWords (d : Dev) : List Nat := (List.range 1024).filter fun i => d.is (F.VP_BLOCK_EN (i / 64))

/-- The queues of context 0 are released at the pointers of the last applied commit, or their initial ones (R505). -/
def Dev.releaseQueues (d : Dev) : Dev :=
  let ptrs := (d.pair.applied.map (·.ptrs)).getD []
  let tailOf (q : Nat) : Nat :=
    ((d.boot.image.standing.bind fun s => s.queues.find? fun e => e.queue == q).map (·.tail)).getD 0
  d.standQueues.foldl (fun d q =>
    let x : Nat × Nat × Nat × Nat := (List.lookup q ptrs).getD (0, tailOf q, 0, 1)
    (d.setQueue q {}).wrs [(F.Q_HEAD_HEAD q, x.1), (F.Q_TAIL_TAIL q, x.2.1), (F.Q_CPL_TAIL_TAIL q, x.2.2.1), (F.Q_CPL_TAIL_PHASE q, x.2.2.2)]) d

/-- Armed timebase events are discarded without completion records (R507, R508). -/
def Dev.dropArmed (d : Dev) : Dev :=
  let isTb : Issued → Bool := fun i => 0x10 ≤ dOp i.d && dOp i.d ≤ 0x13
  let d := { d with tb := { d.tb with waits := [], alarms := [], verdicts := [], gates := [] } }
  d.standQueues.foldl (fun d q => d.setQueue q { d.queue q with issued := (d.queue q).issued.filter fun i => !isTb i }) d

/-- The verdict table and the queue state are discarded (R508, R510). -/
def Dev.dropMirror (d : Dev) : Dev :=
  let d := d.wrs ((List.range 1024).map fun i => (F.VP_TABLE_WORD i, 0))
  let d := d.onPair fun p => { p with applied := none, staged := [], stagedSeq := 0 }
  d.standQueues.foldl (fun d q => (d.unlease q (d.rd (F.Q_LEASE_L q))).setQueue q { pairHold := true }) d

/-- TAKEOVER (R505). -/
def execTakeover (t : Nat) (s : State) : Res := s.nextPeri fun d =>
  if d.role != 3 || !d.is F.PAIR_CFG_AUTO || d.is F.PAIR_STATUS_ASLEEP then d
  else
    let d := (d.tbTo t).setRole 2
    let d := (d.sat F.PAIR_CNT_TAKEOVERS).postInfo 42 0x1A01 (d.rd F.PAIR_COMMIT_SEQ)
    let d := (d.onPair fun p => { p with peerRole := 1, staged := [], stagedSeq := 0 }).wr F.PAIR_STATUS_PARTNER_UP 0
    (d.resyncWords d.blockWords).releaseQueues

/-- PARTNER_LOST (R505). -/
def execPartnerLost (s : State) : Res := s.nextPeri fun d =>
  if d.role != 2 || d.is F.PAIR_STATUS_ASLEEP || d.is F.PAIR_STATUS_PARTNER_LOST then d
  else
    let d := (d.onPair fun p => { p with peerRole := 1 }).wrs [(F.PAIR_STATUS_PARTNER_LOST, 1), (F.PAIR_STATUS_PARTNER_UP, 0)]
    d.postInfo 42 0x1A05 (d.rd F.PAIR_COMMIT_SEQ)

/-- ALONE_EXPIRE (R497): a member in PAIRING whose port 3 has not come UP after stage DONE or NO_IMAGE becomes ACTIVE. -/
def execAloneExpire (s : State) : Res := s.nextPeri fun d =>
  let st := d.rd F.BOOT_STATUS_STAGE
  if d.role == 1 && (st == 7 || st == 8) && d.portState 3 != 2 then d.setRole 2 else d

/-- Both members claim ACTIVE (R508): the lower chip ID stays, rewrites what it has updated and ships a full mirror; the other gives
way. -/
def Dev.split (d : Dev) (peer : Nat) : Dev :=
  let d := (d.sat F.PAIR_CNT_SPLITS).postInfo 42 0x1A02 peer
  if d.chip < peer then ((d.commitLost.resyncWords d.pair.dirty).onPair fun p => { p with peerRole := 3, dirty := [] }).fullMirror
  else ((d.dropArmed.setRole 3).dropMirror).onPair fun p => { p with peerRole := 2, commit := none, dirty := [] }

/-! ### HELLO and HEARTBEAT (R497, R499, R505) -/

/-- The member becomes STANDBY, or MISMATCH where the identities differ (R497, R499). -/
def Dev.toStandby (d : Dev) (peer : Ident) : Dev :=
  if d.ident.same peer then d.setRole 3
  else if d.role = 5 then d else (d.setRole 5).postInfo 42 0x1A04 peer.gen

/-- The active member finds its partner in STANDBY, or about to be (R497): a full mirror. -/
def Dev.gainStandby (d : Dev) (peer : Ident) : Dev :=
  if d.ident.same peer then (d.onPair fun p => { p with peerRole := 3 }).fullMirror else d.onPair fun p => { p with peerRole := 5 }

/-- Wake beyond the guard, on the active member (R510). No message of the table carries ΔP to it, so its DATA is a free value (log entry
46). -/
def Dev.wakeResync (d : Dev) : Dev :=
  let ws := d.pair.dirtySleep
  let (dp, d) := d.fresh
  let d := (d.sat F.PAIR_CNT_RESYNCS).postInfo 42 0x1A03 dp
  ((d.commitLost.resyncWords ws).onPair fun p => { p with wakePending := false, posDone := false, dirtySleep := [] }).fullMirror

/-- The pair is awake again: PAIR_CMD WAKE completes. -/
def Dev.wakeDone (d : Dev) : Dev :=
  if d.is F.PAIR_CMD_BUSY && d.rd F.PAIR_CMD_OP == 2 then d.wrs [(F.PAIR_CMD_BUSY, 0), (F.PAIR_CMD_RESULT, 0)] else d

/-- Resolution on a HELLO (R497, R508, R510). -/
def Dev.resolve (d : Dev) (role peer : Nat) (x : Ident) : Dev :=
  match d.role with
  | 1 =>
    if role = 2 then d.toStandby x
    else if role = 1 then (if d.chip < peer then (d.setRole 2).gainStandby x else d.toStandby x)
    else d
  | 2 =>
    if role = 2 then d.split peer
    else if d.pair.wakePending then (if role = 3 && d.pair.posDone then d.wakeResync else d)
    else if role = 1 then (d.helloSend).gainStandby x
    else if role = 3 && d.pair.peerRole != 3 then d.gainStandby x
    else d.onPair fun p => { p with peerRole := role }
  | 3 =>
    let d := d.toStandby x
    if d.pair.wakePending && d.role == 3 then d.pairSend 0x25 0 [] else d
  | 5 => if role = 2 || role = 1 then d.toStandby x else d
  | _ => d

/-- HELLO (R497, R499). -/
def execHello (role chipId gen step recipe ocrc : Nat) (loaded : Bool) (s : State) : Res := s.nextPeri fun d =>
  if !d.isPair || d.role == 4 then d
  else
    let x : Ident := { gen := gen, step := step, recipe := recipe, ocrc := ocrc, loaded := loaded }
    let d := (d.onPair fun p => { p with peer := some x }).wrs
      ((F.PAIR_STATUS_PARTNER_ID, chipId) :: (List.range 4).map fun j => (F.PAIR_PEER_DATA j, bytesAt x.bytes (4 * j) 4))
    (d.resolve role chipId x).wakeDone

/-- HEARTBEAT (R505, R508). -/
def execHeartbeat (role commit : Nat) (s : State) : Res := s.nextPeri fun d =>
  let _ := commit
  if !d.isPair || d.role == 4 || d.is F.PAIR_STATUS_ASLEEP then d
  else
    let d := d.wrs [(F.PAIR_STATUS_PARTNER_UP, 1), (F.PAIR_STATUS_PARTNER_LOST, 0)]
    if role = 2 && d.role == 2 then d.split (d.rd F.PAIR_STATUS_PARTNER_ID)
    else
      let was := d.pair.peerRole
      let d := if d.pair.wakePending && d.pair.posDone then d.onPair fun p => { p with wakePending := false, posDone := false } else d
      let d := d.onPair fun p => { p with peerRole := role }
      if d.role == 2 && role = 3 && was != 3 then d.fullMirror else d

/-- HEARTBEAT_SEND (R505). -/
def execHeartbeatSend (s : State) : Res := s.nextPeri fun d =>
  if d.pairLink && d.role != 4 then d.pairSend 0x21 (d.role + d.rd F.PAIR_COMMIT_SEQ * 2 ^ 32) [] else d

/-! ### Positions (R503, R504, R510) -/

/-- POS_REQ (R504): answered with P and v. -/
def execPosReq (t : Nat) (s : State) : Res := s.nextPeri fun d =>
  if !d.pairLink then d
  else
    let d := d.tbTo t
    (d.onPair fun p => { p with posDone := p.wakePending }).pairSend 0x26 0 (toBytes 8 (twos 64 d.tb.p) ++ toBytes 4 (twos 32 d.vel))

/-- POS (R503, R504, R510): LAT is half the round trip; at a wake ΔP decides whether the pair resumes or resynchronises. -/
def execPos (t rttNs p v : Nat) (s : State) : Res := s.nextPeri fun d =>
  if d.role != 3 then d
  else
    let d := (d.tbTo t).wr F.PAIR_STATUS_LAT (rttNs / 2)
    if !d.pair.wakePending then d
    else
      let r := d.driftStep (p % 2 ^ 64) (signed 32 v)
      let d := r.1.onPair fun x => { x with wakePending := false }
      if r.2 then
        let d := (d.sat F.PAIR_CNT_RESYNCS).postInfo 42 0x1A03 (d.rd F.PAIR_DRIFT_DP)
        d.dropMirror.helloSend
      else d

/-- POS_EXCHANGE_TIMER (R504). -/
def execPosExchangeTimer (s : State) : Res := s.nextPeri fun d => if d.role == 3 && d.pairLink then d.pairSend 0x25 0 [] else d

/-! ### Switchover (R507) -/

/-- A PAIR_CMD operation (R507, R509, R512): 0 SWITCHOVER, 1 SLEEP, 2 WAKE. In a SINGLE member it has no effect (R496). -/
def Dev.pairCmd (d : Dev) (op : Nat) : Dev :=
  let asleep := d.is F.PAIR_STATUS_ASLEEP
  let stop (d : Dev) (r : Nat) : Dev := d.wrs [(F.PAIR_CMD_BUSY, 0), (F.PAIR_CMD_RESULT, r)]
  if d.is F.PAIR_CMD_BUSY || !d.isPair || 3 ≤ op then d
  else
    let d := d.wrs [(F.PAIR_CMD_OP, op), (F.PAIR_CMD_BUSY, 1)]
    match op with
    | 0 =>
      if d.role != 2 || asleep then stop d 1
      else if d.pair.peerRole != 3 then stop d 2
      else (d.holdQueues true).onPair fun p => { p with switching := 1 }
    | 1 =>
      if asleep || !(d.role == 2 || d.role == 3) then stop d 1
      else if d.portState 3 != 2 then stop d 2
      else d.pairSend 0x28 0 []
    | _ =>
      if !asleep then stop d 1
      else ((d.wrs [(F.PAIR_STATUS_ASLEEP, 0), (F.CLS_PORT_STAT_STATE 3, 3)]).onPair fun p => { p with wakePending := true, posDone := false })

/-- SWITCHOVER. -/
def execSwitchover (s : State) (req : Requester := .host 0) : Res := s.devReg req 0xC00014 fun d => d.pairCmd 0

/-- SWITCHOVER_CAPTURE (R507): once no GATE is in an active pulse, the commit of everything is captured and shipped, then RELEASE; the
outputs are no longer driven, and armed events are discarded. -/
def execSwitchoverCapture (t : Nat) (s : State) : Res := s.nextPeri fun d =>
  if d.pair.switching != 1 || (List.range 4).any (fun g => (d.gate g).any (·.active)) || d.pair.commit.isSome then d
  else
    let d := d.tbTo t
    let c := d.capture 7 d.standMask
    let d := { d with tb := { d.tb with driving := false } }.dropArmed
    ((d.ship 65 0 c).pairSend 0x27 c.seq []).onPair fun p => { p with switching := 2 }

/-- RELEASE (R507): the standby becomes ACTIVE on the applied commit. -/
def execRelease (t commit : Nat) (s : State) : Res := s.nextPeri fun d =>
  if d.role != 3 || !(d.pair.applied.any fun c => c.seq == commit) then d
  else (((d.tbTo t).setRole 2).onPair fun p => { p with peerRole := 3 }).releaseQueues

/-! ### Sleep and wake (R509, R510) -/

/-- PAIR_SLEEP. -/
def execPairSleep (s : State) (req : Requester := .host 0) : Res := s.devReg req 0xC00014 fun d => d.pairCmd 1

/-- SLEEP_MESSAGE (R509): both members are asleep once the acknowledgement is sent and received. -/
def execSleepMessage (ack : Bool) (s : State) : Res := s.nextPeri fun d =>
  if !d.pairLink || !(d.role == 2 || d.role == 3) then d
  else
    let sleep (d : Dev) : Dev := (d.onPair fun p => { p with dirtySleep := [] }).wr F.PAIR_STATUS_ASLEEP 1
    if !ack then sleep (d.pairSend 0x28 1 [])
    else if d.is F.PAIR_CMD_BUSY && d.rd F.PAIR_CMD_OP == 1 then (sleep d).wrs [(F.PAIR_CMD_BUSY, 0), (F.PAIR_CMD_RESULT, 0)]
    else d

/-- PAIR_WAKE. -/
def execPairWake (s : State) (req : Requester := .host 0) : Res := s.devReg req 0xC00014 fun d => d.pairCmd 2

/-- Port 3 is UP (R497, R509): the training has woken a sleeping member, and HELLO goes out. -/
def Dev.pairUp (d : Dev) : Dev :=
  let d := if d.is F.PAIR_STATUS_ASLEEP then (d.onPair fun p => { p with wakePending := true, posDone := false }).wr F.PAIR_STATUS_ASLEEP 0 else d
  d.helloSend

/-- Port 3 is FAILED (R497): SAME_ID and PAIR_MISMATCH halt a member in PAIRING. -/
def Dev.pairFailed (d : Dev) (reason : Nat) : Dev := if d.role == 1 && (reason == 2 || reason == 4) then d.setRole 4 else d

/-- The identity of this member, or the state of its standalone start, has changed (R497, R499): HELLO, and a MISMATCH member returns
to resolution. -/
def Dev.pairIdent (d : Dev) : Dev :=
  if !d.isPair then d
  else
    let d := if d.role = 5 then d.setRole 1 else d
    let d := match d.role, d.pair.peer with
      | 3, some x => d.toStandby x
      | _, _ => d
    d.helloSend

end Sys2Proof.Machine
end

