-- ==== Sys2Proof/Machine/Clasp.lean ====
section
/-! DEFINITION. The clasp links: ports, flits, messages, windows and barriers (chapter 21, R205–R207). -/

namespace Sys2Proof.Machine

/-! ### Ports (R476, R477, R492) -/

/-- The contexts whose outstanding or waiting requests go through port `p`, each with its request's address. -/
def Dev.reqsOn (d : Dev) (p : Nat) : List CReq :=
  (d.cls.reqs.map (·.2) ++ d.cls.waiting.map (·.1)).filter fun r => d.route r.dst == some p

/-- A local barrier that waits ends with status `st` (R488, R489): DATA0 holds the members that have arrived. -/
def Dev.barEnd (d : Dev) (b st : Nat) (entry : Barrier) : Dev :=
  let x := d.bar b
  match x.wait with
  | none => d
  | some (q, n, _) =>
    let mask := d.barMask b
    let d := d.setBar b entry
    match d.bySeq q n with
    | some i => d.complete q i st mask
    | none => d

/-- The barriers that wait for a member whose route uses port `p` complete with LINK_FAIL (R489, R492). -/
def Dev.barsLost (d : Dev) (p : Nat) : Dev :=
  let lost (x : Barrier) : Bool := x.wait.any fun w => (maskList 16 w.2.2).any fun c => c != d.chip && d.route c == some p
  (List.filter (fun b : Nat × Barrier => lost b.2) d.cls.bars).foldl (fun d b => d.barEnd b.1 0xE (d.bar b.1).abandoned) d

/-- Port `p` is FAILED or disabled: contexts with requests outstanding through it are killed with CLASP_LINK (R492). -/
def Dev.portLost (d : Dev) (p : Nat) : Dev :=
  let rs := d.reqsOn p
  let gone (r : CReq) : Bool := rs.contains r
  let d := { d with cls := { d.cls with reqs := List.filter (fun e : Nat × CReq => !gone e.2) d.cls.reqs,
                                        waiting := d.cls.waiting.filter fun e => !gone e.1 } }
  let d := d.setPort p {}
  let d := rs.foldl (fun d r => d.kill { c := r.ctx, cause := 0x18, src := 38 + p, addr := r.addr }) d
  d.barsLost p

/-- A write of CLS_PORT_CFG of port `p` (R476, R477, R494): RATE and WIDTH limits only while it is DISABLED or FAILED; EN starts
training, or disables the port. -/
def Dev.portCfg (d : Dev) (p v : Nat) : Dev :=
  let st := d.portState p
  let d := if st = 0 || st = 4 then d.wrs [(F.CLS_PORT_CFG_MAXRATE p, bits v 1 1), (F.CLS_PORT_CFG_MINWIDTH p, bits v 2 1)] else d
  let d := d.wr (F.CLS_PORT_CFG_EN p) (bits v 0 1)
  if bits v 0 1 = 0 then
    if st = 0 then d else (d.wrs [(F.CLS_PORT_STAT_STATE p, 0), (F.CLS_PORT_STAT_REASON p, 0)]).portLost p
  else if st = 0 && d.is F.GLB_FUSE_CLASP_EN then (d.wr (F.CLS_PORT_STAT_STATE p) 1).setPort p {}
  else d

/-- CLS_PORT_EN_WRITE (R477). -/
def execClsPortEnWrite (p val : Nat) (s : State) (req : Requester := .host 0) : Res := s.devReg req (0xB00100 + 0x20 * p) fun d => if p < 4 then d.portCfg p val else d

/-- Sends everything in the replay buffer of port `p` again, with the present ACK (R479). -/
def Dev.resendAll (d : Dev) (p : Nat) : Dev :=
  let x := d.port p
  x.replay.foldl (fun d f => d.flitSent p (sealFlit (f.toNat % 4096) x.lastIn false f)) d

/-- LINK_UP (R477, R479, R493), with VDD_CLS_A (channel 8) armed: after a retrain the replay buffer goes on where it was. -/
def execLinkUp (p rate width peer : Nat) (s : State) : Res := s.nextPeri fun d =>
  if !s.aon.armed 8 then d else
  let st := d.portState p
  let asleep := p == 3 && d.is F.PAIR_STATUS_ASLEEP
  let ok := decide (p < 4) && (st == 1 || st == 3 || asleep) && decide (rate ≤ d.rd (F.CLS_PORT_CFG_MAXRATE p)) && decide (width ≤ 1) &&
    decide (d.rd (F.CLS_PORT_CFG_MINWIDTH p) ≤ width) && peer != d.chip && decide (peer < 16)
  if !ok then d
  else
    let d := d.wrs [(F.CLS_PORT_STAT_STATE p, 2), (F.CLS_PORT_STAT_RATE p, rate), (F.CLS_PORT_STAT_WIDTH p, width),
      (F.CLS_PORT_STAT_PEER p, peer), (F.CLS_PORT_STAT_REASON p, 0)]
    let d := if st = 1 then d.postInfo (38 + p) 0x1900 (peer + rate * 16 + width * 32)
      else d.postInfo (38 + p) 0x1902 (d.rd (F.CLS_PORT_CNT_RETRAINS p))
    let d := (d.setPort p { d.port p with replays := 0 }).resendAll p
    let d := d.portKick p
    if p = 3 && d.isPair then d.pairUp else d

/-- Port `p` enters FAILED (R477, R479, R492, R493). -/
def Dev.portFail (d : Dev) (p reason : Nat) : Dev :=
  let d := (d.wrs [(F.CLS_PORT_STAT_STATE p, 4), (F.CLS_PORT_STAT_REASON p, reason)]).postInfo (38 + p) 0x1901 reason
  let d := d.portLost p
  if p = 3 then d.pairFailed reason else d

/-- LINK_FAILED (R477). -/
def execLinkFailed (p reason : Nat) (s : State) : Res := s.nextPeri fun d =>
  if p < 4 && (d.portState p == 1 || d.portState p == 3) then d.portFail p reason else d

/-! ### Flits (R478–R480) -/

/-- A replay of port `p` (R479): the fourth of the same flit starts a retrain, and the third retrain within a second fails the port. -/
def Dev.replay (d : Dev) (p : Nat) : Dev :=
  let x := d.port p
  if x.replay.isEmpty then d
  else
    let d := d.sat (F.CLS_PORT_CNT_REPLAYS p)
    if x.replays < 3 then (d.setPort p { x with replays := x.replays + 1 }).resendAll p
    else
      let recent := x.retrains.filter fun t => decide (d.uptime < t + 1000000)
      let d := (d.sat (F.CLS_PORT_CNT_RETRAINS p)).setPort p { x with replays := 0, retrains := d.uptime :: recent }
      if 2 ≤ recent.length then d.portFail p 0 else d.wr (F.CLS_PORT_STAT_STATE p) 3

/-- How many flits of the replay buffer an ACK covers. -/
def Port.covered (x : Port) (ack : Nat) : Nat :=
  match x.replay with
  | [] => 0
  | f :: _ => let k := (ack + 4097 - f.toNat % 4096) % 4096; if k ≤ x.replay.length then k else 0

/-- Takes the ACK of a good flit: the flits it covers leave the replay buffer. -/
def Dev.acked (d : Dev) (p ack : Nat) : Dev :=
  let x := d.port p
  let k := x.covered ack
  if k = 0 then d else d.setPort p { x with replay := x.replay.drop k, replays := 0, ackIn := ack }

/-- Takes the credits of an IDLE flit. -/
def Dev.credited (d : Dev) (p : Nat) (flit : BitVec 256) : Dev :=
  (List.range 12).foldl (fun d k =>
    let n := bits flit.toNat (32 + 16 * k) 16
    let x := d.port p
    if n = 0 then d else d.setPort p { x with credits := let u := x.used k - n; if u = 0 then fdel x.credits k else fset x.credits k u }) d

/-- FLIT_RECEIVED (R478–R480). -/
def execFlitReceived (p : Nat) (flit : BitVec 256) (s : State) : Res := s.nextPeri fun d =>
  let v := flit.toNat
  if 4 ≤ p || d.portState p != 2 then d
  else if bits v 224 32 != (crc32 (toBytes 28 v)).toNat then (d.sat (F.CLS_PORT_CRC_COUNT p)).idleSend p true none
  else
    let x := d.port p
    let d := d.acked p (bits v 12 12)
    let d := if bits v 24 1 = 1 then d.replay p else d
    let d :=
      if d.portState p != 2 then d
      else if flitVc flit = 3 then d.credited p flit
      else if v % 4096 = (x.lastIn + 1) % 4096 then
        (d.setPort p { d.port p with lastIn := v % 4096 }).idleSend p false (some (flitPool flit))
      else d.idleSend p true none
    d.portKick p

/-- REPLAY_TIMEOUT (R479). -/
def execReplayTimeout (p : Nat) (s : State) : Res := s.nextPeri fun d => if p < 4 && d.portState p == 2 then d.replay p else d

/-! ### Forwarding (R484) -/

/-- The port on which a discard is counted: the one that leads to the message's source (log entry 45). -/
def Dev.discardPort (d : Dev) (src : Nat) : Nat := (d.route src).getD 0

/-- A message is discarded and counted (R484, R488, R493). -/
def Dev.discard (d : Dev) (m : ClaspMsg) : Dev :=
  let p := d.discardPort m.src
  (d.sat (F.CLS_PORT_STAT_DISCARDS p)).postInfo (38 + p) 0x1903 (m.mtype + m.dst * 256)

/-- A reply to a request. -/
def Dev.reply (d : Dev) (m : ClaspMsg) (mtype arg : Nat) (bytes : List Byte) : Dev :=
  d.claspSend { mtype := mtype, src := d.chip, dst := m.src, tag := m.tag, sctx := m.sctx, offset := m.offset, arg := arg, data := bytes,
                len := bytes.length - 1 }

/-- A message that cannot be forwarded is discarded; a REQ message is answered with REJECT, NO_ROUTE. -/
def Dev.discardReq (d : Dev) (m : ClaspMsg) : Dev := if mclass m.mtype = 0 then (d.discard m).reply m 5 6 [] else d.discard m

/-- Whether MTYPE is one that R482 or R511 defines. -/
def mtypeOk (t : Nat) : Bool := [1, 2, 3, 4, 5, 0x10, 0x11, 0x12].contains t || (decide (0x20 ≤ t) && decide (t ≤ 0x28))

/-- MESSAGE_FORWARD (R484); a message to this chip whose MTYPE is reserved is discarded and counted (R482). -/
def execMessageForward (hop : Nat) (m : ClaspMsg) (s : State) : Res := s.nextPeri fun d =>
  if m.dst = d.chip then (if mtypeOk m.mtype then d else d.discard m)
  else
    match d.route m.dst with
    | some p =>
      if 3 ≤ hop then d.discardReq m else (d.bump (F.CLS_PORT_FWD_COUNT p)).sendOn p (hop + 1) m
    | none => d.discardReq m

/-! ### Inbound windows (R205–R207) -/

/-- Where the window entry of an inbound request lies (R205). -/
def Dev.winEntry (d : Dev) (m : ClaspMsg) : Nat := d.rd (F.MMU_WIN_BASE_BASE (bits m.offset 30 6)) * 4096 + 8 * bits m.offset 21 9

/-- The read of the window entry of an inbound request (R179): a wrong bit is corrected. No rule says what an uncorrectable entry does: it is
logged for the window's context and the request is rejected as for an invalid entry (DESIGN CHOICE, log entry 47). -/
def Dev.winRead (d : Dev) (m : ClaspMsg) : Dev :=
  let w := bits m.offset 30 6
  if !d.is (F.MMU_WIN_CTL_EN w) || !(d.rd (F.MMU_WIN_SRC_SRCMASK w)).testBit m.src then d
  else
    match d.badGran (d.winEntry m) 8 with
    | some g => d.logUe g 1 (d.rd (F.MMU_WIN_CTL_CTX w))
    | none => d.correct (d.winEntry m) 8

/-- Where an inbound request lands: device memory with a key slot, or the reason of a rejection (R485). -/
def Dev.window (d : Dev) (m : ClaspMsg) (n : Nat) (write : Bool) : Nat × Nat ⊕ Nat :=
  let w := bits m.offset 30 6
  let at_ := d.winEntry m
  let e := d.pte (d.rd (F.MMU_WIN_BASE_BASE w) * 4096) (bits m.offset 21 9)
  let pa := pteAddr e + m.offset % 2 ^ 21
  if !d.is (F.MMU_WIN_CTL_EN w) then .inr 1
  else if !(d.rd (F.MMU_WIN_SRC_SRCMASK w)).testBit m.src then .inr 2
  else if !d.inMem (d.rd (F.MMU_WIN_BASE_BASE w) * 4096) 4096 || (d.badGran at_ 8).isSome || !pteV e || d.winMalformed e || !d.inMem pa n then .inr 3
  else if !(if write then e.testBit 2 else e.testBit 3) then .inr 4
  else if pa < 2 ^ 36 && !d.keyOk (pteKey e) then .inr 5
  else .inl (pa, pteKey e)

/-- An inbound request is rejected (R207, R486). -/
def Dev.rejectMsg (d : Dev) (m : ClaspMsg) (reason : Nat) : Dev := (d.sat F.MMU_WIN_REJ_COUNT).reply m 5 reason []

/-- The bytes that a WRITE stores at its address, by its byte enables (R482). -/
def enabled (old new : List Byte) (mask : Nat) : List Byte :=
  (List.range new.length).map fun i => if mask.testBit i then new.getD i 0 else old.getD i 0

/-- WRITE (R205–R207, R485). -/
def execWrite (m : ClaspMsg) (s : State) : Res := s.nextPeri fun d =>
  if m.dst != d.chip then d
  else
    let d := d.winRead m
    match d.window m m.data.length true with
    | .inr r => d.rejectMsg m r
    | .inl (pa, key) =>
      let c := d.rd (F.MMU_WIN_CTL_CTX (bits m.offset 30 6))
      let bs := if m.data.length = 64 then enabled (d.readMem key pa 64) m.data m.arg else m.data
      (d.writeMem key pa bs 0 c).reply m 3 0 []

/-- READ (R205–R207, R485). No rule says what a READ of an uncorrectable granule returns: its bytes are free values (log entry 47). -/
def execRead (m : ClaspMsg) (s : State) : Res := s.nextPeri fun d =>
  let n := m.len + 1
  if m.dst != d.chip then d
  else
    let d := d.winRead m
    match d.window m n false with
    | .inr r => d.rejectMsg m r
    | .inl (pa, key) =>
      match d.badGran pa n with
      | none => (d.correct pa n).reply m 4 0 (d.readMem key pa n)
      | some g =>
        let bs := (List.range n).map fun k => (Config.freeValue (d.free + k)).setWidth 8
        ({ d with free := d.free + n }.logUe g 0 (d.rd (F.MMU_WIN_CTL_CTX (bits m.offset 30 6)))).reply m 4 0 bs

/-! ### Replies (R485, R486) -/

/-- A request of descriptor `n` of queue `q` is answered; a descriptor that has ended but for its replies completes with the last. -/
def Dev.replied (d : Dev) (q n : Nat) (data : List (Nat × List Byte)) : Dev :=
  (d.onIssued q n fun i => { i with acked := i.acked + 1, rdata := i.rdata ++ data }).endCheck q n

/-- The outstanding request that a reply answers. -/
def Dev.reqOf (d : Dev) (m : ClaspMsg) : Option CReq := if m.dst = d.chip then fget d.cls.reqs m.tag else none

/-- WACK (R485, R486). -/
def execWack (m : ClaspMsg) (s : State) : Res := s.nextPeri fun d =>
  match d.reqOf m with
  | some r => if r.read then d else (d.reqDone m.tag).replied r.q r.idx []
  | none => d

/-- RDATA (R223, R485, R486): the data of a READ that a pre-emption has given up is discarded. -/
def execRdata (m : ClaspMsg) (s : State) : Res := s.nextPeri fun d =>
  match d.reqOf m with
  | some r =>
    if !r.read then d
    else if r.live then (d.reqDone m.tag).replied r.q r.idx [(r.elem, m.data)]
    else d.reqDone m.tag
  | none => d

/-- REJECT (R486). -/
def execReject (m : ClaspMsg) (s : State) : Res := s.nextPeri fun d =>
  match d.reqOf m with
  | some r => (d.reqDone m.tag).kill { c := r.ctx, cause := 0xA, addr := r.addr }
  | none => d

/-- REQ_TIMEOUT (R485). -/
def execReqTimeout (tag : Nat) (s : State) : Res := s.nextPeri fun d =>
  match fget d.cls.reqs tag with
  | some r => (d.reqDone tag).kill { c := r.ctx, cause := 0x18, addr := r.addr }
  | none => d

/-! ### Barriers (R488–R490) -/

/-- The arrivals of a generation. -/
def Barrier.arrivals (x : Barrier) (gen : Bool) : List (Nat × Nat) := if gen then x.arr1 else x.arr0

/-- Notes an arrival of a generation, once for each chip. -/
def Barrier.arrive (x : Barrier) (gen : Bool) (c members : Nat) : Barrier :=
  let add (l : List (Nat × Nat)) : List (Nat × Nat) := (l.filter fun a => a.1 != c) ++ [(c, members)]
  if gen then { x with arr1 := add x.arr1 } else { x with arr0 := add x.arr0 }

/-- A waiting barrier is abandoned: ABANDON to the other members, and the descriptor completes with `st`. -/
def Dev.barStop (d : Dev) (b st : Nat) : Dev :=
  let x := d.bar b
  match x.wait with
  | some (_, _, members) => (d.barSend 0x11 b x.gen members (x.owner.getD 0)).barEnd b st x.abandoned
  | none => d

/-- A barrier that waits is evaluated: a different MEMBERS abandons it; with every other member arrived it completes, GEN toggles and the
owner stays. -/
def Dev.barEval (d : Dev) (b : Nat) : Dev :=
  let x := d.bar b
  match x.wait with
  | none => d
  | some (_, _, members) =>
    let arr := x.arrivals x.gen
    let others := (maskList 16 members).filter (· != d.chip)
    if arr.any fun a => a.2 != members then d.barStop b 1
    else if others.all fun c => arr.any fun a => a.1 == c then
      let y := if x.gen then { x with arr1 := [] } else { x with arr0 := [] }
      d.barEnd b 0 { y with wait := none, gen := !x.gen }
    else d

/-- The stored arrivals of the generation that begins that are no members of the barrier are discarded and counted (R488). -/
def Dev.barStray (d : Dev) (b : Nat) (x : Barrier) (members : Nat) : Dev :=
  ((x.arrivals x.gen).filter fun a => !members.testBit a.1).foldl (fun d a => d.discard
    { mtype := 0x10, src := a.1, dst := d.chip, tag := 0, sctx := 0, offset := 0, arg := b + (if x.gen then 256 else 0) + a.2 * 2 ^ 16,
      data := [] }) d

/-- CLASP_BARRIER (R488). An entry at which the context already waits is in use as well (log entry 48). -/
def execClaspBarrier (q : Nat) (s : State) : Res := s.nextCore fun d => d.goHead q 0x50 fun d x =>
  let b := dfld x 8 0 8
  let members := dfld x 10 0 16
  let e := d.bar b
  let others := (maskList 16 members).filter (· != d.chip)
  if !members.testBit d.chip || e.wait.isSome || (e.owner.any fun o => o != d.qctx q) then d.reject q x 0x82
  else if others.any fun c => d.portDown c then d.reject q x 0xE
  else
    let r := d.take q x
    let stray (l : List (Nat × Nat)) : List (Nat × Nat) := l.filter fun a => members.testBit a.1
    let e := { e with owner := some (d.qctx q), wait := some (q, r.2.seq, members),
                      arr0 := if e.gen then e.arr0 else stray e.arr0, arr1 := if e.gen then stray e.arr1 else e.arr1 }
    let d := ((r.1.barStray b (d.bar b) members).setBar b e).barSend 0x10 b e.gen members (r.1.qctx q)
    d.barEval b

/-- ARRIVE (R488). -/
def execArrive (m : ClaspMsg) (s : State) : Res := s.nextPeri fun d =>
  if m.dst != d.chip then d
  else
    let b := m.arg % 256
    let gen := m.arg.testBit 8
    let x := d.bar b
    match x.wait with
    | some (_, _, members) =>
      if x.gen == gen && !members.testBit m.src then d.discard m
      else (d.setBar b (x.arrive gen m.src (bits m.arg 16 16))).barEval b
    | none => d.setBar b (x.arrive gen m.src (bits m.arg 16 16))

/-- ABANDON (R489). -/
def execAbandon (m : ClaspMsg) (s : State) : Res := s.nextPeri fun d =>
  let b := m.arg % 256
  let x := d.bar b
  if m.dst = d.chip && x.wait.isSome && x.gen == m.arg.testBit 8 then d.barEnd b 1 x.abandoned else d

/-- BARRIER_TIMEOUT (R489): after the TIMEOUT_US of the descriptor that waits; 0 is no limit. -/
def execBarrierTimeout (b : Nat) (s : State) : Res := s.nextPeri fun d =>
  match (d.bar b).wait with
  | some (q, n, _) =>
    match d.bySeq q n with
    | some i => if dfld i.d 12 0 32 = 0 then d else d.barStop b 2
    | none => d
  | none => d

end Sys2Proof.Machine
end

