-- ==== Sys2Proof/Machine/Rail.lean ====
section
/-! DEFINITION. The commands of the rail sequencer that act on the always-on domain (chapter 03). -/

namespace Sys2Proof.Machine

/-- A LOG that waits for room goes on when the queue has room, and an instruction that a reaction keeps from following follows when
no reaction is left (R68, R69). -/
def Aon.resume (a : Aon) : Aon :=
  match a.wait with
  | .logRoom code => if a.running && decide (a.locket.queue.length < 8) then (a.record 2 0 0xFF code).advance else a
  | .resume => if a.running && a.reacting == .none && a.reactQ.isEmpty then a.advance else a
  | _ => a

/-- ROM_PREAMBLE (R63): with the straps sampled the engine starts the preamble; TEST_EN keeps it stopped (R52). -/
def execRomPreamble (s : State) : Res := s.nextAon fun a =>
  if a.engine == stPreamble && a.strapped && a.pc == 0 && a.wait == .none && !a.testEn then a.romStep else a

/-- END (R67), or execution past the last loaded instruction (R66): DONE. -/
def execSeqEnd (s : State) : Res := s.nextAon fun a =>
  if a.engine == stRun && a.src == .image && a.past then a.setEngine stDone
  else a.onInstr 0 fun _ a => a.setEngine stDone

/-- ENABLE (R67). -/
def execSeqEnable (s : State) : Res := s.nextAon fun a =>
  a.onInstr 1 fun w a => (a.railsOn (maskList 24 (iMask w))).advance

/-- DISABLE (R67). -/
def execSeqDisable (s : State) : Res := s.nextAon fun a =>
  a.onInstr 2 fun w a => (a.railsOff (maskList 24 (iMask w))).advance

/-- WAIT (R67): COUNT = 0 waits nothing. -/
def execSeqWait (s : State) : Res := s.nextAon fun a =>
  a.onInstr 3 fun w a => if bits w 0 16 = 0 then a.advance else { a with wait := .time }

/-- The preamble is past its last step: its 1 ms has elapsed and the boot controller is released (R63). -/
def Aon.preambleEnd (a : Aon) : Bool :=
  a.wait == .time && a.engine == stPreamble && a.src == .preamble && (romSteps a.src)[a.pc]?.isNone

/-- The time of a WAIT, or the preamble's 1 ms, elapses (R63, R68). -/
def execSeqWaitExpire (s : State) : Res :=
  if s.aon.preambleEnd then .next ((s.onAon fun a => { a with wait := .boot }).startBoot true)
  else s.nextAon fun a => if a.wait == .time && a.running then a.advance else a

/-- The channels that a WAITPG waits for (R67): channel IDX, or every PG_EN channel of group IDX. -/
def Aon.waitSet (a : Aon) (w : Nat) : List Nat :=
  if bits w 27 1 = 0 then [iIdx w]
  else (List.range 24).filter fun n => a.rd (F.SEQ_RAIL_CFG_GROUP n) == iIdx w && a.is (F.SEQ_RAIL_CFG_PG_EN n)

/-- WAITPG (R67). -/
def execSeqWaitpg (s : State) : Res := s.nextAon fun a =>
  a.onInstr 4 fun w a => { a with wait := .pg (a.waitSet w) }

/-- The awaited power-goods are high and the WAITPG ends (R68). -/
def execWaitpgSatisfied (s : State) : Res := s.nextAon fun a =>
  match a.wait with
  | .pg chs => if a.running && chs.all (fun n => (a.rail n).pg) then a.advance else a
  | _ => a

/-- A WAITPG times out: PG_TIMEOUT on every channel still waited for, and the next instruction follows unless a reaction holds or
ends the program (R68). -/
def execWaitpgTimeout (s : State) : Res := s.nextAon fun a =>
  match a.wait with
  | .pg chs =>
    if a.running && !chs.all (fun n => (a.rail n).pg) then
      { (chs.filter fun n => !(a.rail n).pg).foldl (fun (a : Aon) n => a.raiseRail 1 n) a with wait := .resume }.resume
    else a
  | _ => a

/-- The result of a CHECK (R67). -/
def Aon.checkF (a : Aon) (w : Nat) : Bool :=
  let c := a.rd (F.SEQ_ADC_VAL_CODE (iIdx w))
  match bits w 26 2 with
  | 0 => !a.outside (iIdx w) c
  | 1 => decide (bits w 0 12 < c)
  | 2 => decide (c < bits w 0 12)
  | _ => (a.rail (iIdx w)).pg

/-- CHECK (R67). -/
def execSeqCheck (s : State) : Res := s.nextAon fun a =>
  a.onInstr 5 fun w a => (a.wr F.SEQ_STATUS_F (if a.checkF w then 1 else 0)).advance

/-- JUMP (R67). -/
def execSeqJump (s : State) : Res := s.nextAon fun a =>
  a.onInstr 6 fun w a => a.wr F.SEQ_STATUS_PC (bits w 0 8)

/-- JUMPIF (R67). -/
def execSeqJumpif (s : State) : Res := s.nextAon fun a =>
  a.onInstr 7 fun w a => if a.rd F.SEQ_STATUS_F = bits w 24 1 then a.wr F.SEQ_STATUS_PC (bits w 0 8) else a.advance

/-- A signed 8-bit margin step plus 10 (R90). -/
def stepIdx (x : Nat) : Nat := (x + 10) % 256

/-- MARGIN (R67): the engine waits for its PMBus write. -/
def execSeqMargin (s : State) : Res := s.nextAon fun a =>
  a.onInstr 8 fun w a =>
    ({ a with wait := .margin (iIdx w) (stepIdx (bits w 0 8)) }).marginStart (iIdx w) (stepIdx (bits w 0 8)) false

/-- Whether bus `b` is carrying the margin write of channel `n`. -/
def PmbBus.carries (p : PmbBus) (n : Nat) (host : Bool) : Bool :=
  match p.txn with
  | some (.margin m _ h) => m == n && h == host
  | _ => false

/-- A margin write completes, or has failed after 10 ms (R68, R90, R96). -/
def execMarginDone (ok : Bool) (s : State) : Res := s.nextAon fun a =>
  match a.marginOf with
  | some (n, st, host) =>
    a.marginEnd n st host (ok && (a.bus (a.busOf n)).carries n host && (a.bus (a.busOf n)).recovery == 0 && a.takesVolts n)
  | none => a

/-- LOG (R67, R68): a SEQ_LOG record (R103), once the queue has room. -/
def execSeqLog (s : State) : Res := s.nextAon fun a =>
  a.onInstr 9 fun w a => { a with wait := .logRoom (bits w 0 24) }.resume

/-- The program watchdog expires in PREAMBLE or RUN (R69). -/
def execProgTimeout (s : State) : Res := s.nextAon fun a =>
  if a.running then a.raiseDev 9 .systemReset else a

/-- A channel with PG_EN = 0 is armed 1 ms after its ENABLE (R60). -/
def execArmTimerExpire (ch : Nat) (s : State) : Res := s.nextAon fun a =>
  if a.on ch && (a.rail ch).armTimer then a.arm ch else a

/-- A rising SEQ_PG (R60): it arms a channel that was enabled, and ends a deglitch time. -/
def execSeqPgRise (ch : Nat) (s : State) : Res := s.nextAon fun a =>
  if ch < 24 then
    let a := (a.setRail ch { a.rail ch with pg := true, pgReported := false }).healthy ch
    if a.on ch && (a.rail ch).pgArm then a.arm ch else a
  else a

/-- A falling SEQ_PG (R73): its deglitch time starts. -/
def execSeqPgFall (ch : Nat) (s : State) : Res := s.nextAon fun a =>
  if ch < 24 then a.setRail ch { a.rail ch with pg := false, pgReported := false } else a

/-- The SEQ_PG of an armed channel with PG_EN = 1 has stayed low for PG_DEGLITCH: PG_LOST, once a fall (R73). -/
def execPgLost (ch : Nat) (s : State) : Res := s.nextAon fun a =>
  if ch < 24 && a.armed ch && a.is (F.SEQ_RAIL_CFG_PG_EN ch) && !(a.rail ch).pg && !(a.rail ch).pgReported then
    ((a.setRail ch { a.rail ch with pgReported := true }).raiseRail 2 ch).refault ch
  else a

/-- RETRY_RAIL of channel `ch` begins (R78). -/
def execRetryRail (ch : Nat) (s : State) : Res := s.nextAon fun a =>
  match a.nextReact with
  | some p => if p.react == .retryRail && p.ch == some ch then (({ a with reactQ := a.reactQ.drop 1 }).attempt ch).resume else a
  | none => a

/-- Whether channel `n` is being retried and stands in phase `ph`. -/
def Aon.retrying (a : Aon) (n : Nat) (ph : RetryPhase) : Bool := a.reacting == .retry n && (a.rail n).retry == ph

/-- The back-off ends and SEQ_EN is driven high (R78). The out-of-window count of its ADC input starts anew, so that the conversions
taken while the rail was off fail no attempt: the spec is silent (DESIGN CHOICE, log entry 103). -/
def execRetryBackoffExpire (ch : Nat) (s : State) : Res := s.nextAon fun a =>
  if a.retrying ch .backoff then
    let a := (a.setRail ch { a.rail ch with retry := .waitPg }).railOn ch
    if a.is (F.SEQ_RAIL_CFG_ADC_EN ch) then a.adcClear (a.rd (F.SEQ_RAIL_CFG_ADC ch)) else a
  else a

/-- No power-good within PG_TIMEOUT of a retry enable (R78): PG_TIMEOUT and the next attempt or the escalation. -/
def execRetryPgTimeout (ch : Nat) (s : State) : Res := s.nextAon fun a =>
  if a.retrying ch .waitPg && a.is (F.SEQ_RAIL_CFG_PG_EN ch) then ((a.raiseRailWith 1 ch .retryRail).dropReacts ch).attempt ch else a

/-- The verification of a retry attempt has passed: the reaction ends and the second of health begins (R78). -/
def execRetryAttemptSuccess (ch : Nat) (s : State) : Res := s.nextAon fun a =>
  if a.retrying ch (.verify 0) then
    ((a.setRail ch { a.rail ch with retry := .idle, onset := false }).endReaction).resume
  else a

/-- A rail has been healthy for 1 s without interruption: RETRY_COUNT returns to zero (R78). -/
def execRetryHealthyExpire (ch : Nat) (s : State) : Res := s.nextAon fun a =>
  if ch < 24 && a.armed ch && a.isHealthy ch && (a.rail ch).retry == .idle then a.wr (F.SEQ_RAIL_STAT_RETRY_COUNT ch) 0 else a

/-- GROUP_SHUTDOWN of group `g` begins (R79). -/
def execGroupShutdown (g : Nat) (s : State) : Res := s.nextAon fun a =>
  match a.nextReact with
  | some p =>
    if p.react == .groupShutdown && p.group == g then
      let a := { a with reactQ := a.reactQ.drop 1 }
      let a := match p.ch with | some n => a.inReaction n true | none => a
      (a.groupStart g).resume
    else a
  | none => a

/-- OFFDLY elapses and the next channel of the group goes low (R79). -/
def execGroupOffdlyExpire (s : State) : Res := s.nextAon fun a =>
  match a.reacting with
  | .group g offs =>
    let (a, rest) := a.offNext offs
    if rest.isEmpty then a.endReaction.resume else { a with reacting := .group g rest }
  | _ => a

/-- SYSTEM_RESET begins when it is the reaction due (R80); an Uncorrectable Internal Error is signalled (R142). -/
def State.sysReset (s : State) : State :=
  match s.aon.nextReact with
  | some p =>
    if p.react == .systemReset then
      (s.onPeri Dev.aerInternal).onAon fun a => ({ a with reactQ := a.reactQ.drop 1 }).sysStart p.count
    else s
  | none => s

/-- SYSTEM_RESET (R80). -/
def execSystemReset (s : State) : Res := .next s.sysReset

/-- 100 µs after the previous switch-off the next channel goes low (R80). -/
def execSysresetOffStep (s : State) : Res := s.nextAon fun a =>
  match a.reacting with
  | .sysOff offs count latch =>
    let (a, rest) := a.offNext offs
    if rest.isEmpty then a.sysOffDone count latch else { a with reacting := .sysOff rest count latch }
  | _ => a

/-- The 100 ms have elapsed (R80): RST_COUNT increments and the preamble restarts, once R85 allows it. -/
def execSysresetWaitExpire (s : State) : Res :=
  match s.aon.reacting with
  | .sysWait count =>
    let s := s.onAon fun a => if count then a.sat F.SEQ_STATUS_RST_COUNT else a
    if s.aon.faultN.guardWait then s.nextAon fun a => { a with reacting := .sysGuard } else .next s.restart
  | _ => .next s

/-- After 60 s in DONE without a fault RST_COUNT returns to 0 (R81). -/
def execRstCountClear (s : State) : Res := s.nextAon fun a =>
  if a.engine == stDone then a.wr F.SEQ_STATUS_RST_COUNT 0 else a

/-- A write of SEQ_CTRL.SWRESET (R80, R95): HOST_RESET, and SYSTEM_RESET begins unless another reaction runs. -/
def State.swreset (s : State) : State :=
  if s.aon.is F.SEQ_CTRL_LOCK || s.aon.engine == stLatchoff then s
  else (s.onAon fun a => a.raiseDev 0xE .systemReset).sysReset

/-- SWRESET (R80). -/
def execSwreset (s : State) (req : Requester := .host 0) : Res := s.atReg req 0x100000 (.next s.swreset)

/-- SEQ_MARGIN.GO (R92): discarded while LOCK = 1 or a host margin runs; a channel without a regulator fails at once. -/
def Aon.hostMargin (a : Aon) (ch step : Nat) : Aon :=
  if a.is F.SEQ_CTRL_LOCK || a.is F.SEQ_MARGIN_BUSY then a
  else
    let a := a.wr F.SEQ_MARGIN_CH ch
    let a := if stepOk (step % 256) then a.wr F.SEQ_MARGIN_STEP step else a
    let n := a.rd F.SEQ_MARGIN_CH
    if n < 24 && a.is (F.SEQ_RAIL_PMB_EN n) then
      ((a.wr F.SEQ_MARGIN_BUSY 1).wr F.SEQ_MARGIN_OK 0).marginStart n (stepIdx (a.rd F.SEQ_MARGIN_STEP)) true
    else a.wr F.SEQ_MARGIN_OK 0

/-- HOST_MARGIN (R92). -/
def execHostMargin (ch step : Nat) (s : State) (req : Requester := .host 0) : Res := s.atReg req 0x100018 (s.nextAon fun a => a.hostMargin ch step)

/-- Whether a switch-off sequence of the device is running (R83). -/
def Aon.switching (a : Aon) : Bool :=
  (match a.reacting with | .group _ _ => true | .sysOff _ _ _ => true | _ => false) ||
    (a.brown.tripped && !a.brown.offs.isEmpty) || (a.therm.trip && !a.therm.offs.isEmpty)

/-- The device stops driving FAULT_N; the line's level is checked 1 ms later (R84). -/
def Aon.freeFaultN (a : Aon) : Aon :=
  ({ a with faultN := { a.faultN with releaseCheck := true } }.wr F.SEQ_STATUS_FAULTN_DRIVE 0).showFaultN

/-- FAULT_N is released after 1 ms and the end of the switch-off, except in LATCHOFF (R83); its brown-out state is driven low (R48). -/
def execFaultnRelease (s : State) : Res := s.nextAon fun a =>
  if a.is F.SEQ_STATUS_FAULTN_DRIVE && !a.switching && a.engine != stLatchoff && !a.therm.trip && !a.brown.tripped then a.freeFaultN
  else a

/-- FAULT_N driven by another party (R84): FAULTN_EXT with the configured reaction. -/
def Aon.faultnExt (a : Aon) : Aon :=
  let r := a.rd F.SEQ_CTRL_FAULTN_REACT
  let a := ({ a with faultN := { a.faultN with extLow := true, guardWait := a.faultN.guardWait || r != 0 } }).showFaultN
  if r = 1 then
    let a := a.raiseDev 0xA .ignore
    ((List.range 8).filter fun g => a.is (F.SEQ_GRP_CFG_FOLLOW g)).foldl
      (fun a g => { a with reactQ := insReact { react := .groupShutdown, cause := 0xA, ch := none, group := g } a.reactQ }) a
  else if r = 2 then a.raiseDev 0xA .systemReset 0 0 false
  else a.raiseDev 0xA .ignore

/-- 1 ms after the release the line's level is checked (R84). -/
def execFaultnReleaseCheck (low : Bool) (s : State) : Res := s.nextAon fun a =>
  if a.faultN.releaseCheck && !a.is F.SEQ_STATUS_FAULTN_DRIVE then
    let a := { a with faultN := { a.faultN with releaseCheck := false } }
    if low then a.faultnExt else a
  else a

/-- FAULT_N low for 10 µs from another party (R84): each command is one fall of the line. -/
def execFaultnExt (s : State) : Res := s.nextAon fun a =>
  if a.is F.SEQ_STATUS_FAULTN_DRIVE || !a.supplyOk then a else a.faultnExt

/-- FAULT_N has been high for 10 ms (R85): a waiting restart of the preamble proceeds. -/
def execFaultnGuardExpire (s : State) : Res :=
  if s.aon.is F.SEQ_STATUS_FAULTN_DRIVE then .next s
  else
    let s := s.onAon fun a =>
      ({ a with faultN := { a.faultN with extLow := false, guardWait := false, releaseCheck := false } }).showFaultN
    match s.aon.reacting with
    | .sysGuard | .brownGuard => .next s.restart
    | .latchGuard => .next ((s.onAon Aon.restartSeq).fullReset 2)
    | _ => .next s

/-- FAULT_N low for more than 5 s (R85). -/
def execFaultnStuck (s : State) : Res := s.nextAon fun a =>
  if a.is F.SEQ_STATUS_FAULTN_LOW then a.raiseDev 0xB .ignore else a

/-- Whether a transaction is the read of an alert response. -/
def PmbTxn.isAlert : PmbTxn → Bool
  | .alert _ _ => true
  | _ => false
/-- Whether a transaction is the poll of channel `ch`. -/
def PmbTxn.isPoll (ch : Nat) : PmbTxn → Bool
  | .poll n _ _ _ _ => n == ch
  | _ => false
/-- Whether a bus carries or holds a transaction of kind `f`. -/
def PmbBus.has (p : PmbBus) (f : PmbTxn → Bool) : Bool := p.txn.any f || p.wait.any f

/-- PMBx_ALERT_N is low (R87): the alert response address is read in its turn; channel `ch` responds, with its STATUS_WORD. -/
def execPmbAlert (bus ch status : Nat) (s : State) : Res := s.nextAon fun a =>
  if bus < 2 && !(a.bus bus).has PmbTxn.isAlert then a.busAdd bus (.alert ch status) else a

/-- PMB_POLL (R87): POLL_MS has elapsed for channel `ch`, and its regulator is polled in its turn; the operands are the words that
it answers then. -/
def execPmbPoll (ch status vout iout : Nat) (pages : List Nat) (s : State) : Res := s.nextAon fun a =>
  if ch < 24 && a.is (F.SEQ_RAIL_PMB_EN ch) && !(a.bus (a.busOf ch)).has (PmbTxn.isPoll ch)
  then a.busAdd (a.busOf ch) (.poll ch status vout iout pages) else a

/-- SDA or SCL low for 35 ms (R88): nine clocks and a STOP. -/
def execPmbStuck (bus : Nat) (s : State) : Res := s.nextAon fun a =>
  if bus < 2 && !a.degraded bus && (a.bus bus).recovery == 0 then a.setBus bus { a.bus bus with recovery := 1 } else a

end Sys2Proof.Machine
end

