-- ==== Sys2Proof/Machine/Locket.lean ====
section
/-! DEFINITION. The commands of the locket's writer, its read-out and its gauge (chapter 04). -/

namespace Sys2Proof.Machine

/-- Whether the boot controller reads the NOR: stage 1 or 2 (R119, R124). -/
def Dev.reading (d : Dev) : Bool := d.rd F.BOOT_STATUS_STAGE == 1 || d.rd F.BOOT_STATUS_STAGE == 2

/-- The writer is idle again. -/
def Aon.lktIdle (a : Aon) : Aon := { a with locket := { a.locket with prog := .none, cur := none } }

/-- Whether the BROWNOUT record stands for THERMTRIP record `r` (case 1 of chapter 04): it is still to be decided, or carries THERM. -/
def Aon.brownStands (a : Aon) (r : LRec) : Bool := r.type == 5 && a.brown.tripped && (a.brown.deciding || a.brown.therm)

/-- Slot `i` is torn for good; the record waits at the front of its queue for the next slot (R102, R104). -/
def Aon.lktRequeue (a : Aon) (i : Nat) (w : BitVec 512) : Aon :=
  let l := a.locket
  let torn := bits w.toNat 26 1 == 1
  let l := { l with prog := .none, cur := none, droppedBefore := l.droppedBefore || torn }
  let l := match a.locket.cur with
    | some r => if r.urgent then (if a.brownStands r then l else { l with urgent := r :: l.urgent }) else { l with queue := r :: l.queue }
    | none => l
  ({ a with locket := l }).wr F.LKT_STATUS_PTR (nextSlot i)

/-- The record in slot `i` is committed (R99, R102): the pointer and SEQNUM move on, the failure count ends, and the first
record of a sector starts the erase of the next one. -/
def Aon.lktCommit (a : Aon) (i : Nat) (w : BitVec 512) : Aon :=
  let l := a.locket
  let first := (List.range 64).all fun j => !slotValid (l.slot (i / 64 * 64 + j))
  let therm := match l.cur with | some r => r.type == 5 | none => false
  let brown := match l.cur with | some r => r.type == 4 | none => false
  let k := (i / 64 + 1) % 64
  let l := { l with slots := fset l.slots i w, prog := .none, cur := none, hasNewest := true, fails := 0,
                    needErase := if first then l.needErase ++ [k] else l.needErase }
  let a := ((({ a with locket := l }).wr F.LKT_STATUS_PTR (nextSlot i)).wr F.LKT_SEQ_SEQNUM (recSeq w))
  let a := { a with therm := { a.therm with done := a.therm.done || therm },
                    ballsReleased := a.ballsReleased || (brown && a.brown.tripped),
                    brown := { a.brown with writing := a.brown.writing && (!brown || l.urgent.any (·.type == 4)) } }
  a.lktEraseKick

/-- A permitted BROWNOUT record that the writer cannot start, for want of a slot, of the start-up scan or of the NOR, is dropped and
counted with the GAUGE_DISAGREE record that would follow it, and the balls are released all the same (R110, R115, log entry 73). -/
def Aon.brownGiveUp (a : Aon) : Aon :=
  if a.brown.writing && a.locket.prog == .none then
    let n := (a.locket.urgent.filter (·.type == 4)).length + if a.brown.follow.isSome then 1 else 0
    let l := { a.locket with urgent := a.locket.urgent.filter (·.type != 4), droppedBefore := a.locket.droppedBefore || n != 0 }
    ({ a with locket := l, ballsReleased := true, brown := { a.brown with writing := false, follow := none } }).sat F.LKT_STATUS_DROPPED n
  else a

/-- Whether the record whose first program has ended gives way: to an urgent record it does unless it is one itself, to a BROWNOUT
record that stands for it, and to a refusal (R104, R107). -/
def Aon.lktYields (a : Aon) : Bool :=
  a.brown.refused || (!a.locket.urgent.isEmpty && match a.locket.cur with | some r => !r.urgent || a.brownStands r | none => true)

/-- A program of the writer ends (R102): the second program follows the first, unless the record gives way. -/
def Aon.lktProgDone (a : Aon) (ok : Bool) : Aon :=
  match a.locket.prog with
  | .none => a
  | .body i w =>
    if !ok then (a.lktRequeue i w).lktFail.lktKick.brownGiveUp.resume
    else if a.lktYields then (a.lktRequeue i w).lktKick.brownGiveUp.resume
    else { a with locket := { a.locket with prog := .head i w } }
  | .head i w =>
    if !ok then (a.lktRequeue i w).lktFail.lktKick.brownGiveUp.resume
    else (a.lktCommit i w).lktKick.brownGiveUp.resume

/-- LOCKET_NOR_OP_DONE (R102); a committed record raises source 67 (R150). -/
def execLocketNorOpDone (ok : Bool) (s : State) : Res :=
  let commits := match s.aon.locket.prog with | .head _ _ => ok | _ => false
  .next ((if commits then s.onPeri (·.irq 67) else s).onAon fun a => a.lktProgDone ok)

/-- An erase ends (R99, R105, R115): the sector is empty, or it is erased again. -/
def Aon.lktEraseEnd (a : Aon) (ok : Bool) : Aon :=
  match a.locket.erasing with
  | none => a
  | some k =>
    let l := { a.locket with erasing := none }
    let a := ({ a with locket := l }).wr F.LKT_STATUS_ERASING 0
    if ok then
      let l := { l with slots := l.slots.filter fun p => p.1 / 64 != k, fails := 0,
                        started := l.started || (a.is F.LKT_STATUS_READY && l.needErase.isEmpty) }
      (({ a with locket := l }).lktEraseKick).lktKick.resume
    else
      let a := ({ a with locket := { l with needErase := k :: l.needErase } }).lktFail
      if a.is F.LKT_STATUS_NOR_FAIL then a.resume else a.lktEraseKick

/-- LOCKET_ERASE_DONE (R99). -/
def execLocketEraseDone (ok : Bool) (s : State) : Res := s.nextAon fun a => a.lktEraseEnd ok

/-- LOCKET_OP_TIMEOUT (R115): the program in progress, or else the erase, has failed. -/
def execLocketOpTimeout (s : State) : Res := s.nextAon fun a =>
  if a.locket.prog == .none then a.lktEraseEnd false else a.lktProgDone false

/-- The write pointer that the start-up scan finds after the newest record (R105): the first empty slot, or slot 0 without a record;
with no slot empty slot 0 of the next sector, which is erased first (log entry 20). -/
def Locket.scanPtr (l : Locket) : Option Nat → Nat
  | some i => (l.firstEmpty 4096 ((i + 1) % 4096)).getD ((i / 64 + 1) % 64 * 64)
  | none => 0

/-- The sectors that are erased before any record is accepted (R105): the one after the pointer's, and the pointer's own when none of
its slots is empty. -/
def Locket.scanErase (l : Locket) (ptr : Nat) : List Nat :=
  let own := (List.range 63).all fun j => l.slot (ptr / 64 * 64 + j) != slotErased
  let k := (ptr / 64 + 1) % 64
  (if own then [ptr / 64] else []) ++ if l.sectorEmpty k then [] else [k]

/-- LOCKET_STARTUP_SCAN (R105): the newest record, the write pointer, SEQNUM and POR_COUNT, and the erases that come before any
record; the POWER_ON record is raised (R103). It waits for the boot controller's reads (R124). -/
def execLocketStartupScan (s : State) : Res := s.nextAon fun a =>
  if a.sfdp.isNone || a.is F.LKT_STATUS_READY || a.is F.LKT_STATUS_NOR_FAIL || s.dev.reading then a
  else
    let l := a.locket
    let newest := l.newestFirst.head?
    let ptr := l.scanPtr newest
    let need := l.scanErase ptr
    let l := { l with hasNewest := newest.isSome, started := need.isEmpty, needErase := need,
                      porCount := match newest with | some i => (recPor (l.slot i) + 1) % 65536 | none => 0 }
    let a := ({ a with locket := l }).wrs [(F.LKT_STATUS_PTR, ptr), (F.LKT_STATUS_READY, 1),
      (F.LKT_SEQ_SEQNUM, match newest with | some i => recSeq (l.slot i) | none => 0)]
    (a.lktEraseKick).record 7 0 0xFF s.strap.toNat

/-- LKT_RD_IDX with GO (R106); discarded while a read is busy. -/
def Aon.lktRead (a : Aon) (idx : Nat) : Aon :=
  if a.rd F.LKT_RD_IDX_STATE = 1 then a
  else (({ a with locket := { a.locket with reading := some (idx % 4096) } }).wr F.LKT_RD_IDX_IDX idx).wr F.LKT_RD_IDX_STATE 1

/-- LOCKET_READ (R106). -/
def execLocketRead (idx : Nat) (s : State) (req : Requester := .host 0) : Res := s.atReg req 0x108018 (s.nextAon fun a => a.lktRead idx)

/-- Writes the 16 words of a record into LKT_RD_DATA. -/
def Aon.lktData (a : Aon) (r : BitVec 512) : Aon :=
  (List.range 16).foldl (fun a i => a.wr (F.LKT_RD_DATA_DATA i) (bits r.toNat (32 * i) 32)) a

/-- LOCKET_READ_DONE (R106). -/
def execLocketReadDone (s : State) : Res := s.nextAon fun a =>
  match a.locket.reading with
  | none => a
  | some i =>
    let a := { a with locket := { a.locket with reading := none } }
    match a.locket.newestFirst[i]? with
    | some k => (a.lktData (a.locket.slot k)).wr F.LKT_RD_IDX_STATE 2
    | none => a.wr F.LKT_RD_IDX_STATE 3

/-- GAUGE_TICK (R108): one microsecond; GLB_UPTIME counts it (R160). -/
def execGaugeTick (s : State) : Res :=
  if !s.aon.supplyOk then .next s
  else .next { s with aon := (s.aon.gaugeStep).wr F.GLB_UPTIME_US (s.aon.rd F.GLB_UPTIME_US + 1),
                      dev := { s.dev with uptime := s.dev.uptime + 1 }.creditTick }

end Sys2Proof.Machine
end

