-- ==== Sys2Proof/Machine/Pads.lean ====
section
/-! DEFINITION. The balls: what the block puts on each of them, from its supplies, its resets, the brown-out and the boundary scan
(chapter 02). The table of R48 gives a ball its reset state, its brown-out state and, where its block drives it, its level. -/

namespace Sys2Proof.Machine

/-- The bank of a ball (R45, R48); the high-speed groups count as one bank a supply. -/
inductive Bank where
  | aon | mch | crd | tst | ddr | pcie | clasp
deriving DecidableEq, Repr

/-- The bank of each ball (R48). -/
def ballBank : Ball → Bank
  | .tbQa | .tbQb | .tbQz | .tbLine | .tbMains | .tbPulse | .gate _ | .vpA _ | .vpCsN | .vpOeN | .vpD _ => .mch
  | .crdVccEn | .crdClass _ | .crdDir | .crdC2 | .crdC3 | .crdC4 | .crdC6 | .crdC7 | .crdC8 | .crdOcN | .crdDet => .crd
  | .tdo => .tst
  | .ddrResetN => .ddr
  | .pcieTx => .pcie
  | .claspTx _ => .clasp
  | _ => .aon

/-- Whether the pad supply of a bank is valid: the standby supplies, or the channel that R62 gives the supply. -/
def Aon.padOk (a : Aon) (b : Bank) : Bool :=
  a.supplyOk && match b with
    | .aon | .tst => true
    | .mch => a.armed 9
    | .crd => a.armed 10
    | .ddr => a.armed 5
    | .pcie => a.armed 7
    | .clasp => a.armed 8

/-- The reset state of a ball (R48). -/
def ballReset : Ball → Drive
  | .seqEn _ | .spiClk | .tbPulse | .gate _ | .ddrResetN => .low
  | .crdVccEn | .crdClass _ | .crdDir | .crdC2 | .crdC3 | .crdC4 | .crdC6 | .crdC7 | .crdC8 => .low
  | .spiCsN => .high
  | .pmbScl _ | .pmbSda _ | .faultN | .thermtripN => .released
  | .spiIo _ => .pu
  | .strap _ => .pd
  | .vpD _ | .tdo => .hiz
  | .pcieTx | .claspTx _ => .idle
  | _ => .input

/-- The brown-out state of a ball, with `now` for the one that it leaves unchanged (R48). -/
def ballBrown (now : Drive) : Ball → Drive
  | .seqEn _ | .spiClk | .tbPulse | .gate _ => .pd
  | .spiCsN => .pu
  | .faultN => .low
  | .thermtripN => now
  | b => ballReset b

/-- A level as a drive. -/
def levelDrive (b : Bool) : Drive := if b then .high else .low

/-- Whether the NOR is in use: the locket writes or erases, a record is read, or the boot controller reads (R97, R106, R124). -/
def State.norBusy (s : State) : Bool :=
  s.aon.locket.prog != .none || s.aon.locket.erasing.isSome || s.aon.locket.reading.isSome || s.dev.reading

/-- What the always-on logic puts on its balls (R60, R83, R86, R88, R112). -/
def State.aonLevel (s : State) : Ball → Drive
  | .seqEn n => levelDrive (decide (n < 24) && s.aon.on n)
  | .faultN => if s.aon.is F.SEQ_STATUS_FAULTN_DRIVE then .low else .released
  | .thermtripN => if s.aon.therm.lineLow then .low else .released
  | .pmbScl b => if (s.aon.bus b).txn.isSome || (s.aon.bus b).recovery == 1 then .active else .released
  | .pmbSda b => if (s.aon.bus b).txn.isSome then .active else .released
  | .spiClk => if s.norBusy then .active else .low
  | .spiCsN => if s.norBusy then .active else .high
  | .spiIo _ => if s.norBusy then .active else .pu
  | b => ballReset b

/-- The level of gate `g` at its ball: low while the member does not drive the machine (R406, R498). -/
def Dev.gateBall (d : Dev) (g : Nat) : Bool := d.drives && d.gateLevel g

/-- The level of TB_PULSE at its ball (R407, R498). -/
def Dev.pulseBall (d : Dev) : Bool := d.drives && d.is F.TB_PULSE_CFG_EN && !d.tb.pulseEnds.isEmpty

/-- The verdict port drives VP_D only while VP_CS_N and VP_OE_N are low (R49) and the member drives the machine (R498). -/
def Dev.vpDriven (d : Dev) : Bool := !d.vp.csN && !d.vp.oeN && d.drives

/-- Whether a contact of the card moves: a transfer in ISO mode or on the wide bus. -/
def Dev.crdActive (d : Dev) : Bool := d.card.t1.job != .none || d.cbp.job != .none

/-- What the logic of the PERI domain puts on its balls (R49, R406, R407, R417, R437–R440, R477, R498). -/
def Dev.periLevel (d : Dev) : Ball → Drive
  | .gate g => levelDrive (d.gateBall g)
  | .tbPulse => levelDrive d.pulseBall
  | .vpD n => if d.vpDriven then levelDrive (d.vp.word.testBit n) else .hiz
  | .crdVccEn => levelDrive d.card.vccEn
  | .crdClass n => levelDrive (d.card.cls.testBit n)
  | .crdDir => levelDrive d.card.dir
  | .crdC2 => levelDrive d.card.c2
  | .crdC3 => if d.card.clk then .active else .low
  | .crdC7 => if d.crdActive then .active else levelDrive (d.card.data.testBit 0)
  | .crdC4 => if d.crdActive && d.slot == 5 then .active else levelDrive (d.card.data.testBit 1)
  | .crdC8 => if d.crdActive && d.slot == 5 then .active else levelDrive (d.card.data.testBit 2)
  | .crdC6 => if d.crdActive && d.slot == 5 then .active else levelDrive (d.card.data.testBit 3)
  | .ddrResetN => levelDrive d.boot.dramArmed
  | .pcieTx => if d.is F.PCI_STATUS_DL_UP then .active else .idle
  | .claspTx p => if d.portState p == 2 && !(p == 3 && d.is F.PAIR_STATUS_ASLEEP) then .active else .idle
  | b => ballReset b

/-- The instruction of the test port that is in force (R58, case 7 of chapter 02): a loaded EXTEST acts as BYPASS while RESET_N is high. -/
def Aon.tapInForce (a : Aon) : TapIr := if a.tap = .extest && a.resetN then .bypass else a.tap

/-- Whether the boundary-scan chain has a cell for a ball: those of the banks AON, MCH and CRD (R57). -/
def ballInChain (b : Ball) : Bool :=
  match ballBank b with
  | .aon | .mch | .crd => true
  | _ => false

/-- Whether the block can drive a ball at all; the others are inputs (R48). -/
def ballIsOutput (b : Ball) : Bool :=
  match ballReset b with
  | .input => false
  | _ => match b with | .strap _ => false | _ => true

/-- What an EXTEST in force drives on a ball: its cell, low where nothing has been preloaded (R58, log entry 53). -/
def Aon.cellDrive (a : Aon) (b : Ball) : Drive := levelDrive ((a.cells.find? fun c => c.1 == b).any (·.2))

/-- What the block's own logic puts on a ball whose pads have their supply: the brown-out state once the balls have been released
(R48, R54), except the locket's flash while a program of it runs on, the reset state while the domain behind the bank is unpowered or
in reset (R47, R59), and otherwise the level of its block. -/
def State.logicDrive (s : State) (b : Ball) : Drive :=
  let now := match ballBank b with
    | .aon | .tst => s.aonLevel b
    | _ => if s.periRuns then s.dev.periLevel b else ballReset b
  if s.aon.ballsReleased && !(now == .active && ballBank b == .aon) then ballBrown now b else now

/-- What stands on a ball (R47–R49, R52, R58): nothing without its pad supply, its reset state while TEST_EN is high, the boundary-scan
cell while EXTEST is in force, and else what the block's logic gives it. -/
def State.drive (s : State) (b : Ball) : Drive :=
  if !s.aon.padOk (ballBank b) then .off
  else if s.aon.testEn then ballReset b
  else if ballIsOutput b && ballInChain b && s.aon.tapInForce == .extest then s.aon.cellDrive b
  else s.logicDrive b

/-- The balls of the boundary-scan chain, in an order of the model's own (R57, log entry 53). -/
def scanBalls : List Ball :=
  List.flatten [[.ref25, .resetN, .perstN, .faultN, .thermtripN], (List.range 24).map Ball.seqEn, (List.range 24).map Ball.seqPg,
    [.pmbScl 0, .pmbSda 0, .pmbAlertN 0, .pmbScl 1, .pmbSda 1, .pmbAlertN 1, .spiClk, .spiCsN], (List.range 4).map Ball.spiIo,
    (List.range 8).map Ball.strap, [.tbQa, .tbQb, .tbQz, .tbLine, .tbMains, .tbPulse], (List.range 4).map Ball.gate,
    (List.range 10).map Ball.vpA, [.vpCsN, .vpOeN], (List.range 16).map Ball.vpD,
    [.crdVccEn, .crdClass 0, .crdClass 1, .crdDir, .crdC2, .crdC3, .crdC4, .crdC6, .crdC7, .crdC8, .crdOcN, .crdDet]]

/-- The level that a cell captures: what the block drives, or else the level that stands on the ball from outside. -/
def State.sampled (s : State) (levels : List (Ball × Bool)) (b : Ball) : Bool :=
  match s.drive b with
  | .high => true
  | .low => false
  | _ => (levels.find? fun e => e.1 == b).any (·.2)

/-- JTAG_SAMPLE_PRELOAD (R57): every cell captures the level of its ball, what was captured is shifted out, and the cells that are
shifted in are preloaded for an EXTEST. -/
def State.samplePreload (s : State) (levels cells : List (Ball × Bool)) : State :=
  let cap := scanBalls.map fun b => (b, s.sampled levels b)
  s.onAon fun a => { a with tap := .sample, tapOut := 0, captured := cap, sent := a.sent ++ [.scan cap],
                            cells := cells.filter fun c => scanBalls.contains c.1 }

end Sys2Proof.Machine
end

