-- ==== Sys2Proof/Machine/Special.lean ====
section
/-! DEFINITION. binary32 arithmetic of the vector unit and its special functions, each computed exactly and rounded once
(R341, R347, R349). A result is a pattern and a mask of causes: 1 INVALID, 2 DIVZERO, 4 OVERFLOW, 8 UNDERFLOW, 16 INEXACT.
Irrational results are rounded from an enclosure of 768 fraction bits; one it does not decide is a free value (log entry 13). -/

namespace Sys2Proof.Machine

/-- A binary32 pattern and the causes it raises. -/
abbrev VR := Nat × Nat

/-- The quiet NaN of the vector unit. -/
def qnan : Nat := 0x7FC00000
/-- The causes of a rounding. -/
def Rnd.causes (r : Rnd) : Nat := (if r.ovf then 4 else 0) + (if r.unf then 8 else 0) + (if r.inexact then 16 else 0)
/-- Rounds a non-zero exact value to binary32. -/
def vround (r : Rt) : VR := let x := b32.round r; (x.p, x.causes)
/-- Rounds an exact sum: an exact zero takes the sign given. -/
def vsum (r : Rt) (negZero : Bool) : VR := if r.isZero then (b32.zeroBits negZero, 0) else vround r
/-- The NaN result of operands, INVALID if one of them signals. -/
def vnan (l : List Num) : VR := (qnan, if l.any Num.isSnan then 1 else 0)
/-- The pattern of a value that binary32 holds exactly; `p` is the pattern it came from. -/
def vkeep (v : Num) (p : Nat) : Nat :=
  match v with
  | .zero s => b32.zeroBits s
  | .nan _ => qnan
  | _ => p

/-- The exact real value of a zero or finite value. -/
def Num.real : Num → Rt
  | .fin r => r
  | _ => ⟨0, 1⟩

/-! ### Lane arithmetic (R341) -/

/-- The sum of two values. -/
def addNum (x y : Num) : VR :=
  match x, y with
  | .nan _, _ => vnan [x, y]
  | _, .nan _ => vnan [x, y]
  | .inf s, .inf t => if s = t then (b32.infBits s, 0) else (qnan, 1)
  | .inf s, _ => (b32.infBits s, 0)
  | _, .inf t => (b32.infBits t, 0)
  | _, _ => vsum (x.real.add y.real) (x.neg && y.neg)

/-- The value with its sign changed. -/
def Num.negate : Num → Num
  | .zero s => .zero !s
  | .fin r => .fin r.neg
  | .inf s => .inf !s
  | .nan b => .nan b

/-- VADD. -/
def vadd (a b : Nat) : VR := addNum (b32.value a) (b32.value b)
/-- VSUB. -/
def vsub (a b : Nat) : VR := addNum (b32.value a) (b32.value b).negate

/-- Whether a product is zero by infinity. -/
def zeroInf (x y : Num) : Bool :=
  match x, y with
  | .zero _, .inf _ => true
  | .inf _, .zero _ => true
  | _, _ => false

/-- VMUL. -/
def vmul (a b : Nat) : VR :=
  let x := b32.value a
  let y := b32.value b
  if zeroInf x y then (qnan, 1) else
  match x.mul y with
  | .nan _ => vnan [x, y]
  | .inf s => (b32.infBits s, 0)
  | .zero s => (b32.zeroBits s, 0)
  | .fin r => vround r

/-- The fused a × b + c, one rounding. -/
def vfma (a b c : Nat) : VR :=
  let x := b32.value a
  let y := b32.value b
  let z := b32.value c
  if zeroInf x y then (qnan, 1) else
  match x.mul y, z with
  | .nan _, _ => vnan [x, y, z]
  | _, .nan _ => vnan [x, y, z]
  | .inf s, .inf t => if s = t then (b32.infBits s, 0) else (qnan, 1)
  | .inf s, _ => (b32.infBits s, 0)
  | _, .inf t => (b32.infBits t, 0)
  | p, _ => vsum (p.real.add z.real) (p.neg && z.neg)

/-- Whether `x` orders below `y`; -0 below +0 when `zeros`. Neither is a NaN. -/
def numLt (x y : Num) (zeros : Bool) : Bool :=
  match x, y with
  | .inf s, .inf t => s && !t
  | .inf s, _ => s
  | _, .inf t => !t
  | .zero s, .zero t => zeros && s && !t
  | _, _ => x.real.lt y.real

/-- IEEE 754-2019 maximum or minimum, and their Number forms (R347). -/
def vmaxmin (isMax number : Bool) (a b : Nat) : VR :=
  let x := b32.value a
  let y := b32.value b
  let fl := if x.isSnan || y.isSnan then 1 else 0
  if x.isNan || y.isNan then
    if number && !x.isNan then (vkeep x a, fl)
    else if number && !y.isNan then (vkeep y b, fl)
    else (qnan, fl)
  else
    let pickB := if isMax then numLt x y true else numLt y x true
    (if pickB then vkeep y b else vkeep x a, fl)

/-- A VCMP predicate and its causes (R347). -/
def vcmp (pred a b : Nat) : Bool × Nat :=
  let x := b32.value a
  let y := b32.value b
  let un := x.isNan || y.isNan
  let sn := x.isSnan || y.isSnan
  let lt := !un && numLt x y false
  let gt := !un && numLt y x false
  let r := match pred with
    | 0 => !un && !lt && !gt
    | 1 => un || lt || gt
    | 2 => lt
    | 3 => !un && !gt
    | 4 => gt
    | 5 => !un && !lt
    | 6 => un
    | _ => !un
  (r, if sn || (un && 2 ≤ pred && pred ≤ 5) then 1 else 0)

/-- VDIV (IEEE 754-2019 division). -/
def vdiv (a b : Nat) : VR :=
  let x := b32.value a
  let y := b32.value b
  let s := x.neg != y.neg
  match x, y with
  | .nan _, _ => vnan [x, y]
  | _, .nan _ => vnan [x, y]
  | .inf _, .inf _ => (qnan, 1)
  | .zero _, .zero _ => (qnan, 1)
  | .inf _, _ => (b32.infBits s, 0)
  | _, .inf _ => (b32.zeroBits s, 0)
  | .zero _, _ => (b32.zeroBits s, 0)
  | _, .zero _ => (b32.infBits s, 2)
  | .fin p, .fin q =>
    let r : Rt := ⟨p.n * q.d, p.d * q.n.natAbs⟩
    vround (if q.n < 0 then r.neg else r)

/-! ### Enclosures -/

/-- Fraction bits of an enclosure. -/
def encBits : Nat := 768
/-- One, as an enclosure holds it. -/
def encOne : Nat := 2 ^ 768

/-- An enclosure: its ends in units of 2^-768. -/
structure Iv where
  lo : Int
  hi : Int
deriving DecidableEq, Repr

/-- A rational, rounded down to the grid of enclosures. -/
def Rt.grid (r : Rt) : Int := (r.n * encOne) / r.d

/-- The sum of y^n / n! from its term `t` of index `n - 1` on, rounded down. -/
def expSum (y : Nat) : Nat → Nat → Nat → Nat
  | 0, _, _ => 0
  | f + 1, n, t => t + expSum y f (n + 1) (t * y / (encOne * n))

/-- Squares an enclosure of a positive value `k` times. -/
def sqTimes : Nat → Nat → Nat → Nat × Nat
  | 0, lo, hi => (lo, hi)
  | k + 1, lo, hi => sqTimes k (lo * lo / encOne) (hi * hi / encOne + 1)

/-- An enclosure of e^a for a from 0 to 256 in grid units. -/
def expUp (a : Nat) : Nat × Nat :=
  let y := a / 1024
  sqTimes 10 (expSum y 200 1 encOne) (expSum (y + 1) 200 1 encOne + 1000)

/-- An enclosure of e^x for x between `lo` and `hi`. -/
def Iv.exp (x : Iv) : Iv :=
  let lo := if 0 ≤ x.lo then ((expUp x.lo.toNat).1 : Int) else (encOne * encOne / (expUp (-x.lo).toNat).2 : Nat)
  let hi := if 0 ≤ x.hi then ((expUp x.hi.toNat).2 : Int) else (encOne * encOne / (expUp (-x.hi).toNat).1 + 1 : Nat)
  ⟨lo, hi⟩

/-- The sum of z^(2k+1) / (2k+1), rounded down. -/
def atanhSum (z2 : Nat) : Nat → Nat → Nat → Nat
  | 0, _, _ => 0
  | f + 1, k, p => p / (2 * k + 1) + atanhSum z2 f (k + 1) (p * z2 / encOne)

/-- An enclosure of artanh(n/d), n/d from 0 to 1/3. -/
def atanhIv (n d : Nat) : Iv :=
  let z := n * encOne / d
  let s := atanhSum (z * z / encOne) 300 0 z
  ⟨s, s + 2000⟩

/-- An enclosure of ln 2. -/
def ln2Iv : Iv := let a := atanhIv 1 3; ⟨2 * a.lo, 2 * a.hi⟩

/-- An enclosure of ln r, r positive. -/
def lnIv (r : Rt) : Iv :=
  let n := r.n.natAbs
  let t := flog2 n r.d
  let (n, d) := if 0 ≤ t then (n, r.d * 2 ^ t.toNat) else (n * 2 ^ (-t).toNat, r.d)
  let a := atanhIv (n - d) (n + d)
  let (l, h) := if 0 ≤ t then (t * ln2Iv.lo, t * ln2Iv.hi) else (t * ln2Iv.hi, t * ln2Iv.lo)
  ⟨l + 2 * a.lo, h + 2 * a.hi⟩

/-- The sum of (-1)^n / ((2n+1) k^(2n+1)), near enough. -/
def atanInv (k2 : Nat) : Nat → Nat → Nat → Int
  | 0, _, _ => 0
  | f + 1, n, p => (p / (2 * n + 1) : Nat) - atanInv k2 f (n + 1) (p / k2)

/-- An enclosure of pi, by Machin's formula. -/
def piIv : Iv :=
  let v := 16 * atanInv 25 400 0 (encOne / 5) - 4 * atanInv (239 * 239) 400 0 (encOne / 239)
  ⟨v - 100000, v + 100000⟩

/-- The integer square root, bit by bit from bit `k - 1` down. -/
def isqrtFrom (n : Nat) : Nat → Nat → Nat
  | 0, r => r
  | k + 1, r => if (r + 2 ^ k) * (r + 2 ^ k) ≤ n then isqrtFrom n k (r + 2 ^ k) else isqrtFrom n k r

/-- The integer square root. -/
def isqrt (n : Nat) : Nat := isqrtFrom n (Nat.log2 n / 2 + 1) 0

/-- The terms of the sum of w^n / (2n+1)!!, bounded below and above. -/
def erfSum (w : Nat) : Nat → Nat → Nat → Nat → Nat × Nat
  | 0, _, _, _ => (0, 0)
  | f + 1, n, tl, th =>
    let r := erfSum w f (n + 1) (tl * w / (encOne * (2 * n + 3))) (th * (w + 1) / (encOne * (2 * n + 3)) + 1)
    (tl + r.1, th + r.2)

/-- An enclosure of erf(√(w/2)), w positive and at most 256. -/
def erfIv (w : Rt) : Iv :=
  let g := w.grid.toNat
  let s := erfSum g 1200 0 encOne encOne
  let e := Iv.exp ⟨-((g : Int) + 1) / 2 - 1, -(g : Int) / 2 + 1⟩
  let c := isqrt (2 * g * encOne * encOne / piIv.hi.toNat)
  let c' := isqrt (2 * (g + 1) * encOne * encOne / piIv.lo.toNat) + 1
  let lo := c * e.lo.toNat / encOne * s.1 / encOne
  let hi := (c' * e.hi.toNat / encOne + 1) * (s.2 + 1000) / encOne + 1
  ⟨lo, hi⟩

/-- Rounds the irrational value of an enclosure: both ends agree, or the result is a free value. -/
def Iv.round (x : Iv) (fn p : Nat) : VR :=
  let a := b32.round ⟨x.lo, encOne⟩
  let b := b32.round ⟨x.hi, encOne⟩
  if x.lo != 0 && x.hi != 0 && a.p == b.p then (a.p, { a with inexact := true }.causes)
  else ((Config.freeResult fn p).toNat, 16)

/-! ### Special functions (R349) -/

/-- The result of a function that overflows. -/
def ovfResult : VR := (b32.infBits false, 20)
/-- The result of a function whose non-zero value lies below the normal range. -/
def unfResult (neg : Bool) : VR := (b32.zeroBits neg, 24)

/-- Whether a real value is at least the integer `k`. -/
def Rt.ge (r : Rt) (k : Int) : Bool := decide (k * r.d ≤ r.n)
/-- Whether a real value is at most the integer `k`. -/
def Rt.le (r : Rt) (k : Int) : Bool := decide (r.n ≤ k * r.d)
/-- The enclosure of a rational. -/
def Rt.iv (r : Rt) : Iv := ⟨r.grid, r.grid + 1⟩

/-- EXP. -/
def sfExp (p : Nat) : VR :=
  match b32.value p with
  | .nan s => (qnan, if s then 1 else 0)
  | .inf s => (if s then 0 else b32.infBits false, 0)
  | .zero _ => (0x3F800000, 0)
  | .fin r => if r.ge 256 then ovfResult else if r.le (-256) then unfResult false else r.iv.exp.round 0 p

/-- EXP2. -/
def sfExp2 (p : Nat) : VR :=
  match b32.value p with
  | .nan s => (qnan, if s then 1 else 0)
  | .inf s => (if s then 0 else b32.infBits false, 0)
  | .zero _ => (0x3F800000, 0)
  | .fin r =>
    if r.ge 256 then ovfResult
    else if r.le (-256) then unfResult false
    else if r.n % r.d == 0 then vround (Rt.dy 1 (r.n / r.d))
    else
      let l := ln2Iv
      let x : Iv := if r.n < 0 then ⟨r.n * l.hi / r.d - 1, r.n * l.lo / r.d + 1⟩ else ⟨r.n * l.lo / r.d, r.n * l.hi / r.d + 1⟩
      x.exp.round 1 p

/-- The special values that LOG and LOG2 share; `f` gives the result of a positive value. -/
def logWith (p : Nat) (f : Rt → VR) : VR :=
  match b32.value p with
  | .nan s => (qnan, if s then 1 else 0)
  | .inf s => if s then (qnan, 1) else (b32.infBits false, 0)
  | .zero _ => (b32.infBits true, 2)
  | .fin r => if r.isNeg then (qnan, 1) else f r

/-- LOG. -/
def sfLog (p : Nat) : VR := logWith p fun r => if r.eq ⟨1, 1⟩ then (0, 0) else (lnIv r).round 2 p

/-- A power of two, by its exponent. -/
def Rt.pow2? (r : Rt) : Option Int :=
  let t := flog2 r.n.natAbs r.d
  if r.eq (Rt.dy 1 t) then some t else none

/-- LOG2. -/
def sfLog2 (p : Nat) : VR := logWith p fun r =>
  match r.pow2? with
  | some t => if t = 0 then (0, 0) else vround ⟨t, 1⟩
  | none =>
    let a := lnIv r
    let l := ln2Iv
    let x : Iv := if 0 ≤ a.lo then ⟨a.lo * encOne / l.hi, a.hi * encOne / l.lo + 1⟩
      else ⟨a.lo * encOne / l.lo - 1, a.hi * encOne / l.hi + 1⟩
    x.round 3 p

/-- RCP. -/
def sfRcp (p : Nat) : VR :=
  match b32.value p with
  | .nan s => (qnan, if s then 1 else 0)
  | .inf s => (b32.zeroBits s, 0)
  | .zero s => (b32.infBits s, 2)
  | .fin r => vround ⟨if r.n < 0 then -(r.d : Int) else r.d, r.n.natAbs⟩

/-- The square root of `n / d`, with one more bit that says whether it is exact. -/
def sqrtRt (n d : Nat) : Rt :=
  let x := n * 4 ^ 256 / d
  let r := isqrt x
  ⟨(2 * r + (if r * r * d == n * 4 ^ 256 then 0 else 1) : Nat), 2 ^ 257⟩

/-- RSQRT. -/
def sfRsqrt (p : Nat) : VR :=
  match b32.value p with
  | .nan s => (qnan, if s then 1 else 0)
  | .inf s => if s then (qnan, 1) else (0, 0)
  | .zero s => (b32.infBits s, 2)
  | .fin r => if r.isNeg then (qnan, 1) else vround (sqrtRt r.d r.n.natAbs)

/-- SQRT. -/
def sfSqrt (p : Nat) : VR :=
  match b32.value p with
  | .nan s => (qnan, if s then 1 else 0)
  | .inf s => if s then (qnan, 1) else (b32.infBits false, 0)
  | .zero s => (b32.zeroBits s, 0)
  | .fin r => if r.isNeg then (qnan, 1) else vround (sqrtRt r.n.natAbs r.d)

/-- The magnitude of a value. -/
def Rt.abs (r : Rt) : Rt := ⟨r.n.natAbs, r.d⟩
/-- One, with a sign, not exactly. -/
def oneResult (neg : Bool) : VR := (if neg then 0xBF800000 else 0x3F800000, 16)
/-- Gives an enclosure of a magnitude the sign of the result. -/
def Iv.signed (x : Iv) (neg : Bool) : Iv := if neg then ⟨-x.hi, -x.lo⟩ else x
/-- The quotient of two enclosures of positive values. -/
def Iv.quot (a b : Iv) : Iv := ⟨a.lo * encOne / b.hi, a.hi * encOne / b.lo + 1⟩

/-- TANH. -/
def sfTanh (p : Nat) : VR :=
  match b32.value p with
  | .nan s => (qnan, if s then 1 else 0)
  | .inf s => ((oneResult s).1, 0)
  | .zero s => (b32.zeroBits s, 0)
  | .fin r =>
    let a := r.abs
    if a.ge 32 then oneResult r.isNeg
    else
      let e := (Rt.iv ⟨-2 * a.n, a.d⟩).exp
      let num : Iv := ⟨encOne - e.hi, encOne - e.lo⟩
      let den : Iv := ⟨encOne + e.lo, encOne + e.hi⟩
      ((num.quot den).signed r.isNeg).round 8 p

/-- SIGMOID. -/
def sfSigmoid (p : Nat) : VR :=
  match b32.value p with
  | .nan s => (qnan, if s then 1 else 0)
  | .inf s => if s then (0, 0) else (0x3F800000, 0)
  | .zero _ => (0x3F000000, 0)
  | .fin r =>
    if r.ge 64 then oneResult false
    else if r.le (-256) then unfResult false
    else
      let e := r.neg.iv.exp
      (Iv.quot ⟨encOne, encOne⟩ ⟨encOne + e.lo, encOne + e.hi⟩).round 9 p

/-- ERF. -/
def sfErf (p : Nat) : VR :=
  match b32.value p with
  | .nan s => (qnan, if s then 1 else 0)
  | .inf s => ((oneResult s).1, 0)
  | .zero s => (b32.zeroBits s, 0)
  | .fin r =>
    if r.abs.ge 10 then oneResult r.isNeg
    else ((erfIv (Rt.mul ⟨2, 1⟩ (r.mul r))).signed r.isNeg).round 10 p

/-- GELU. -/
def sfGelu (p : Nat) : VR :=
  match b32.value p with
  | .nan s => (qnan, if s then 1 else 0)
  | .inf s => if s then (b32.zeroBits true, 0) else (b32.infBits false, 0)
  | .zero s => (b32.zeroBits s, 0)
  | .fin r =>
    if r.ge 15 then (p, 16)
    else if r.le (-15) then unfResult true
    else
      let e := erfIv (r.mul r)
      let f : Iv := if r.isNeg then ⟨encOne - e.hi, encOne - e.lo⟩ else ⟨encOne + e.lo, encOne + e.hi⟩
      let a := r.abs
      let g : Iv := ⟨f.lo * a.n / (2 * a.d : Nat), f.hi * a.n / (2 * a.d : Nat) + 1⟩
      (g.signed r.isNeg).round 11 p

/-- The special function AUX of VA, or of VA and VB (R349). -/
def special (aux a b : Nat) : VR :=
  match aux with
  | 0 => sfExp a
  | 1 => sfExp2 a
  | 2 => sfLog a
  | 3 => sfLog2 a
  | 4 => sfRcp a
  | 5 => sfRsqrt a
  | 6 => sfSqrt a
  | 7 => vdiv a b
  | 8 => sfTanh a
  | 9 => sfSigmoid a
  | 10 => sfErf a
  | _ => sfGelu a

end Sys2Proof.Machine
end

