-- ==== Sys2Proof/Machine/Power.lean ====
section
/-! DEFINITION. Power cap, allocator and thermal control (chapter 16), and the shutters (R20, R364). -/

namespace Sys2Proof.Machine

/-! ### Points and voltages (R361) -/

/-- The frequency of a point in units of 10 MHz. -/
def pointF (k : Nat) : Nat := [40, 45, 50, 60, 70, 80, 90, 100, 105, 110, 115, 120, 125, 130, 135, 140].getD k 0

/-- The voltage of a code in mV. -/
def codeMv (c : Nat) : Nat := 595 + 5 * c

/-- Whether voltage group `g` takes part: the CORE domain, or a grid row with a shutter open or waking. -/
def Dev.groupOn (d : Dev) (g : Nat) : Bool := g == 4 || (List.range 4).any fun j => (d.tile (4 * g + j)).shutter != .closed

/-- The codes that point `k` needs, over the groups that take part and group `extra`. -/
def Dev.codesAt (d : Dev) (extra k : Nat) : List Nat :=
  ((List.range 5).filter fun g => d.groupOn g || g == extra).map fun g => d.rd (F.PWR_VF_VCODE (16 * g + k))

/-- Vreq(k), as a code. -/
def Dev.vreq (d : Dev) (k : Nat) : Nat := (d.codesAt 4 k).foldl max 0

/-- Whether point `k` is usable. -/
def Dev.usable (d : Dev) (k : Nat) : Bool := (d.codesAt 4 k).all fun c => c != 0

/-- The highest point below `n` that meets `p`, 0 where there is none. -/
def topPoint (p : Nat → Bool) : Nat → Nat
  | 0 => 0
  | n + 1 => if p n then n else topPoint p n

/-! ### What is shown (R363, R375, R380, R381) -/

/-- The cap trim as a demand: in repeatable mode only while the cap is exceeded (R381). -/
def Dev.trimDemand (d : Dev) : Nat := if d.is F.PWR_CTRL_REPEAT && !d.pwr.exceeded then 64 else d.pwr.trim

/-- The effective louvre (R363). -/
def Dev.louvre (d : Dev) : Nat := min (min d.pwr.droop d.pwr.edc) (min d.pwr.thermal d.trimDemand)

/-- The value the cap and, outside repeatable mode, the allocator put on the point. -/
def Dev.capPoint (d : Dev) : Nat := if d.is F.PWR_CTRL_REPEAT then d.pwr.kcap else min d.pwr.kcap d.pwr.kwant

/-- The point that no reason holds down. -/
def Dev.basePoint (d : Dev) : Nat :=
  let u := topPoint d.usable 16
  if d.is F.PWR_CTRL_REPEAT then min u d.pwr.kwant else u

/-- The current reason (R380): the first that holds the point or the louvre below what the next constraint down allows. -/
def Dev.reason (d : Dev) : Nat :=
  let p := d.pwr
  let pLs := d.basePoint
  let pHost := min pLs (d.rd F.PWR_MC_CEIL)
  let pCap := min pHost (d.rd F.PWR_CTRL_HOST_FMAX)
  let pEdc := min pCap d.capPoint
  let pTh := min pEdc p.kedc
  let lEdc := min 64 d.trimDemand
  let lTh := min lEdc p.edc
  if p.droop < min lTh p.thermal then 4
  else if p.kthermal < pTh || p.thermal < lTh then 2
  else if p.kedc < pEdc || p.edc < lEdc then (if d.rd F.PWR_STATUS_PH_LOST = 0 then 3 else 7)
  else if d.capPoint < pCap || d.trimDemand < 64 || p.moverThr < 64 || p.linkThr < 64 then 1
  else if d.rd F.PWR_CTRL_HOST_FMAX < pHost then 5
  else if d.rd F.PWR_MC_CEIL < pLs then 6
  else 0

/-- REPEAT_HELD (R381). -/
def Dev.repeatHeld (d : Dev) : Bool :=
  d.is F.PWR_CTRL_REPEAT && d.rd F.PWR_STATUS_POINT == d.rd F.PWR_FUSE_REPEAT_IDX && d.louvre == 64 && d.pwr.moverThr == 64 &&
    d.pwr.linkThr == 64

/-- Shows the louvre, the reason and REPEAT_HELD, with what their changes raise (R380, R381). -/
def Dev.showPower (d : Dev) : Dev :=
  let r := d.reason
  let was := d.is F.PWR_STATUS_REPEAT_HELD
  let d' := d.wrs [(F.PWR_STATUS_LOUVRE, d.louvre), (F.PWR_STATUS_REASON, r), (F.PWR_STATUS_REPEAT_HELD, if d.repeatHeld then 1 else 0)]
  let d' := if d.rd F.PWR_STATUS_REASON = r then d' else d'.irq 70
  if was && !d.repeatHeld && d.is F.PWR_CTRL_REPEAT then d'.postInfo 43 0x1603 r else d'

/-- EDC_LIM for the present phases (R375). -/
def Dev.showEdcLim (d : Dev) : Dev :=
  let n := d.rd F.PWR_EDC_PHASES + 1
  d.wr F.PWR_EDC_EDC_LIM (d.rd F.PWR_EDC_EDC_A * (n - d.rd F.PWR_STATUS_PH_LOST) / n)

/-- Phases newly lost (R93, R376): each increments m and posts PHASE_LOSS. -/
def Dev.losePhases (d : Dev) : List Nat → Dev
  | [] => d
  | p :: ps =>
    let m := min (d.pwr.lost.length + 1) (d.rd F.PWR_EDC_PHASES + 1)
    let d := { d with pwr := { d.pwr with lost := d.pwr.lost ++ [p] } }
    (((d.wr F.PWR_STATUS_PH_LOST m).showEdcLim).postInfo 43 0x1601 m).losePhases ps

/-! ### Sensing (R365, R366) -/

/-- The channels whose telemetry counts: in PWR_RAILS, with SEQ_RAIL_PMB.EN. -/
def State.telemChans (s : State) : List Nat :=
  (maskList 24 (s.dev.rd F.PWR_RAILS_MASK)).filter fun n => s.aon.is (F.SEQ_RAIL_PMB_EN n)

/-- Whether sensing fails whatever κ is. -/
def State.senseGone (s : State) : Bool := s.telemChans.isEmpty || s.aon.degraded (s.aon.busOf 6)

/-- SENSE_FAIL takes a value; while it is 1, κ is 1 (R366). -/
def Dev.setSense (d : Dev) (fail : Bool) : Dev :=
  let was := d.is F.PWR_STATUS_SENSE_FAIL
  let d := d.wr F.PWR_STATUS_SENSE_FAIL (if fail then 1 else 0)
  let d := if fail then { d with pwr := { d.pwr with kappaN := 1, kappaD := 1 } } else d
  if fail && !was then d.postInfo 43 0x1602 0 else d

/-- A telemetry poll ends (R365, R366). The units of READ_VOUT and READ_IOUT are the regulator's, so the power they give is a free
value (log entry 29). -/
def State.kappaPoll (s : State) : State :=
  let (p, d) := s.dev.fresh
  let w := d.pwr
  let p := p % 2 ^ 20
  if w.modelCnt = 0 || w.modelSum = 0 then s
  else
    let n := p * w.modelCnt
    let ok := decide (w.modelSum ≤ 2 * n) && decide (n ≤ 2 * w.modelSum)
    let bad := if ok then 0 else w.badPolls + 1
    let good := if ok && !s.senseGone then w.goodPolls + 1 else 0
    let w := { w with kappaN := n, kappaD := w.modelSum, modelSum := 0, modelCnt := 0, badPolls := bad, goodPolls := good }
    let d := { d with pwr := w }
    let fail := s.senseGone || decide (3 ≤ bad) || (d.is F.PWR_STATUS_SENSE_FAIL && good < 10)
    { s with dev := (d.setSense fail).showPower }

/-- The effective cap in mW (R366). -/
def Dev.effCap (d : Dev) : Nat := d.rd F.PWR_CAP_CAP_W * (if d.is F.PWR_STATUS_SENSE_FAIL then 800 else 1000)

/-! ### Phase tags and prediction (R368–R372) -/

/-- r(k) at a voltage code, in binary32 (R368). -/
def scaleR (k c : Nat) : Rt := (b32.value (b32.round ⟨(pointF k * codeMv c * codeMv c : Nat), 125 * 562500⟩).p).real

/-- The entry of tag `t`. -/
def Dev.tag (d : Dev) (t : Nat) : Tag := (fget d.pwr.tags t).getD {}
/-- Sets the entry of tag `t`. -/
def Dev.setTag (d : Dev) (t : Nat) (x : Tag) : Dev :=
  { d with pwr := { d.pwr with tags := if x = {} then fdel d.pwr.tags t else fset d.pwr.tags t x } }

/-- Whether a tag's hint is trusted. -/
def Tag.trusted (x : Tag) : Bool := x.hinted && !x.overridden

/-- A learned value after a sample `o` (R369). -/
def learn (first : Bool) (v o : Nat) : Nat := if first then o else ((v : Int) + ((o : Int) - v).fdiv 8).toNat

/-- A rational rounded to the nearest integer, not negative. -/
def Rt.mw (r : Rt) : Nat := nearest r.n.natAbs r.d

/-- The core share of a tag per tile, at reference scale (R368); with no tile running it the spec states none: a free value. -/
def Dev.coreShare (d : Dev) (core tiles : Nat) : Nat × Dev :=
  let r := scaleR (d.rd F.PWR_STATUS_POINT) (d.vreq (d.rd F.PWR_STATUS_POINT))
  if tiles = 0 then let (v, d) := d.fresh; (v % 2 ^ 20, d)
  else (nearest (core * r.d) (r.n.natAbs * tiles), d)

/-- A power `p` in mW shared in proportion: the part of `n` among `all`, to the nearest mW; nothing where nothing is counted. -/
def shareMw (p n all : Nat) : Nat := if all = 0 then 0 else nearest (p * n) all

/-- The end of an interval for one tag, whose parts of the power `hat` are shared among all `tags` (R368, R369, R372). -/
def Dev.tagInterval (hat : PowerParts) (tags : List TagShare) (d : Dev) (x : TagShare) : Dev :=
  if !x.steady then d
  else
    let (oc, d) := d.coreShare (shareMw hat.core x.act (tags.map (·.act)).sum) x.tiles
    let mem := shareMw hat.mem x.bytes (tags.map (·.bytes)).sum
    let link := shareMw hat.link x.flits (tags.map (·.flits)).sum
    let t := d.tag x.tag
    let first := t.count == 0
    let total := oc * x.tiles + mem + link
    let t := { t with dc := learn first t.dc oc, dm := learn first t.dm mem, dl := learn first t.dl link, count := min (t.count + 1) 4095 }
    if !t.trusted then d.setTag x.tag t
    else if 4 * (t.hint - total + (total - t.hint)) ≤ t.hint then d.setTag x.tag { t with misses := 0 }
    else if t.misses < 2 then d.setTag x.tag { t with misses := t.misses + 1 }
    else (d.setTag x.tag { t with misses := 0, overridden := true }).postInfo 43 0x1600 (x.tag + total * 2 ^ 32)

/-- What a running tag is predicted to draw: core at reference scale, memory and link (R369, R370). -/
def Dev.predTag (d : Dev) (t tiles : Nat) : Nat × Nat × Nat :=
  let x := d.tag t
  if x.trusted then (x.hint - x.dm - x.dl, x.dm, x.dl)
  else if x.count = 0 then (d.rd F.PWR_DEFAULT_TILE_MW * tiles, 0, 0)
  else (x.dc * tiles, x.dm, x.dl)

/-- Whether the prediction for point `k` with throttles `th` is within the effective cap (R370). -/
def Dev.fits (d : Dev) (k th : Nat) : Bool :=
  let ps := d.pwr.running.map fun x => d.predTag x.1 x.2
  let core := (ps.map (·.1)).sum
  let ml := (ps.map fun p => p.2.1 + p.2.2).sum
  let r := scaleR k (d.vreq k)
  let pred := ((⟨core, 1⟩ : Rt).mul r).add ⟨(64 * d.pwr.static + ml * th : Nat), 64⟩
  !(Rt.mk d.effCap 1).lt pred

/-- The lowest usable point. -/
def Dev.lowPoint (d : Dev) : Nat := ((List.range 16).find? d.usable).getD 0

/-- The allocator's choice and the throttles (R370, R381). -/
def Dev.allocate (d : Dev) : Dev :=
  if d.is F.PWR_CTRL_REPEAT then
    { d with pwr := { d.pwr with kwant := d.rd F.PWR_FUSE_REPEAT_IDX, moverThr := 64, linkThr := 64 } }
  else if d.fits d.lowPoint 64 then
    { d with pwr := { d.pwr with kwant := topPoint (fun k => d.usable k && d.fits k 64) 16, moverThr := 64, linkThr := 64 } }
  else
    let th := if d.fits d.lowPoint d.pwr.moverThr then d.pwr.moverThr else max 8 (d.pwr.moverThr - 1)
    { d with pwr := { d.pwr with kwant := d.lowPoint, moverThr := th, linkThr := th } }

/-- POWER_HINT (R371). -/
def execPowerHint (q : Nat) (s : State) : Res := s.nextCore fun d => d.goHead q 0x30 fun d x =>
  let t := d.tag (dTag x)
  let t' := if dfld x 12 0 1 = 1 then { t with hint := 0, hinted := false, overridden := false, misses := 0 }
    else if t.overridden then t
    else { t with hint := dfld x 8 0 32, hinted := true, misses := 0 }
  (d.setTag (dTag x) t').reject q x 0

/-! ### The cap, the limits and the interval (R367, R373, R375, R377, R379, R383) -/

/-- The cap loop at the end of an interval (R367). -/
def Dev.capLoop (d : Dev) (total : Nat) : Dev :=
  let w := (total :: d.pwr.window).take (10 * d.rd F.PWR_CAP_WINDOW)
  let d := d.wr F.PWR_POWER_AVG (min (w.sum / w.length) (2 ^ 20 - 1))
  let p := { d.pwr with window := w, exceeded := decide (d.effCap * w.length < w.sum) }
  let p := if p.exceeded then
      (if 32 < p.trim then { p with trim := max 32 (p.trim - 2) } else { p with kcap := p.kcap - 1 })
    else if 100 * w.sum < 98 * d.effCap * w.length then
      (if p.kcap < 15 then { p with kcap := p.kcap + 1 } else { p with trim := min 64 (p.trim + 1) })
    else p
  { d with pwr := p }

/-- The readings that count as temperatures in quarter degrees: hottest valid sensor and the number of failed ones (R377). -/
def Dev.failed (d : Dev) : Nat := ((List.range 24).filter fun i => d.is (F.PWR_TEMP_FAIL i)).length
/-- The hottest valid reading. -/
def Dev.hottest (d : Dev) : Int := signed 12 (d.rd F.PWR_TMAX_TEMP)

/-- k_thermal at an interval boundary (R377). -/
def Dev.thermalStep (d : Dev) : Dev :=
  let t := d.hottest
  let lim : Int := 4 * d.rd F.PWR_CTRL_THROTTLE_C
  let k := if 420 ≤ t || 4 < d.failed then 0 else if lim ≤ t then d.pwr.kthermal - 1
    else if t < lim - 12 then min 15 (d.pwr.kthermal + 1) else d.pwr.kthermal
  { d with pwr := { d.pwr with kthermal := k } }

/-- k_edc at an interval boundary (R375). -/
def Dev.edcStep (d : Dev) : Dev :=
  let p := d.pwr
  let k := if p.edc < 48 then p.kedc - 1 else if p.edcFull && p.edc == 64 then min 15 (p.kedc + 1) else p.kedc
  { d with pwr := { p with kedc := k, edcFull := p.edc == 64 } }

/-- The sum of the parts. -/
def partsTotal (p : PowerParts) : Nat := p.core + p.mem + p.link + p.static
/-- Part by part. -/
def partsAdd (a b : PowerParts) : PowerParts := ⟨a.core + b.core, a.mem + b.mem, a.link + b.link, a.static + b.static⟩

/-- The parts of the working estimate P̂ over an interval, in mW: κ times the mean of the model (R365). -/
def Dev.hat (d : Dev) : PowerParts :=
  let w := d.pwr
  let (p, n) := if w.ivCnt = 0 then (w.parts, 1) else (w.ivSum, w.ivCnt)
  let f (x : Nat) : Nat := x * w.kappaN / (w.kappaD * n)
  ⟨f p.core, f p.mem, f p.link, f p.static⟩

/-- The energy of a context in an interval, in nJ (R379): mW for 100 µs, by activity, bytes and flits. -/
def ctxNj (hat : PowerParts) (ctxs : List CtxShare) (rest : RestShare) (x : CtxShare) : Nat :=
  let part (p n all : Nat) : Nat := if all = 0 then 0 else 100 * p * n / all
  part hat.core x.act (rest.core + (ctxs.map (·.act)).sum) + part hat.mem x.bytes (rest.bytes + (ctxs.map (·.bytes)).sum) +
    part hat.link x.flits (rest.flits + (ctxs.map (·.flits)).sum)

/-- Credits the energy of an interval (R379): to contexts their parts, the rest to the device, so that the total is kept. -/
def Dev.energy (d : Dev) (hat : PowerParts) (ctxs : List CtxShare) (rest : RestShare) : Dev :=
  let d := ctxs.foldl (fun d x =>
    let c := d.ctx x.ctx
    let n := c.frac + ctxNj hat ctxs rest x
    d.setCtx x.ctx { c with energy := (c.energy + n / 1000) % 2 ^ 64, frac := n % 1000 }) d
  let n := d.pwr.devFrac + (100 * partsTotal hat - (ctxs.map (ctxNj hat ctxs rest)).sum)
  { d with pwr := { d.pwr with devFrac := n % 1000 } }.bump F.PWR_DEV_ENERGY_UJ (n / 1000)

/-- Whether the chip negotiates its ceiling: with other members, or with its pair partner (R383, R384). -/
def Dev.lockstep (d : Dev) : Bool := (d.is F.PWR_CTRL_MC_MODE && d.rd F.PWR_MC_MEMBERS != 0) || d.paired

/-- k_ls from the offers in force (R383). -/
def Dev.ceiling (d : Dev) : Nat := if d.lockstep then (d.pwr.offers.map (·.2)).foldl min 15 else 15

/-- Whether the core voltage can be commanded: not VFROZEN, and VDD_CORE on a PMBus (R378, log entry 30). -/
def State.voltageFree (s : State) : Bool := !s.dev.is F.PWR_STATUS_VFROZEN && s.aon.is (F.SEQ_RAIL_PMB_EN 6)

/-- What this chip alone would allow: min(k_want, k_host, k_safe, highest usable point) (R373, R383). -/
def Dev.offerPoint (d : Dev) : Nat :=
  let p := d.pwr
  min (min p.kwant (topPoint d.usable 16)) (min (min (d.rd F.PWR_CTRL_HOST_FMAX) p.kcap) (min p.kthermal p.kedc))

/-- Sends the offer to the other members and the pair partner (R383, R384, R491). -/
def Dev.sendOffer (d : Dev) (k : Nat) : Dev :=
  if !d.lockstep then d
  else
    let m (c : Nat) : ClaspMsg := { mtype := 0x12, src := d.chip, dst := c, tag := 0, sctx := 0, offset := 0, arg := k, data := [] }
    let d := { d with pwr := { d.pwr with offers := fset d.pwr.offers 16 k } }
    let d := if d.is F.PWR_CTRL_MC_MODE then
        (maskList 16 (d.rd F.PWR_MC_MEMBERS)).foldl (fun d c => if c = d.chip then d else d.claspSend (m c)) d else d
    if d.paired && d.portState 3 == 2 then d.sendOn 3 0 (m (d.rd (F.CLS_PORT_STAT_PEER 3))) else d

/-- Whether a core voltage command has started on its bus. -/
def Aon.coreStarted (a : Aon) : Bool :=
  match (a.bus (a.busOf 6)).txn with
  | some (.coreVoltage _) => true
  | _ => false

/-- Drops a core voltage command that waits for its bus. -/
def Aon.coreDrop (a : Aon) : Aon :=
  let b := a.busOf 6
  let keep : PmbTxn → Bool := fun t => match t with | .coreVoltage _ => false | _ => true
  a.setBus b { a.bus b with wait := (a.bus b).wait.filter keep }

/-- Commands a core voltage in place of one that still waits (R87, R362). -/
def Aon.coreCommand (a : Aon) (c : Nat) : Aon := a.coreDrop.busAdd (a.busOf 6) (.coreVoltage c)

/-- Whether a step has started, so that a new decision does not replace it (R362). -/
def State.stepBusy (s : State) : Bool :=
  match s.dev.pwr.step with
  | .upAck _ _ => s.aon.coreStarted
  | .upSettle _ _ => true
  | _ => false

/-- An upward step that has not started is dropped with its command (R362). -/
def State.stepDrop (s : State) : State :=
  match s.dev.pwr.step with
  | .upAck _ _ => { s with aon := s.aon.coreDrop, dev := { s.dev with pwr := { s.dev.pwr with step := .none } } }
  | _ => s

/-- Takes a decision for point `k` (R362): it replaces a step that has not started. -/
def State.steer (s : State) (k : Nat) : State :=
  let now := s.dev.rd F.PWR_STATUS_POINT
  let code := s.dev.vreq k
  let setStep (s : State) (x : VStep) : State := s.onDev fun d => { d with pwr := { d.pwr with step := x } }
  if s.stepBusy then s
  else
    let s := s.stepDrop
    if k < now then
      setStep (s.onDev fun d => d.wr F.PWR_STATUS_POINT k) (if s.voltageFree then .down code else .none)
    else if now < k then
      if s.voltageFree then setStep (s.onAon fun a => a.coreCommand code) (.upAck k code)
      else s.onDev fun d => d.wr F.PWR_STATUS_POINT k
    else match s.dev.pwr.step with
      | .down _ => setStep s (.down code)
      | _ => s

/-- The point of the next interval (R373, R378). -/
def State.nextPoint (s : State) : Nat :=
  let d := s.dev
  let k := min d.offerPoint (d.rd F.PWR_MC_CEIL)
  topPoint (fun j => decide (j ≤ k) && d.usable j && (s.voltageFree || decide (d.vreq j ≤ d.rd F.PWR_STATUS_VCODE))) 16

/-- POWER_INTERVAL (R367–R383): an interval boundary. -/
def execPowerInterval (tags : List TagShare) (ctxs : List CtxShare) (rest : RestShare) (s : State) : Res := s.inPeri (
  let s := s.onDev fun d =>
    let d := if s.senseGone then d.setSense true else d
    let hat := d.hat
    let d := d.energy hat ctxs rest
    let d := tags.foldl (Dev.tagInterval hat tags) d
    let d := { d with pwr := { d.pwr with ivSum := ⟨0, 0, 0, 0⟩, ivCnt := 0, static := hat.static,
                                          running := tags.map fun (x : TagShare) => (x.tag, x.tiles) } }
    let d := (d.capLoop (partsTotal hat)).thermalStep.edcStep
    let d := d.wr F.PWR_MC_CEIL d.ceiling
    let d := d.allocate
    d.sendOffer d.offerPoint
  .next ((s.steer s.nextPoint).onDev Dev.showPower))

/-- ACTIVITY_MODEL_TICK (R365, R374, R380): the model's estimate of one microsecond, the rise of the droop demand, and the time of
the current reason. -/
def execActivityModelTick (parts : PowerParts) (s : State) : Res := s.nextPeri fun d =>
  let p := d.pwr
  let r := d.rd F.PWR_STATUS_REASON
  let d := if r = 0 then d else d.bump (F.PWR_THR_US r)
  { d with pwr := { p with parts := parts, modelSum := p.modelSum + partsTotal parts, modelCnt := p.modelCnt + 1,
                           ivSum := partsAdd p.ivSum parts, ivCnt := p.ivCnt + 1, droop := if p.droopHeld then p.droop else min 64 (p.droop + 1) } }.showPower

/-- EDC_TICK (R375, R376): with EDC_LIM 0 the demand falls whatever the current. The core share of Ps is not stated, a free value between 0 and Ps (log entry 31). -/
def execEdcTick (s : State) : Res := s.nextPeri fun d =>
  let (x, d) := d.fresh
  let p := d.pwr
  let i := p.kappaN * (p.parts.core + x % (p.parts.static + 1)) * 4
  let lim := d.rd F.PWR_EDC_EDC_LIM * p.kappaD * codeMv (d.rd F.PWR_STATUS_VCODE)
  let p := if lim < i || d.rd F.PWR_EDC_EDC_LIM == 0 then { p with edc := max 8 (p.edc - 8), edcTicks := 0, edcFull := false }
    else if 100 * i < 95 * lim then
      (if p.edcTicks + 1 < 10 then { p with edcTicks := p.edcTicks + 1 } else { p with edcTicks := 0, edc := min 64 (p.edc + 1) })
    else { p with edcTicks := 0 }
  { d with pwr := p }.showPower

/-- DROOP_DETECT (R374). -/
def execDroopDetect (s : State) : Res := s.nextPeri fun d =>
  { d with pwr := { d.pwr with droop := 16, droopHeld := true } }.showPower

/-- DROOP_HOLD_EXPIRE (R374): 5 µs after the recovery the demand begins to rise. -/
def execDroopHoldExpire (s : State) : Res := s.nextPeri fun d => { d with pwr := { d.pwr with droopHeld := false } }

/-- The valid sensors with their readings. -/
def Dev.validTemps (d : Dev) : List (Nat × Int) :=
  ((List.range 24).filter fun i => !d.is (F.PWR_TEMP_FAIL i)).map fun i => (i, signed 12 (d.rd (F.PWR_TEMP_TEMP i)))

/-- The hottest of a list of readings, the lowest-numbered of equals. -/
def hottestOf : List (Nat × Int) → Option (Nat × Int)
  | [] => none
  | x :: l => match hottestOf l with
    | some y => if x.2 < y.2 then some y else some x
    | none => some x

/-- SENSOR_UPDATE (R377). -/
def execSensorUpdate (sensor temp : Nat) (fail : Bool) (s : State) : Res :=
  if 24 ≤ sensor || !s.periRuns then .next s
  else
    let d := s.dev.wrs [(F.PWR_TEMP_FAIL sensor, if fail then 1 else 0), (F.PWR_TEMP_TEMP sensor, temp)]
    let (hot, d) := match hottestOf d.validTemps with
      | some (i, t) => (some (i, t), d.wrs [(F.PWR_TMAX_TEMP, twos 12 t), (F.PWR_TMAX_SENSOR, i)])
      | none => (none, d)
    let d := (List.range 24).foldl (fun d i =>
      if d.is (F.PWR_TEMP_FAIL i) then d.wr (F.PWR_TEMP_TEMP i) (twos 12 (d.hottest + 40)) else d) d
    let hotNow := decide (420 ≤ d.hottest)
    let p := { d.pwr with thermal := if hotNow then 8 else 64, kthermal := if hotNow || 4 < d.failed then 0 else d.pwr.kthermal }
    let aon := match hot with
      | some (i, t) => { s.aon with locket := { s.aon.locket with tmax := twos 16 t, tsensor := i } }
      | none => s.aon
    .next { s with aon := aon, dev := { d with pwr := p }.showPower }

/-- VSETTLE_EXPIRE (R362): the clock switches up. -/
def execVsettleExpire (s : State) : Res := s.nextPeri fun d =>
  match d.pwr.step with
  | .upSettle k _ => ({ d with pwr := { d.pwr with step := .none } }.wr F.PWR_STATUS_POINT k).showPower
  | _ => d

/-- DVFS_VOLTAGE_DOWN (R362): the lower voltage is commanded. -/
def execDvfsVoltageDown (s : State) : Res := s.inPeri (
  match s.dev.pwr.step with
  | .down c =>
    .next { s with aon := if s.voltageFree then s.aon.coreCommand c else s.aon, dev := { s.dev with pwr := { s.dev.pwr with step := .none } } }
  | _ => .next s)

/-- The regulator acknowledges a core voltage (R362, R86). -/
def Dev.coreAck (d : Dev) (c : Nat) : Dev :=
  let d := d.wr F.PWR_STATUS_VCODE c
  match d.pwr.step with
  | .upAck k c' => if c = c' then { d with pwr := { d.pwr with step := .upSettle k c } } else d
  | _ => d

/-- PHASE_RESTORE (R376): m returns to 0 if the sequencer reports every phase healthy. -/
def State.phaseRestore (s : State) : State :=
  if s.aon.lostPhases.isEmpty && s.dev.pwr.pageBad.isEmpty then
    s.onDev fun d => ({ d with pwr := { d.pwr with lost := [] } }.wr F.PWR_STATUS_PH_LOST 0).showEdcLim.showPower
  else s

/-- PHASE_RESTORE. -/
def execPhaseRestore (s : State) (req : Requester := .host 0) : Res := s.atReg req 0x800010 (.next s.phaseRestore)

/-- Whether chip `c` is another member of the lockstep, or the pair partner (R383, R384). -/
def Dev.member (d : Dev) (c : Nat) : Bool :=
  decide (c < 16) && c != d.chip && ((d.is F.PWR_CTRL_MC_MODE && (d.rd F.PWR_MC_MEMBERS).testBit c) ||
    (d.paired && c == d.rd (F.CLS_PORT_STAT_PEER 3)))

/-- OFFER (R383, R491): the current offer of a member or of the pair partner, which rejoins with it. -/
def execOffer (src point : Nat) (s : State) : Res := s.nextPeri fun d =>
  if d.member src then
    { d with pwr := { d.pwr with offers := fset d.pwr.offers src (point % 16), absent := d.pwr.absent.filter (· != src) } }
  else d

/-- LS_MEMBER_LOST (R383): 1 ms without an offer of a member, reported once. -/
def execLsMemberLost (chip : Nat) (s : State) : Res := s.nextPeri fun d =>
  if d.member chip && !d.pwr.absent.contains chip then
    let (x, d) := { d with pwr := { d.pwr with offers := fdel d.pwr.offers chip, absent := chip :: d.pwr.absent } }.fresh
    d.postInfo 43 0x1604 x else d

/-! ### Shutters (R20, R364) -/

/-- SHUTTER_CLOSE (R364): the tile has been unleased for SHUT_IDLE; its state is discarded. -/
def execShutterClose (n : Nat) (s : State) : Res := s.nextCore fun d =>
  if n < 16 && d.rd F.PWR_CTRL_SHUT_IDLE != 0 && !d.is (F.CMD_TILE_LEASED n) && !(d.tile n).clearing && (d.tile n).shutter == .opened then
    d.tileReset n .closed else d

/-- Whether a queue waits for tile `n`: for its head DISPATCH, or to be restored to it (R244, R226). -/
def Dev.wanted (d : Dev) (n : Nat) : Bool :=
  (List.range 64).any fun q =>
    (d.wants q).any (fun m => m.testBit n) ||
      ((d.queue q).pre == .preempted && !(d.ctx (d.qctx q)).hold && (d.queue q).savedLease.testBit n)

/-- SHUTTER_WAKE_START (R364): the voltage is raised first where it is too low, or the point lowered where it cannot be. -/
def execShutterWakeStart (n : Nat) (s : State) : Res := s.inCore (
  let d := s.dev
  let now := d.rd F.PWR_STATUS_POINT
  let need (k : Nat) : Nat := (d.codesAt (n / 4) k).foldl max 0
  let wake (s : State) : State := s.onDev fun d => d.setTile n { d.tile n with shutter := .waking }
  if 16 ≤ n || (d.tile n).shutter != .closed || (d.tile n).clearing || !d.wanted n || s.stepBusy then .next s
  else if need now ≤ d.rd F.PWR_STATUS_VCODE && need now != 0 then .next (wake s)
  else if s.voltageFree && need now != 0 then
    .next ((s.onAon fun a => a.coreCommand (need now)).onDev fun d => { d with pwr := { d.pwr with step := .upAck now (need now) } })
  else
    match (List.range (now + 1)).reverse.find? fun k =>
      (d.codesAt (n / 4) k).all (fun c => c != 0) && decide (need k ≤ d.rd F.PWR_STATUS_VCODE) with
    | some k => .next (wake ((s.onDev fun d => d.wr F.PWR_STATUS_POINT k)))
    | none => .next s)

/-- SHUTTER_WAKE_DONE (R20): tile memory and quire RAM are zero, the registers at their reset values. -/
def execShutterWakeDone (n : Nat) (s : State) : Res := s.nextCore fun d =>
  if (d.tile n).shutter == .waking then
    let d := d.tileReset n .opened
    if d.is (F.CMD_TILE_LEASED n) then d.tryStart (d.tqueue n) else d
  else d

end Sys2Proof.Machine
end

