-- ==== Sys2Proof/Machine/Supervision.lean ====
section
/-! DEFINITION. Supervision: the scan ADC, the PMBus masters, brown-out and thermal trip (chapters 03 and 04). -/

namespace Sys2Proof.Machine

/-! ### Scan ADC (R71, R72, R78, R93, R107, R108) -/

/-- A conversion of the bound input that has raised no fault counts for the verification of a retry attempt (R78). -/
def Aon.verifyStep (a : Aon) (i : Nat) : List Nat → Aon
  | [] => a
  | n :: ns =>
    let r := a.rail n
    match r.retry with
    | .verify (k + 1) => (a.setRail n { r with retry := .verify k }).verifyStep i ns
    | _ => a.verifyStep i ns

/-- The GAUGE_DISAGREE record (R103). -/
def Aon.disagreeRecord (a : Aon) (before after : Nat) : Aon := a.record 6 0 0xFF (before * 2 ^ 32 + after * 2 ^ 64)

/-- A conversion of ADC_IN[31] while VIN is healthy (R108): one record per onset of a disagreement. -/
def Aon.gaugeCheck (a : Aon) (c : Nat) : Aon :=
  if a.gaugeDiffers c then
    let g := a.rd F.LKT_GAUGE_Q
    let b := a.setGauge (a.qOf c * 1000)
    if a.is F.LKT_STATUS_DISAGREE then b else (b.wr F.LKT_STATUS_DISAGREE 1).disagreeRecord g (b.rd F.LKT_GAUGE_Q)
  else a.wr F.LKT_STATUS_DISAGREE 0

/-- The decision conversion after a trip (R107, R108, R110): the gauge is resynchronised, and the BROWNOUT record is written or
refused; a refusal releases the balls. -/
def Aon.brownDecide (a : Aon) (c : Nat) : Aon :=
  let dis := a.gaugeDiffers c
  let g := a.rd F.LKT_GAUGE_Q
  let b := if dis then (a.setGauge (a.qOf c * 1000)).wr F.LKT_STATUS_DISAGREE 1 else a
  if c < a.rd F.LKT_CFG_VMIN then { b with brown := { b.brown with deciding := false, refused := true }, ballsReleased := true }
  else
    let th := a.therm.trip && !a.therm.done
    let b := { b with brown := { b.brown with deciding := false, writing := true, therm := th,
                                              follow := if dis then some (g, b.rd F.LKT_GAUGE_Q) else none } }
    (b.record 4 0 0xFF (a.brown.vinCode + g * 2 ^ 32) ((if dis then 1 else 0) + if th then 2 else 0)).brownGiveUp

/-- A conversion of ADC_IN[31] (R107, R108). -/
def Aon.holdupCode (a : Aon) (c : Nat) : Aon :=
  if !a.brown.tripped then a.gaugeCheck c
  else if a.brown.deciding then a.brownDecide c
  else match a.brown.follow with
    | some (g, q) =>
      let a := { a with brown := { a.brown with follow := none } }
      if a.rd F.LKT_CFG_VMIN ≤ c then a.disagreeRecord g q else a
    | none => a

/-- Phases newly lost raise PHASE_IMBAL and tell the power controller (R93, R376). -/
def State.phasesLost (s : State) (ps : List Nat) (data : Nat) : State :=
  let new := ps.filter fun p => !s.dev.pwr.lost.contains p
  (s.onPeri fun d => (d.losePhases new).showPower).onAon fun a => new.foldl (fun a _ => a.raiseDev 0xC .ignore data) a

/-- The conversion of input `i` gives code `c` (R71). -/
def State.adc (s : State) (i c : Nat) : State :=
  let a := s.aon.convert i c
  let a := a.verifyStep i (a.boundTo i)
  let a := if i = 31 then a.holdupCode c else a
  let a := { a with adcNext := (i + 1) % 32, scanNo := if i = 31 then (a.scanNo + 1) % 256 else a.scanNo }
  let s := { s with aon := a }
  let s := if i = 30 then s.onPeri fun d => (d.cardVcc c).kick else s
  if a.phaseEnd i then s.phasesLost a.lostPhases c else s

/-- ADC_CONVERSION (R71): the inputs follow each other in ascending order, from the start of the sequencer on (R48). -/
def execAdcConversion (input code : Nat) (s : State) : Res :=
  if s.aon.supplyOk && s.aon.strapped && input == s.aon.adcNext && decide (input < 32) then .next (s.adc input (min code 4095))
  else .next s

/-! ### PMBus (R86–R89, R93) -/

/-- The pages of a poll that report a lost phase, by their index (R93). -/
def lostPages (ws : List Nat) : List Nat := (List.range ws.length).filter fun j => pageLost (ws.getD j 0)

/-- A STATUS_WORD of channel `ch` (R76, R77, R87): a fault raises PMB_STATUS, a clean word is a return to health. -/
def Aon.statusWord (a : Aon) (ch status : Nat) : Aon :=
  let a := a.setRail ch { a.rail ch with pmbBad := statusFault status }
  if statusFault status then (a.raiseRail 5 ch status).refault ch else a.healthy ch

/-- The words of a poll (R87): the raw values go to SEQ_TELEM, STATUS_WORD is checked, the phase pages are read, and the last rail of
the power meter closes a telemetry poll (R366). -/
def State.pollDone (s : State) (ch status vout iout : Nat) (pages : List Nat) : State :=
  let s := s.onAon fun a => ((a.wr (F.SEQ_TELEM_VOUT ch) vout).wr (F.SEQ_TELEM_IOUT ch) iout).statusWord ch status
  let k := s.aon.rd (F.SEQ_RAIL_PMB_PHASES ch)
  let lost := lostPages (pages.take k)
  let s := if k = 0 then s
    else (s.onPeri fun d => { d with pwr := { d.pwr with pageBad := lost } }).phasesLost lost (pages.getD (lost.headD 0) 0)
  if s.telemChans.getLast? = some ch then s.kappaPoll else s

/-- The alert response (R87): the responding regulator's STATUS_WORD is checked and CLEAR_FAULTS follows. -/
def Aon.alertDone (a : Aon) (b ch status : Nat) : Aon :=
  if ch < 24 && a.is (F.SEQ_RAIL_PMB_EN ch) && a.busOf ch == b then
    ((a.setBus b { a.bus b with last := ch }).statusWord ch status).busAdd b (.clearFaults ch)
  else a

/-- The transaction of bus `b` is over; the next one starts. -/
def Aon.txnEnd (a : Aon) (b : Nat) : Aon := (a.setBus b { a.bus b with txn := none, pecRetried := false }).busKick b

/-- A transaction that cannot be carried out (R86, R90, R362): a margin keeps the previous one, a voltage step stops. -/
def State.txnFail (s : State) (b : Nat) (t : PmbTxn) : State :=
  let s := s.onAon fun a => a.txnEnd b
  match t with
  | .margin n st host => s.onAon fun a => a.marginEnd n st host false
  | .coreVoltage _ => s.onPeri fun d => { d with pwr := { d.pwr with step := .none } }
  | _ => s

/-- The nominal of channel `n` has been read (R86, R90): VOUT_MODE and VOUT_COMMAND; a margin in force is written again. -/
def Aon.nominalDone (a : Aon) (b n : Nat) (data : List Nat) : Aon :=
  let m := data.getD 0 0
  let a := a.setRail n { a.rail n with nominal := some (data.getD 1 0 % 65536), vexp := bits m 0 5, badMode := !linearMode m }
  if (a.rail n).margin = 10 || !linearMode m then a else a.busAdd b (.restore n)

/-- A transaction that has completed with `data` (R86, R87, R90, R362). -/
def State.txnOk (s : State) (b : Nat) (t : PmbTxn) (data : List Nat) : State :=
  let s' := s.onAon fun a => a.txnEnd b
  match t with
  | .coreVoltage c =>
    (s'.onAon fun a => { a.send (.pmbus b t (s.aon.txnValue t)) with coreCode := some c }).onPeri fun d => d.coreAck c
  | .alert ch st => s'.onAon fun a => a.alertDone b ch st
  | .clearFaults _ => s'.onAon fun a => a.send (.pmbus b t 0)
  | .nominal n => s'.onAon fun a => a.nominalDone b n data
  | .margin n st host => s'.onAon fun a => a.marginEnd n st host true
  | .restore _ => s'.onAon fun a => a.send (.pmbus b t (s.aon.txnValue t))
  | .poll n st v i pages => s'.pollDone n st v i pages

/-- Whether a transaction can be carried out: a voltage command needs a regulator that takes it (R86, R90). -/
def Aon.txnAble (a : Aon) (t : PmbTxn) : Bool := !t.volts || match t.chan with | some n => a.takesVolts n | none => true

/-- PMB_TRANSACTION_DONE (R86): one PEC mismatch is retried, a second one raises PMB_PEC; nothing completes on a stuck bus (R88). -/
def execPmbTransactionDone (bus : Nat) (r : PmbResult) (s : State) : Res :=
  let p := s.aon.bus bus
  match p.txn with
  | none => .next s
  | some t =>
    if 2 ≤ bus || p.recovery != 0 then .next s
    else if r == .pecMismatch && !s.aon.is F.SEQ_PMB_CTRL_PEC_EN then .next s
    else if !s.aon.txnAble t then .next (s.txnFail bus t)
    else match r with
      | .ok data => .next (s.txnOk bus t data)
      | .pecMismatch =>
        if p.pecRetried then .next ((s.onAon fun a => a.raiseDev 7 .ignore).txnFail bus t)
        else s.nextAon fun a => a.setBus bus { p with pecRetried := true }
      | .failed => .next (s.txnFail bus t)

/-- Bus `b` is out of use (R88, R89): it carries no transaction, and the power controller stops asking for voltage changes when
it is the bus of VDD_CORE. -/
def State.degrade (s : State) (b : Nat) : State :=
  let s := s.onAon fun a => (a.setBus b { last := (a.bus b).last, recovery := 4 }).wr (degradedBit b) 1
  if s.aon.busOf 6 = b then
    s.onPeri fun d => ({ d with pwr := { d.pwr with step := .none } }.wr F.PWR_STATUS_VFROZEN 1).showPower
  else s

/-- PMB_RECOVERY_TIMER (R88): the nine clocks, the 10 ms and the wait for power-good end, each with the bus free or not. The
SYSTEM_RESET that stands for step 2 carries PMB_STUCK; the spec names no cause there (DESIGN CHOICE, log entry 74). -/
def execPmbRecoveryTimer (bus : Nat) (free : Bool) (s : State) : Res :=
  if 2 ≤ bus then .next s else
  let p := s.aon.bus bus
  let n := p.last
  let setRec (a : Aon) (k : Nat) : Aon := (a.setBus bus { a.bus bus with recovery := k }).busKick bus
  match p.recovery with
  | 1 =>
    if free then s.nextAon fun a => (setRec a 0).raiseDev 6 .ignore
    else if s.aon.is (F.SEQ_RAIL_CFG_ESSENTIAL n) then s.nextAon fun a => (setRec a 4).raiseRailWith 6 n .systemReset
    else if s.aon.on n then s.nextAon fun a => setRec (a.railOff n) 2
    else s.nextAon fun a => setRec a 3
  | 2 => s.nextAon fun a => setRec (a.railOn n) 3
  | 3 =>
    if free then s.nextAon fun a => setRec a 0
    else .next ((s.onAon fun a => a.raiseRailWith 6 n .groupShutdown).degrade bus)
  | _ => .next s

/-! ### Brown-out (R110, R111) -/

/-- The reactions in progress or pending, every retry and every bus recovery are abandoned (R82). -/
def Aon.dropReactions (a : Aon) : Aon :=
  let a := (List.range 24).foldl (fun a n => a.inReaction n false) a
  let rs := List.map (fun p : Nat × Rail => (p.1, { p.2 with retry := .idle })) a.rails
  let stop (p : PmbBus) : PmbBus := { p with recovery := if p.recovery == 4 then 4 else 0 }
  { a with reacting := .none, reactQ := [], rails := rs, pmb0 := stop a.pmb0, pmb1 := stop a.pmb1 }

/-- The engine enters HOLD, unless it is latched off. -/
def Aon.holdUnlatched (a : Aon) : Aon := if a.engine = stLatchoff then a else a.hold

/-- The erase in progress is stopped, to be done again (R110); the queued records are abandoned. -/
def Aon.lktTrip (a : Aon) : Aon :=
  let l := a.locket
  let l := { l with queue := [], urgent := if a.therm.trip && !a.therm.done then l.urgent.filter (fun r => r.type != 5) else l.urgent }
  match l.erasing with
  | some k => ({ a with locket := { l with erasing := none, needErase := k :: l.needErase } }).wr F.LKT_STATUS_ERASING 0
  | none => { a with locket := l }

/-- VIN_SENSE_TRIP (R54, R110): step 1 of the brown-out sequence. A trip after the comparator has armed again above 0.650 V starts
the sequence anew. -/
def execVinSenseTrip (code : Nat) (s : State) : Res :=
  if !s.aon.supplyOk then .next s
  else
    let a := (s.aon.holdUnlatched.dropReactions.lktTrip).driveFaultN
    let a := { a with brown := { tripped := true, offs := a.enOrder.reverse, deciding := true, vinCode := code % 65536 } }
    .next ((s.onPeri fun d => d.deactPower.kick).onAon fun _ => a)

/-- BROWNOUT_RAIL_OFF (R110): the next channel goes low. -/
def execBrownoutRailOff (s : State) : Res := s.nextAon fun a =>
  if a.brown.tripped then
    let (a, rest) := a.offNext a.brown.offs
    { a with brown := { a.brown with offs := rest } }
  else a

/-- Whether the steps of the brown-out sequence have ended (R110). -/
def Aon.brownOver (a : Aon) : Bool := a.brown.tripped && !a.brown.deciding && a.brown.offs.isEmpty && !a.brown.writing

/-- The brown-out has passed: the balls are driven again, and the stopped erase is done again (R110, R111). -/
def Aon.brownClear (a : Aon) : Aon := (({ a with brown := {}, ballsReleased := false }).lktEraseKick).lktKick

/-- BROWNOUT_RESTART (R111): VIN_SENSE has stayed above 0.650 V for 10 ms. FAULT_N is released, and once it has been high for 10 ms
the preamble restarts (R85). In LATCHOFF, or after a thermal trip, nothing restarts and FAULT_N stays low (R81, R113). -/
def execBrownoutRestart (s : State) : Res := s.nextAon fun a =>
  if !a.brownOver then a
  else if a.engine == stLatchoff || a.therm.trip then a.brownClear
  else { a.brownClear.freeFaultN with reacting := .brownGuard }

/-! ### Thermal trip (R112, R113) -/

/-- THERMAL_TRIP (R112): THERMTRIP_N and FAULT_N low, card deactivation starts, the reactions are abandoned. -/
def execThermalTrip (sensor temp : Nat) (s : State) : Res :=
  if s.aon.therm.trip || !s.aon.supplyOk || 24 ≤ sensor then .next s
  else
    let a := (s.aon.holdUnlatched.dropReactions).driveFaultN
    let a := { a with therm := { trip := true, lineLow := true, offs := a.enOrder.reverse, sensor := sensor, temp := temp },
                      locket := { a.locket with tmax := temp % 65536, tsensor := sensor } }
    .next ((s.onPeri fun d => d.aerInternal.deactPower.kick).onAon fun _ => a)

/-- The end of the switch-off after a thermal trip (R112): the THERMTRIP record, which carries the trip (R103), unless a BROWNOUT record
stands for it, and LATCHOFF. -/
def Aon.thermEnd (a : Aon) : Aon :=
  let r : LRec := { type := 5, mid := a.recBody 0 0xFF 0 a.therm.temp a.therm.sensor }
  let a := if a.brownStands r then a else a.lktAdd r
  ({ a with therm := { a.therm with recorded := true } }).setEngine stLatchoff

/-- THERMTRIP_RAIL_OFF (R112): the next channel goes low. -/
def execThermtripRailOff (s : State) : Res := s.nextAon fun a =>
  if a.therm.trip && !a.therm.recorded then
    let (a, rest) := a.offNext a.therm.offs
    let a := { a with therm := { a.therm with offs := rest } }
    if rest.isEmpty then a.thermEnd else a
  else a

end Sys2Proof.Machine
end

