-- ==== Sys2Proof/Machine/VecOps.lean ====
section
/-! DEFINITION. The vector operation word, its refusals, the vector registers and the memory formats (chapter 15). -/

namespace Sys2Proof.Machine

/-! ### The operation word (R342) -/

/-- VOPC. -/
def voOp (w : Nat) : Nat := bits w 26 6
/-- VD. -/
def voD (w : Nat) : Nat := bits w 21 5
/-- VA. -/
def voA (w : Nat) : Nat := bits w 16 5
/-- VB. -/
def voB (w : Nat) : Nat := bits w 11 5
/-- KM. -/
def voK (w : Nat) : Nat := bits w 8 3
/-- F. -/
def voF (w : Nat) : Nat := bits w 5 3
/-- BS. -/
def voBs (w : Nat) : Bool := bits w 4 1 == 1
/-- AUX. -/
def voAux (w : Nat) : Nat := bits w 0 4

/-- Whether an operation uses VD, VA, VB, KM, F, BS, AUX; none for a reserved VOPC (R343). VB counts as used with BS = 1 only
where BS is a field of the operation. -/
structure VUse where
  d : Bool := false
  a : Bool := false
  b : Bool := false
  k : Bool := true
  f : Bool := false
  bs : Bool := false
  aux : Nat := 0

/-- The fields of an operation: `aux` is the number of its AUX values. -/
def vuse (op aux : Nat) : Option VUse :=
  match op with
  | 0x00 => some { k := false, aux := 1 }
  | 0x01 => some { d := true, f := true, aux := 2 }
  | 0x02 => some { a := true, f := true, aux := 2 }
  | 0x03 => some { d := true, b := true, bs := true, aux := 1 }
  | 0x04 => some { d := true, aux := 1 }
  | 0x05 => some { d := true, aux := 1 }
  | 0x10 => some { d := true, a := true, b := aux == 2, bs := aux == 2, aux := 3 }
  | 0x11 => some { d := true, a := true, b := true, bs := true, aux := 8 }
  | 0x12 => some { d := true, a := true, b := true, k := false, aux := 1 }
  | 0x14 => some { d := true, a := true, b := aux == 7, bs := aux == 7, aux := 12 }
  | 0x18 => some { d := true, a := true, aux := 5 }
  | 0x20 => some { d := true, a := true, aux := 1 }
  | 0x21 => some { d := true, aux := 1 }
  | 0x22 => some { d := true, a := true, b := true, aux := 1 }
  | 0x24 => some { d := true, a := true, aux := 1 }
  | 0x25 => some { d := true, b := true, aux := 1 }
  | 0x26 => some { d := true, aux := 1 }
  | _ => if 0x08 ≤ op && op ≤ 0x0F then some { d := true, a := true, b := true, bs := true, aux := 1 } else none

/-- The size of an element of a memory format (R345). -/
def vfSize (f : Nat) : Nat := if f = 0 || f = 6 || f = 7 then 4 else if f ≤ 3 then 2 else 1

/-- The stride of a VLD or VST. -/
def vstride (f : Nat) (rb : Word64) : Nat := if rb = 0 then vfSize f else rb.toNat

/-- The address of element `l`. -/
def vaddr (f : Nat) (ra rb : Word64) (l : Nat) : Nat := (ra.toNat + l * vstride f rb) % 2 ^ 64

/-- Whether a vector operation is refused (R344, R359). -/
def vopRefused (w : Nat) (ra rb : Word64) : Bool :=
  match vuse (voOp w) (voAux w) with
  | none => true
  | some u =>
    let op := voOp w
    let mem := op == 1 || op == 2
    !(decide (voAux w < u.aux)) || (!u.d && voD w != 0) || (!u.a && voA w != 0) || (!u.b && voB w != 0) || (!u.k && voK w != 0) ||
      (!u.f && voF w != 0) || (!u.bs && voBs w) || (u.bs && voBs w && voB w != 0) ||
      (op == 0x11 && 8 ≤ voD w) || (op == 0x12 && 8 ≤ voB w) ||
      ((op == 0x20 || op == 0x21) && voD w % 2 != 0) || (op == 0x22 && voB w % 2 != 0) ||
      ((op == 0x24 || op == 0x25 || op == 0x26) && voD w % 4 != 0) || (op == 0x25 && voB w % 4 != 0) ||
      (mem && (ra.toNat % vfSize (voF w) != 0 || vstride (voF w) rb % vfSize (voF w) != 0 ||
        (voAux w == 0 && !(List.range 64).all fun l => decide (vaddr (voF w) ra rb l + vfSize (voF w) ≤ tileSize))))

/-! ### Registers (R340, R344) -/

/-- Lane `l` of V[r]. -/
def Tile.lane (t : Tile) (r l : Nat) : Nat := ((fget t.v (64 * r + l)).getD 0).toNat
/-- Writes lane `l` of V[r]. -/
def Tile.setLane (t : Tile) (r l v : Nat) : Tile :=
  let x : Word32 := BitVec.ofNat 32 v
  { t with v := if x = 0 then fdel t.v (64 * r + l) else fset t.v (64 * r + l) x }
/-- K[k]: K0 reads all ones. -/
def Tile.kreg (t : Tile) (k : Nat) : Nat := if k = 0 then 2 ^ 64 - 1 else ((fget t.k k).getD 0).toNat
/-- Writes bit `l` of K[k]; a write to K0 is discarded. -/
def Tile.setKbit (t : Tile) (k l : Nat) (b : Bool) : Tile :=
  if k = 0 then t
  else
    let o := t.kreg k
    let v := if b then o ||| 2 ^ l else o - (o &&& 2 ^ l)
    { t with k := if v = 0 then fdel t.k k else fset t.k k (BitVec.ofNat 64 v) }
/-- The lanes that K[KM] selects. -/
def Tile.lanes (t : Tile) (w : Nat) : List Nat := maskList 64 (t.kreg (voK w))
/-- The second source of a lane: VB, or the broadcast scalar. -/
def Tile.srcB (t : Tile) (o : VOp) (l : Nat) : Nat :=
  if voBs o.w.toNat then o.rc.toNat % 2 ^ 32 else t.lane (voB o.w.toNat) l

/-- Whether a VST of tile `t` has not completed; it counts as a store (R346). -/
def Tile.vstPending (t : Tile) : Bool := t.vq.any fun o => voOp o.w.toNat == 2

/-! ### Memory formats (R345) -/

/-- Loads an element: its binary32 pattern and causes. -/
def vload (f p : Nat) : VR :=
  let ieee : IFmt → VR := fun g =>
    match g.value p with
    | .nan s => (qnan, if s then 1 else 0)
    | .inf s => (b32.infBits s, 0)
    | .zero s => (b32.zeroBits s, 0)
    | .fin r => vround r
  match f with
  | 0 => ieee b32
  | 1 => ieee b16
  | 2 => ieee bf16
  | 3 => (match positValue 16 p with | .fin r => vround r | .zero _ => (0, 0) | _ => (qnan, 0))
  | 4 => (match positValue 8 p with | .fin r => vround r | .zero _ => (0, 0) | _ => (qnan, 0))
  | 5 => vsum ⟨BitVec.toInt (BitVec.ofNat 8 p), 1⟩ false
  | 6 => vsum ⟨BitVec.toInt (BitVec.ofNat 32 p), 1⟩ false
  | _ => (p, 0)

/-- Stores an element: its pattern and causes. -/
def vstore (f p : Nat) : VR :=
  let ieee : IFmt → VR := fun g =>
    match b32.value p with
    | .nan s => (g.nanBits, if s then 1 else 0)
    | .inf s => (g.infBits s, 0)
    | .zero s => (g.zeroBits s, 0)
    | .fin r => let x := g.round r; (x.p, x.causes)
  let posit : Nat → VR := fun n =>
    match b32.value p with
    | .nan s => (2 ^ (n - 1), if s then 1 else 0)
    | .inf _ => (2 ^ (n - 1), 1)
    | .zero _ => (0, 0)
    | .fin r => let x := positRound n r; (x.p, x.causes)
  let int : Nat → VR := fun n =>
    match b32.value p with
    | .nan _ => (0, 1)
    | .inf s => (if s then 2 ^ (n - 1) else 2 ^ (n - 1) - 1, 1)
    | .zero _ => (0, 0)
    | .fin r => let x := intRound n r; (x.p, x.causes)
  match f with
  | 0 => ieee b32
  | 1 => ieee b16
  | 2 => ieee bf16
  | 3 => posit 16
  | 4 => posit 8
  | 5 => int 8
  | 6 => int 32
  | _ => (p, 0)

end Sys2Proof.Machine
end

