-- ==== Sys2Proof/Machine/Convert.lean ====
section
/-! DEFINITION. The output converter (chapter 13, R330). -/

namespace Sys2Proof.Machine

/-! ### The parameter block (R301) -/

/-- A field of the parameter block's first word. -/
def pbF (b : List Byte) (lo n : Nat) : Nat := bits (bytesAt b 0 4) lo n
/-- FMT. -/
def pbFmt (b : List Byte) : Nat := pbF b 0 4
/-- SMODE. -/
def pbSmode (b : List Byte) : Nat := pbF b 4 2
/-- BMODE. -/
def pbBmode (b : List Byte) : Nat := pbF b 6 2
/-- RMODE. -/
def pbRmode (b : List Byte) : Nat := pbF b 10 2

/-- The size of a parameter block in bytes. -/
def pbSize (b : List Byte) : Nat := 64 + (if pbSmode b = 0 then 0 else 256) + (if pbBmode b = 0 then 0 else 256)

/-- Bits of an element of an output format (R303). -/
def outBits (f : Nat) : Nat :=
  match f with
  | 0 => 16 | 1 => 8 | 2 => 8 | 3 => 4 | 4 => 32 | 5 => 16 | 6 => 16 | 7 => 32 | 8 => 32 | 9 => 32 | _ => 64

/-- Element `x` of a vector chosen by a mode: a uniform value, by row or by column (R301, R302). -/
def pbPick (b : List Byte) (mode uniform vec i j : Nat) : Num :=
  b32.value (if mode = 0 then bytesAt b uniform 4 else bytesAt b (vec + 4 * (if mode = 1 then i else j)) 4)

/-- The scale of a cell. -/
def pbScale (b : List Byte) (i j : Nat) : Num := pbPick b (pbSmode b) 12 64 i j
/-- The bias of a cell. -/
def pbBias (b : List Byte) (i j : Nat) : Num := pbPick b (pbBmode b) 16 (if pbSmode b = 0 then 64 else 320) i j

/-- Whether the fixed part of a parameter block is legal (R313). -/
def pbOk (b : List Byte) : Bool :=
  decide (pbFmt b ≤ 10) && pbSmode b != 3 && pbBmode b != 3 && pbRmode b != 3 && pbF b 13 19 == 0 && bytesAt b 20 44 == 0

/-! ### One output (R302–R305) -/

/-- A value after scale and bias: a real number or an infinity of a bound. -/
inductive Cv where
  | real (r : Rt)
  | inf (neg : Bool)
deriving DecidableEq, Repr

/-- Whether `x` is less than `y`. -/
def Cv.lt : Cv → Cv → Bool
  | .inf s, .inf t => s && !t
  | .inf s, .real _ => s
  | .real _, .inf t => !t
  | .real a, .real b => a.lt b

/-- A bound as a value; none for a NaN. -/
def boundOf (p : Nat) : Option Cv :=
  match b32.value p with
  | .nan _ => none
  | .inf s => some (.inf s)
  | .zero _ => some (.real ⟨0, 1⟩)
  | .fin r => some (.real r)

/-- clip(x) = min(max(x, LO), HI), a bound that is disabled or NaN left out (R302). -/
def clipTo (b : List Byte) (x : Cv) : Cv :=
  let x := match (if pbF b 8 1 = 1 then boundOf (bytesAt b 4 4) else none) with
    | some l => if x.lt l then l else x
    | none => x
  match (if pbF b 9 1 = 1 then boundOf (bytesAt b 8 4) else none) with
  | some h => if h.lt x then h else x
  | none => x

/-- An output: its pattern, its causes of R308, and its value, none where it is invalid. -/
structure COut where
  p : Nat
  causes : Nat := 0
  value : Option Num := none
deriving DecidableEq, Repr

/-- The causes of a rounding: 6 C_OVERFLOW, 7 C_UNDERFLOW, 8 C_INEXACT. -/
def Rnd.convCauses (r : Rnd) : Nat := (if r.ovf then 64 else 0) + (if r.unf then 128 else 0) + (if r.inexact then 256 else 0)

/-- The base format of an IEEE or pair output format. -/
def outIfmt (f : Nat) : IFmt := if f = 5 || f = 8 then b16 else if f = 6 || f = 9 then bf16 else b32

/-- A real value in an IEEE format (R304). -/
def outIeee (f : IFmt) (r : Rt) : COut :=
  if r.isZero then { p := 0, value := some (.zero false) }
  else let x := f.round r; { p := x.p, causes := x.convCauses, value := some (f.value x.p) }

/-- The real value of a pattern of an IEEE format; zero for an infinity. -/
def IFmt.realOf (f : IFmt) (p : Nat) : Rt :=
  match f.value p with
  | .fin r => r
  | _ => ⟨0, 1⟩

/-- A real value as a hi/lo pair (R305). -/
def outPair (f : IFmt) (r : Rt) : COut :=
  let w := 2 ^ (1 + f.eb + f.fb)
  if r.isZero then { p := 0, value := some (.zero false) }
  else
    let h := f.round r
    if h.ovf then { p := h.p, causes := h.convCauses, value := some (f.value h.p) }
    else
      let rest := r.add (f.realOf h.p).neg
      let l := if rest.isZero then 0 else (f.round rest).p
      let exact := ((f.realOf h.p).add (f.realOf l)).eq r
      { p := h.p + w * l, causes := (if h.unf then 128 else 0) + (if exact then 0 else 256), value := some (f.value h.p) }

/-- The number of posit bits of an output format. -/
def outPosit (f : Nat) : Nat := if f = 0 then 16 else 8
/-- The number of integer bits of an output format. -/
def outInt (f : Nat) : Nat := if f = 2 then 8 else if f = 3 then 4 else 32

/-- A real value in output format `f` (R303). -/
def outReal (f : Nat) (r : Rt) : COut :=
  if f ≤ 1 then
    let x := positRound (outPosit f) r
    { p := x.p, causes := x.convCauses, value := some (positValue (outPosit f) x.p) }
  else if f ≤ 4 then
    let x := intRound (outInt f) r
    { p := x.p, causes := x.convCauses, value := some (intValue (outInt f) x.p) }
  else if f ≤ 7 then outIeee (outIfmt f) r
  else outPair (outIfmt f) r

/-- An infinite value in output format `f` (R302). -/
def outInf (f : Nat) (neg : Bool) : COut :=
  if f ≤ 1 then
    let n := outPosit f
    let m := 2 ^ (n - 1) - 1
    let p := if neg then 2 ^ n - m else m
    { p := p, causes := 64 + 256, value := some (positValue n p) }
  else if f ≤ 4 then
    let n := outInt f
    let p := if neg then 2 ^ (n - 1) else 2 ^ (n - 1) - 1
    { p := p, causes := 64 + 256, value := some (intValue n p) }
  else { p := (outIfmt f).infBits neg, value := some (.inf neg) }

/-- The invalid value of output format `f` (R303). -/
def outInvalid (f : Nat) : COut :=
  { p := if f = 0 then 0x8000 else if f = 1 then 0x80 else if f ≤ 4 then 0 else (outIfmt f).nanBits, causes := 32 }

/-- The real value of an operand, none for NaN and infinity. -/
def Num.finite : Num → Option Rt
  | .zero _ => some ⟨0, 1⟩
  | .fin r => some r
  | _ => none

/-- The output of quire entry `g` at local row `i` and column `j` (R302). -/
def convCell (b : List Byte) (g : BitVec 256) (i j : Nat) : COut :=
  match (pbScale b i j).finite, (pbBias b i j).finite with
  | some s, some c =>
    if g == quireNar then outInvalid (pbFmt b)
    else
      let v : Cv := .real ((Rt.mul ⟨g.toInt, 2 ^ 112⟩ s).add c)
      let w := clipTo b v
      let clipped := v.lt w || w.lt v
      let o := match w with
        | .real r => outReal (pbFmt b) r
        | .inf n => outInf (pbFmt b) n
      { o with causes := o.causes + (if clipped then 512 else 0) }
  | _, _ => outInvalid (pbFmt b)

/-! ### The running maximum (R307) -/

/-- A value rounded to binary32. -/
def Num.toB32 : Num → Nat
  | .zero s => b32.zeroBits s
  | .fin r => (b32.round r).p
  | .inf s => b32.infBits s
  | .nan _ => b32.nanBits

/-- Whether binary32 pattern `p` is less than value `v`; -0 below +0. -/
def belowB32 (p : Nat) (v : Num) : Bool :=
  match b32.value p, v with
  | .inf s, .inf t => s && !t
  | .inf s, _ => s
  | _, .inf t => !t
  | .zero s, .zero t => s && !t
  | a, _ => (a.finite.getD ⟨0, 1⟩).lt (v.finite.getD ⟨0, 1⟩)

/-- The running maximum while a conversion goes on: the 64 entries, and the updates made, newest first. -/
structure RmaxRun where
  v : List Nat
  upd : List (Nat × Nat) := []

/-- One output updates the entry of its row or column. -/
def RmaxRun.put (x : RmaxRun) (mode e : Nat) (o : COut) : RmaxRun :=
  match o.value with
  | none => x
  | some y =>
    let k := if mode = 1 then e / 64 else e % 64
    if mode != 0 && belowB32 (x.v.getD k 0) y then { v := x.v.set k y.toB32, upd := (e, y.toB32) :: x.upd } else x

/-- The largest of binary32 patterns. -/
def maxB32 : List Nat → Nat
  | [] => 0xFF800000
  | p :: l => let m := maxB32 l; if belowB32 m (b32.value p) then p else m

/-! ### The conversion (R306, R310) -/

/-- The outputs of a tile, entry by entry. -/
def Tile.outputs (t : Tile) (b : List Byte) : List (Nat × COut) :=
  (List.range 4096).map fun e => (e, convCell b (t.entry e) (e / 64) (e % 64))

/-- The bytes of a row of outputs (R306). -/
def rowBytesOf (f : Nat) (os : List COut) : List Byte :=
  toBytes (64 * outBits f / 8) ((os.zipIdx).foldl (fun m o => m + o.1.p % 2 ^ outBits f * 2 ^ (outBits f * o.2)) 0)

/-- Writes the rows of outputs into tile memory. -/
def Dev.putRows (d : Dev) (n c f dst stride : Nat) (os : List (Nat × COut)) : Dev :=
  (List.range 64).foldl (fun d i =>
    d.writeMem 0 (tileBase n + dst + i * stride) (rowBytesOf f (((os.drop (64 * i)).take 64).map (·.2))) 2 c) d

/-- The running maximum's registers after a conversion (R307). -/
def Dev.putRmax (d : Dev) (n : Nat) (b : List Byte) (os : List (Nat × COut)) : Dev :=
  let clr := pbF b 12 1 == 1
  let v0 := (List.range 64).map fun x => if clr then 0xFF800000 else d.rd (F.MT_RMAX_VALUE n x)
  let r : RmaxRun := os.foldl (fun (r : RmaxRun) o => r.put (pbRmode b) o.1 o.2) ⟨v0, []⟩
  let d := (r.v.zipIdx).foldl (fun d x => d.wr (F.MT_RMAX_VALUE n x.2) x.1) d
  let m := maxB32 r.v
  let d := d.wr (F.MT_RMAX_BLK_VALUE n) m
  let d := if clr then d.wrs [(F.MT_RMAX_AT_ROW n, 0), (F.MT_RMAX_AT_COL n, 0)] else d
  match r.upd.reverse.find? fun u => u.2 == m with
  | some (e, _) => d.wrs [(F.MT_RMAX_AT_ROW n, 64 * d.rd (F.MT_GANG_TR n) + e / 64), (F.MT_RMAX_AT_COL n, 64 * d.rd (F.MT_GANG_TC n) + e % 64)]
  | none => d

/-- The rows of the output area of a CONVERT: first byte and one past the last. -/
def Conv.area (c : Conv) : Nat × Nat := (c.dst, c.dst + 63 * c.rstride + 64 * outBits (pbFmt c.pblock) / 8)

/-- CONVERT (R313, R323, R330, R346). -/
def execConvert (n : Nat) (s : State) : Res := s.nextCore fun d => d.issue n 0x48 fun d t w =>
  if !t.stores.isEmpty || t.vstPending || t.conv.isSome then d.waits n .other
  else
    let p := (t.reg (tiRa w)).toNat
    let dst := (t.reg (tiRb w)).toNat
    let stride := bits (tiImm w) 0 24
    let read : Nat → List Byte := fun k => d.mem.read (tileBase n + p) k
    if p % 64 != 0 || tileSize < p + 64 then d.illegal n 0xE
    else
      match d.badGran (tileBase n + p) 64 with
      | some g => d.tileUe n g
      | none =>
        let b := read 64
        let z := outBits (pbFmt b)
        let c : Conv := { pb := p, mark := t.opseq, pblock := read (pbSize b), dst := dst, rstride := stride, final := tiX w == 1, started := false }
        if !pbOk b || tileSize < p + pbSize b || tileSize < c.area.2 || t.resv.isNone || t.resv.getD 0 < z ||
            dst % max 1 (z / 8) != 0 || stride * 8 < 64 * z || stride % max 1 (z / 8) != 0 then d.illegal n 0xE
        else
          match d.badGran (tileBase n + p) (pbSize b) with
          | some g => d.tileUe n g
          | none =>
            ((d.correct (tileBase n + p) (pbSize b)).retire n { t with conv := some c, resv := if c.final then none else t.resv, opseq := t.opseq + 1 }.step).wr (F.MT_CONV_BUSY n) 1

/-- Whether the units of tile `n` go on: its queue is not pre-empted, or in STOP. -/
def Dev.unitsRun (d : Dev) (n : Nat) : Bool :=
  d.is (F.CMD_TILE_LEASED n) && (d.unpre (d.tqueue n) || (d.queue (d.tqueue n)).pre == .stop)

/-- CONVERT_START (R300, R310): once every drain of an earlier pass has completed. -/
def execConvertStart (n : Nat) (s : State) : Res := s.nextCore fun d =>
  let t := d.tile n
  match t.conv with
  | some c => if d.unitsRun n && t.passes.isEmpty && !c.started then d.setTile n { t with conv := some { c with started := true } } else d
  | none => d

/-- CONVERT_COMPLETE (R302–R310): the outputs lie in tile memory, with their flags and the running maximum; an uncorrectable
quire entry kills instead (R179). -/
def execConvertComplete (n : Nat) (s : State) : Res := s.nextCore fun d =>
  let t := d.tile n
  match t.conv with
  | some c =>
    if !d.unitsRun n || !c.started then d
    else
      match t.quireBad with
      | some e => d.quireUe n e
      | none =>
        let b := c.pblock
        let os := t.outputs b
        let d := d.quireCorrect n
        let d := (d.setTile n { d.tile n with conv := none }).wr (F.MT_CONV_BUSY n) 0
        let d := (d.putRows n (d.tctx n) (pbFmt b) c.dst c.rstride os).putRmax n b os
        d.raiseFlags n (d.rd (F.MT_QSEQ_SEQ n)) (os.map fun o => (o.1, o.2.causes))
  | none => d

end Sys2Proof.Machine
end

