-- ==== Sys2Proof/Machine/TileSeq.lean ====
section
/-! DEFINITION. The instructions of the tile sequencer (chapter 14). -/

namespace Sys2Proof.Machine

/-! ### Control -/

/-- Whether nothing of the program is outstanding (R334). -/
def Tile.allDone (t : Tile) : Bool := t.passes.isEmpty && t.conv.isNone && t.vq.isEmpty && t.stores.isEmpty

/-- TILE_END (R334): the program ends once all its work has completed. -/
def execTileEnd (n : Nat) (s : State) : Res := s.nextCore fun d => d.issue n 0x00 fun d t _ =>
  if !t.allDone then d.waits n .ending
  else
    let d := d.retire n { t with running := false, resv := none, wait := .none }
    if (maskList 16 t.gang).all fun k => d.tileIdle k then d.runEnd (d.tqueue n) t.gang else d

/-- TILE_NOP. -/
def execTileNop (n : Nat) (s : State) : Res := s.nextCore fun d => d.issue n 0x01 fun d t _ => d.retire n t.step

/-- The target of a relative branch: PC, the next instruction's offset, plus sext(IMM) × 8 (log entry 33). -/
def Tile.target (t : Tile) (w : Nat) : Nat := (BitVec.ofNat 64 (t.pc + 8) + tiSext w * 8).toNat

/-- BR. -/
def execBr (n : Nat) (s : State) : Res := s.nextCore fun d => d.issue n 0x02 fun d t w => d.retire n (t.branch (t.target w))

/-- Whether COND holds (R317). -/
def condOk (c : Nat) (a b : Word64) : Bool :=
  match c with
  | 0 => a == b
  | 1 => a != b
  | 2 => a.slt b
  | 3 => !a.slt b
  | 4 => a.ult b
  | _ => !a.ult b

/-- BCC. -/
def execBcc (n : Nat) (s : State) : Res := s.nextCore fun d => d.issue n 0x03 fun d t w =>
  d.retire n (if condOk (tiX w) (t.reg (tiRa w)) (t.reg (tiRb w)) then t.branch (t.target w) else t.step)

/-- JR. -/
def execJr (n : Nat) (s : State) : Res := s.nextCore fun d => d.issue n 0x04 fun d t w =>
  d.retire n (t.branch (t.reg (tiRa w)).toNat)

/-- LOOP (R320). -/
def execLoop (n : Nat) (s : State) : Res := s.nextCore fun d => d.issue n 0x05 fun d t w =>
  let count := if tiRa w = 0 then tiImm w % 65536 else (t.reg (tiRa w)).toNat % 2 ^ 32
  let start := t.pc + 8
  let stop := start + 8 * (tiImm w / 65536)
  let nested := match t.loops.getLast? with
    | some l => decide (l.start ≤ start) && decide (stop ≤ l.stop)
    | none => true
  if !nested || (count != 0 && t.loops.length = 4) then d.illegal n 6
  else if count = 0 then d.retire n (t.goStraight stop)
  else d.retire n { t with loops := t.loops ++ [{ start := start, stop := stop, count := count }], pc := start, wait := .none }

/-! ### Scalar arithmetic (R317) -/

/-- An instruction whose only result is S[RD]. -/
def Dev.setRd (d : Dev) (n : Nat) (t : Tile) (w : Nat) (v : Word64) : Dev := d.retire n (t.setReg (tiRd w) v).step

/-- A register-register operation. -/
def Dev.alu (d : Dev) (n op : Nat) (f : Word64 → Word64 → Word64) : Dev :=
  d.issue n op fun d t w => d.setRd n t w (f (t.reg (tiRa w)) (t.reg (tiRb w)))

/-- ADD. -/
def execAdd (n : Nat) (s : State) : Res := s.nextCore fun d => d.alu n 0x10 fun a b => a + b
/-- SUB. -/
def execSub (n : Nat) (s : State) : Res := s.nextCore fun d => d.alu n 0x11 fun a b => a - b
/-- AND. -/
def execAnd (n : Nat) (s : State) : Res := s.nextCore fun d => d.alu n 0x12 fun a b => a &&& b
/-- OR. -/
def execOr (n : Nat) (s : State) : Res := s.nextCore fun d => d.alu n 0x13 fun a b => a ||| b
/-- XOR. -/
def execXor (n : Nat) (s : State) : Res := s.nextCore fun d => d.alu n 0x14 fun a b => a ^^^ b
/-- SHL. -/
def execShl (n : Nat) (s : State) : Res := s.nextCore fun d => d.alu n 0x15 fun a b => a <<< (b.toNat % 64)
/-- SHR. -/
def execShr (n : Nat) (s : State) : Res := s.nextCore fun d => d.alu n 0x16 fun a b => a >>> (b.toNat % 64)
/-- SRA. -/
def execSra (n : Nat) (s : State) : Res := s.nextCore fun d => d.alu n 0x17 fun a b => a.sshiftRight (b.toNat % 64)
/-- MUL. -/
def execMul (n : Nat) (s : State) : Res := s.nextCore fun d => d.alu n 0x18 fun a b => a * b
/-- MIN. -/
def execMin (n : Nat) (s : State) : Res := s.nextCore fun d => d.alu n 0x19 fun a b => if b.slt a then b else a
/-- MAX. -/
def execMax (n : Nat) (s : State) : Res := s.nextCore fun d => d.alu n 0x1A fun a b => if a.slt b then b else a

/-- ADDI. -/
def execAddi (n : Nat) (s : State) : Res := s.nextCore fun d => d.issue n 0x1B fun d t w =>
  d.setRd n t w (t.reg (tiRa w) + tiSext w)
/-- LI. -/
def execLi (n : Nat) (s : State) : Res := s.nextCore fun d => d.issue n 0x1C fun d t w => d.setRd n t w (tiSext w)
/-- LIH. -/
def execLih (n : Nat) (s : State) : Res := s.nextCore fun d => d.issue n 0x1D fun d t w =>
  d.setRd n t w (BitVec.ofNat 64 (tiImm w * 2 ^ 32 + (t.reg (tiRd w)).toNat % 2 ^ 32))

/-! ### Loads and stores (R322, R323) -/

/-- The size in bytes of an LD or ST. -/
def lsSize (w : Nat) : Nat := if (tiX w).testBit 0 then 8 else 4
/-- The address that an LD or ST forms: S[RA] + sext(IMM). -/
def Tile.lsAddr (t : Tile) (w : Nat) : Nat := (t.reg (tiRa w) + tiSext w).toNat
/-- Whether an LD or ST addresses device memory. -/
def lsSpace (w : Nat) : Bool := (tiX w).testBit 1
/-- Whether an LD or ST is an illegal program: misaligned, or a tile offset out of range. -/
def lsBad (a size : Nat) (space : Bool) : Bool := a % size != 0 || (!space && decide (tileSize ≤ a))
/-- The physical address of an LD or ST of tile `n`. -/
def lsPa (n a : Nat) (space : Bool) : Nat := if space then a else tileBase n + a

/-- LD (R322): ordered after every earlier store. -/
def execLd (n : Nat) (s : State) : Res := s.nextCore fun d => d.issue n 0x20 fun d t w =>
  let a := t.lsAddr w
  let z := lsSize w
  let pa := lsPa n a (lsSpace w)
  if lsBad a z (lsSpace w) then d.illegal n 4
  else if !t.stores.isEmpty || t.vstPending then d.waits n .other
  else
    match d.compute n pa z false with
    | .error k => d.computeKill n k pa
    | .ok key =>
      match d.badGran pa z with
      | some g => d.tileUe n g
      | none => (d.correct pa z).setRd n t w (BitVec.ofNat 64 (ofBytes (d.readMem key pa z)))

/-- ST (R322): the store completes later. -/
def execSt (n : Nat) (s : State) : Res := s.nextCore fun d => d.issue n 0x21 fun d t w =>
  let a := t.lsAddr w
  let z := lsSize w
  let pa := lsPa n a (lsSpace w)
  if lsBad a z (lsSpace w) then d.illegal n 4
  else
    match d.compute n pa z true with
    | .error k => d.computeKill n k pa
    | .ok key =>
      let x : PStore := { pa := pa, size := z, val := (t.reg (tiRb w)).toNat % 2 ^ (8 * z), key := key }
      d.retire n { t with stores := t.stores ++ [x] }.step

/-- A pass whose stream a completed store meets is past its last operand beat (R323). -/
def Pass.feed (p : Pass) (n pa size : Nat) : Pass :=
  let hit : Option Stream → Nat → Bool := fun s f =>
    match s with
    | some s => decide (tileBase n ≤ pa) && s.meets f p.op.k (pa - tileBase n) (pa - tileBase n + size)
    | none => false
  if hit p.a p.op.fmtA || hit p.b p.op.fmtB then { p with fed := true } else p

/-- STORE_COMPLETE (R322): the oldest store of tile `n` lands. -/
def execStoreComplete (n : Nat) (s : State) : Res := s.nextCore fun d =>
  let t := d.tile n
  match t.stores with
  | [] => d
  | x :: xs =>
    if !d.unitsRun n then d
    else
      let ps : List Pass := t.passes.map fun p => p.feed n x.pa x.size
      (d.setTile n { t with stores := xs, passes := ps }).writeMem x.key x.pa (toBytes x.size x.val) 2 (d.tctx n)

/-! ### Special registers (R333) -/

/-- The MT register that a special register names, as an offset in the tile block. -/
def specOff (i : Nat) : Option Nat :=
  match i with
  | 0x01 => some 0x200 | 0x02 => some 0x204 | 0x08 => some 0x240 | 0x09 => some 0x244 | 0x0A => some 0x248 | 0x0B => some 0x24C
  | 0x0C => some 0x250 | 0x0D => some 0x258 | 0x0E => some 0x25C | 0x0F => some 0x228
  | _ => none

/-- The fields of the register at an offset. -/
def fieldsAt (off : Nat) : List FieldDef := match hitAt off with | some h => h.fields off | none => []

/-- The value of a special register; CYCLE is a free value, since the model counts no cycles (log entry 12). -/
def Dev.special (d : Dev) (n : Nat) (t : Tile) (i : Nat) : Nat × Dev :=
  match specOff i with
  | some o => (readFields ((d.gangShown n).foldl (fun m p => Machine.wr m p.1 p.2) d.regs) (fieldsAt (tileOff n o)), d)
  | none =>
    if i = 0 then (n, d)
    else if i = 3 then d.fresh
    else if 4 ≤ i && i ≤ 7 then (((t.loops[i - 4]?).map (·.count)).getD 0, d)
    else if i = 0x10 then (t.live, d)
    else (d.tctx n, d)

/-- GET. -/
def execGet (n : Nat) (s : State) : Res := s.nextCore fun d => d.issue n 0x22 fun d t w =>
  let r := d.special n t (tiImm w)
  r.2.setRd n t w (BitVec.ofNat 64 r.1)

/-- PUT: with the access of the register that the special register names. -/
def execPut (n : Nat) (s : State) : Res := s.nextCore fun d => d.issue n 0x23 fun d t w =>
  let v := (t.reg (tiRa w)).toNat
  match specOff (tiImm w) with
  | some o => ({ d with regs := writeFields d.regs (v % 2 ^ 32) (fieldsAt (tileOff n o)) }).retire n t.step
  | none => d.retire n { t with live := v % 2 ^ 48 }.step

/-! ### Streams, reservations, passes (R324–R329) -/

/-- The stream descriptor that SETA or SETB gives. -/
def Tile.streamOf (t : Tile) (w : Nat) : Stream :=
  { base0 := (t.reg (tiRa w)).toNat, base1 := (t.reg (tiRb w)).toNat, step := (tiSext w).toNat, adv := tiX w == 1 }

/-- SETA. -/
def execSeta (n : Nat) (s : State) : Res := s.nextCore fun d => d.issue n 0x30 fun d t w => d.retire n { t with a := t.streamOf w }.step
/-- SETB. -/
def execSetb (n : Nat) (s : State) : Res := s.nextCore fun d => d.issue n 0x31 fun d t w => d.retire n { t with b := t.streamOf w }.step

/-- Whether a FINAL CONVERT still holds staging and quires (R327). -/
def Tile.convFinal (t : Tile) : Bool := match t.conv with | some c => c.final | none => false

/-- The reservation of an RSV (R31, R327). -/
def Dev.reserve (d : Dev) (n : Nat) (t : Tile) (w : Nat) : Dev :=
  if t.resv.isSome then d.illegal n 0xD
  else if t.convFinal then d.waits n .rsv
  else d.retire n { t with resv := some (outBits (tiX w)) }.step

/-- RSV (R327). -/
def execRsv (n : Nat) (s : State) : Res := s.nextCore fun d => d.issue n 0x40 fun d t w => d.reserve n t w

/-- A wait of kind `x` of tile `n` ends: its instruction is issued anew. -/
def Dev.reissue (d : Dev) (n op : Nat) (x : TWait) (f : Dev → Tile → Nat → Dev) : Dev :=
  if (d.tile n).wait = x && d.tileRuns n then (d.waits n .none).issue n op f else d

/-- RSV_GRANT (R327). -/
def execRsvGrant (n : Nat) (s : State) : Res := s.nextCore fun d =>
  if (d.tile n).convFinal then d else d.reissue n 0x40 .rsv fun d t w => d.reserve n t w

/-- The MMA of an instruction word (R328). -/
def Tile.mmaOf (t : Tile) (w : Nat) : MmaOp :=
  let imm := tiImm w
  let v := if tiRd w = 0 then imm else (t.reg (tiRd w)).toNat
  { k := bits v 0 16 + 1, anchor := signed 8 (bits v 16 8), fmtA := bits imm 24 2, fmtB := bits imm 26 2, fold := imm.testBit 28,
    sub := w.testBit 40, subShape := bits w 32 4, subOrigin := bits w 36 4 }

/-- Whether the streams that tile `n` feeds in mask `m` are good (R324). -/
def Tile.streamsOk (t : Tile) (n m : Nat) (op : MmaOp) : Bool :=
  let (tr, tc) := gridOff m n
  (tc != 0 || t.a.ok op.fmtA op.k) && (tr != 0 || t.b.ok op.fmtB op.k)

/-- Whether the streams that tile `n` feeds meet the output area of its incomplete CONVERT (R323). -/
def Tile.meetsConv (t : Tile) (n m : Nat) (op : MmaOp) : Bool :=
  let (tr, tc) := gridOff m n
  match t.conv with
  | some c => (tc == 0 && t.a.meets op.fmtA op.k c.area.1 c.area.2) || (tr == 0 && t.b.meets op.fmtB op.k c.area.1 c.area.2)
  | none => false

/-- Whether an anchor and a pair of formats are illegal (R284, R289, R297). -/
def MmaOp.badArith (op : MmaOp) : Bool :=
  (decide (2 ≤ op.fmtA) != decide (2 ≤ op.fmtB)) ||
    (if 2 ≤ op.fmtA then op.anchor != 0 else decide (op.anchor < -112) || decide (64 < op.anchor))

/-- MMA (R280, R297, R323, R324, R328, R329): the tile arrives at its rendezvous. -/
def execMma (n : Nat) (s : State) : Res := s.nextCore fun d => d.issue n 0x41 fun d t w =>
  let op := t.mmaOf w
  if t.resv.isNone then d.illegal n 0xA
  else
    match op.maskIn t.gang with
    | none => d.illegal n 9
    | some m =>
      if m &&& t.gang != m || !m.testBit n then d.illegal n 9
      else if op.badArith then d.illegal n 8
      else if !t.streamsOk n m op then d.illegal n 7
      else if !t.stores.isEmpty || t.vstPending || t.conv.any (fun c => !c.final) || t.meetsConv n m op then d.waits n .other
      else d.setTile n { t with wait := .mma, mma := some op }

/-! ### Vector dispatch and synchronisation (R331, R332, R339) -/

/-- VOP (R331, R359). -/
def execVop (n : Nat) (s : State) : Res := s.nextCore fun d => d.issue n 0x50 fun d t w =>
  let ra := t.reg (tiRa w)
  let rb := t.reg (tiRb w)
  if vopRefused (tiImm w) ra rb then d.illegal n 0xF
  else if !t.stores.isEmpty || 8 ≤ t.vq.length then d.waits n .other
  else
    let o : VOp := { w := BitVec.ofNat 32 (tiImm w), ra := ra, rb := rb, rc := t.reg (tiRd w), seq := t.opseq, n := t.vops }
    d.retire n { t with vq := t.vq ++ [o], opseq := t.opseq + 1, vops := t.vops + 1 }.step

/-- Whether every unit named by a TWAIT has finished (R332). -/
def Tile.unitsDone (t : Tile) (x : Nat) : Bool :=
  (!x.testBit 0 || t.passes.isEmpty) && (!x.testBit 1 || t.conv.isNone) && (!x.testBit 2 || t.vq.isEmpty) &&
    (!x.testBit 3 || (t.stores.isEmpty && !t.vstPending))

/-- TWAIT (R332). -/
def execTwait (n : Nat) (s : State) : Res := s.nextCore fun d => d.issue n 0x60 fun d t w =>
  if t.unitsDone (tiX w) then d.retire n t.step else d.waits n .twait

/-- TWAIT_SATISFIED (R332). -/
def execTwaitSatisfied (n : Nat) (s : State) : Res := s.nextCore fun d => d.reissue n 0x60 .twait fun d t w =>
  if t.unitsDone (tiX w) then d.retire n t.step else d.waits n .twait

/-- GBAR (R332). -/
def execGbar (n : Nat) (s : State) : Res := s.nextCore fun d => d.issue n 0x61 fun d t w =>
  let m := if tiImm w = 0 then t.gang else tiImm w
  if m &&& t.gang != m || !m.testBit n then d.illegal n 0x10
  else d.setTile n { t with wait := .gbar, bar := m }

/-- Whether every tile of a barrier's mask waits at it. -/
def Dev.barFull (d : Dev) (m : Nat) : Bool := (maskList 16 m).all fun k => (d.tile k).wait == .gbar && (d.tile k).bar == m

/-- GBAR_RELEASE (R332): all tiles of the mask go on together. -/
def execGbarRelease (n : Nat) (s : State) : Res := s.nextCore fun d =>
  let t := d.tile n
  if t.wait = .gbar && d.tileRuns n && d.barFull t.bar then
    (maskList 16 t.bar).foldl (fun d k => d.retire k { d.tile k with bar := 0 }.step) d
  else d

/-- Whether tile `k` waits at a rendezvous or barrier that cannot complete now. -/
def Dev.stuck (d : Dev) (k : Nat) : Bool :=
  let t := d.tile k
  match t.wait with
  | .mma => match t.mma.bind fun op => op.maskIn t.gang with
    | some m => !(maskList 16 m).all fun j => (d.tile j).wait == .mma
    | none => true
  | .gbar => !d.barFull t.bar
  | _ => false

/-- RENDEZVOUS_DEADLOCK (R339): every tile of the gang has ended or waits where nothing can complete. -/
def execRendezvousDeadlock (n : Nat) (s : State) : Res := s.nextCore fun d =>
  let ts := maskList 16 (d.tile n).gang
  match ts.find? fun k => (d.tile k).running with
  | some k => if d.tileRuns k && ts.all (fun j => !(d.tile j).running || d.stuck j) then d.illegal k 0xC else d
  | none => d

end Sys2Proof.Machine
end

