-- ==== Sys2Proof/Machine/Vector.lean ====
section
/-! DEFINITION. The operations of the vector unit (chapter 15): each command runs the operation at the front of a tile's vector
queue when it is the one the command names. -/

namespace Sys2Proof.Machine

/-! ### Running an operation (R331, R340, R356) -/

/-- Tile `n` finishes its front operation as `t`, with the causes it raised by lane. -/
def Dev.vdone (d : Dev) (n : Nat) (t : Tile) (o : VOp) (raises : List (Nat × Nat)) : Dev :=
  (((d.setTile n { t with vq := t.vq.drop 1 }).bump (F.VU_OPS_COUNT n)).raiseVu n o.n raises)

/-- Runs `f` on the front operation of tile `n` when its operation word meets `p` and the unit runs. -/
def Dev.vop (d : Dev) (n : Nat) (p : Nat → Bool) (f : Dev → Tile → VOp → Nat → Dev) : Dev :=
  let t := d.tile n
  match t.vq with
  | o :: _ => if d.unitsRun n && p o.w.toNat then f d t o o.w.toNat else d
  | [] => d

/-- The lanes selected by the operation word take the results of `f`, in register VD; the causes by lane. -/
def Tile.mapLanes (t : Tile) (w : Nat) (f : Nat → VR) : Tile × List (Nat × Nat) :=
  (t.lanes w).foldl (fun (x : Tile × List (Nat × Nat)) l =>
    let r := f l
    (x.1.setLane (voD w) l r.1, if r.2 = 0 then x.2 else x.2 ++ [(l, r.2)])) (t, [])

/-- A lane-wise operation with VOPC `op`; `f` gives the result of a lane from the tile, the operation and the lane. -/
def Dev.laneOp (d : Dev) (n op : Nat) (f : Tile → VOp → Nat → VR) : Dev :=
  d.vop n (fun w => voOp w == op) fun d t o w =>
    let r := t.mapLanes w (f t o)
    d.vdone n r.1 o r.2

/-- A two-source arithmetic operation. -/
def Dev.arith (d : Dev) (n op : Nat) (f : Nat → Nat → VR) : Dev :=
  d.laneOp n op fun t o l => f (t.lane (voA o.w.toNat) l) (t.srcB o l)

/-! ### Moves and memory (R343–R346) -/

/-- VNOP. -/
def execVnop (n : Nat) (s : State) : Res := s.nextCore fun d => d.vop n (fun w => voOp w == 0x00) fun d t o _ => d.vdone n t o []

/-- Whether bytes `lo` to `hi - 1` of tile memory meet a range. -/
def meetsRange (r : Nat × Nat) (lo hi : Nat) : Bool := decide (r.1 < hi) && decide (lo < r.2)

/-- The elements of a VLD or VST: lane and physical address. -/
def Tile.elements (t : Tile) (n : Nat) (o : VOp) : List (Nat × Nat) :=
  let w := o.w.toNat
  (t.lanes w).map fun l => (l, (if voAux w = 1 then 0 else tileBase n) + vaddr (voF w) o.ra o.rb l)

/-- Whether an element meets a range of tile memory. -/
def elementMeets (n z : Nat) (r : Nat × Nat) (e : Nat × Nat) : Bool :=
  decide (tileBase n ≤ e.2) && meetsRange r (e.2 - tileBase n) (e.2 - tileBase n + z)

/-- The first element that the compute side may not access: the kill cause and its address. -/
def Dev.elementBad (d : Dev) (n z : Nat) (write : Bool) : List (Nat × Nat) → Option (Nat × Nat)
  | [] => none
  | e :: es => match d.compute n e.2 z write with | .error k => some (k, e.2) | .ok _ => d.elementBad n z write es

/-- The key slot of an element that may be accessed. -/
def Dev.elementKey (d : Dev) (n a z : Nat) (write : Bool) : Nat := match d.compute n a z write with | .ok k => k | .error _ => 0

/-- VLD (R345, R346): waits for an incomplete CONVERT whose output area it meets. -/
def execVld (n : Nat) (s : State) : Res := s.nextCore fun d => d.vop n (fun w => voOp w == 0x01) fun d t o w =>
  let z := vfSize (voF w)
  let es := t.elements n o
  if t.conv.any fun c => es.any (elementMeets n z c.area) then d
  else
    match d.elementBad n z false es with
    | some (k, a) => d.computeKill n k a
    | none =>
      match es.findSome? fun e => d.badGran e.2 z with
      | some g => d.tileUe n g
      | none =>
        let r := t.mapLanes w fun l =>
          let a := (es.lookup l).getD 0
          vload (voF w) (ofBytes (d.readMem (d.elementKey n a z false) a z))
        (es.foldl (fun d e => d.correct e.2 z) d).vdone n r.1 o r.2

/-- Writes the elements of a VST, lowest lane first. -/
def Dev.putElements (d : Dev) (n z f v : Nat) (t : Tile) : List (Nat × Nat) → Dev
  | [] => d
  | e :: es =>
    (d.writeMem (d.elementKey n e.2 z true) e.2 (toBytes z (vstore f (t.lane v e.1)).1) 2 (d.tctx n)).putElements n z f v t es

/-- VST (R345, R346): waits for an incomplete CONVERT whose parameter block or output area it meets. -/
def execVst (n : Nat) (s : State) : Res := s.nextCore fun d => d.vop n (fun w => voOp w == 0x02) fun d t o w =>
  let z := vfSize (voF w)
  let es := t.elements n o
  if t.conv.any fun c => es.any fun e => elementMeets n z c.area e || elementMeets n z (c.pb, c.pb + pbSize c.pblock) e then d
  else
    match d.elementBad n z true es with
    | some (k, a) => d.computeKill n k a
    | none =>
      let raises := (es.map fun e => (e.1, (vstore (voF w) (t.lane (voA w) e.1)).2)).filter fun x => x.2 != 0
      let ps : List Pass := t.passes.map fun p => es.foldl (fun p e => p.feed n e.2 z) p
      (d.putElements n z (voF w) (voA w) t es).vdone n { t with passes := ps } o raises

/-- VMOV. -/
def execVmov (n : Nat) (s : State) : Res := s.nextCore fun d => d.laneOp n 0x03 fun t o l => (t.srcB o l, 0)

/-- VGETR (R307, R346): waits for every earlier CONVERT. -/
def execVgetr (n : Nat) (s : State) : Res := s.nextCore fun d => d.vop n (fun w => voOp w == 0x04) fun d t o w =>
  if t.conv.any fun c => decide (c.mark < o.seq) then d
  else
    let r := t.mapLanes w fun l => (d.rd (F.MT_RMAX_VALUE n l), 0)
    d.vdone n r.1 o r.2

/-- VFLAGS. -/
def execVflags (n : Nat) (s : State) : Res := s.nextCore fun d => d.vop n (fun w => voOp w == 0x05) fun d t o w =>
  let r := t.mapLanes w fun l => (if l = 0 then d.rd (F.VU_FLAGS_CAUSES n) else 0, 0)
  d.vdone n r.1 o r.2

/-! ### Arithmetic (R341, R343, R347) -/

/-- VADD. -/
def execVadd (n : Nat) (s : State) : Res := s.nextCore fun d => d.arith n 0x08 vadd
/-- VSUB. -/
def execVsub (n : Nat) (s : State) : Res := s.nextCore fun d => d.arith n 0x09 vsub
/-- VMUL. -/
def execVmul (n : Nat) (s : State) : Res := s.nextCore fun d => d.arith n 0x0A vmul
/-- VFMA. -/
def execVfma (n : Nat) (s : State) : Res := s.nextCore fun d => d.laneOp n 0x0B fun t o l =>
  vfma (t.lane (voA o.w.toNat) l) (t.srcB o l) (t.lane (voD o.w.toNat) l)
/-- VMAX. -/
def execVmax (n : Nat) (s : State) : Res := s.nextCore fun d => d.arith n 0x0C (vmaxmin true false)
/-- VMIN. -/
def execVmin (n : Nat) (s : State) : Res := s.nextCore fun d => d.arith n 0x0D (vmaxmin false false)
/-- VMAXNUM. -/
def execVmaxnum (n : Nat) (s : State) : Res := s.nextCore fun d => d.arith n 0x0E (vmaxmin true true)
/-- VMINNUM. -/
def execVminnum (n : Nat) (s : State) : Res := s.nextCore fun d => d.arith n 0x0F (vmaxmin false true)

/-- A VSGN operation: bits copied but for the sign (R341). -/
def Dev.vsgn (d : Dev) (n aux : Nat) (sign : Bool → Bool → Bool) : Dev :=
  d.vop n (fun w => voOp w == 0x10 && voAux w == aux) fun d t o w =>
    let r := t.mapLanes w fun l =>
      let a := t.lane (voA w) l
      (a % 2 ^ 31 + (if sign (a.testBit 31) ((t.srcB o l).testBit 31) then 2 ^ 31 else 0), 0)
    d.vdone n r.1 o r.2

/-- VSGN, AUX 0. -/
def execVsgnAbs (n : Nat) (s : State) : Res := s.nextCore fun d => d.vsgn n 0 fun _ _ => false
/-- VSGN, AUX 1. -/
def execVsgnNeg (n : Nat) (s : State) : Res := s.nextCore fun d => d.vsgn n 1 fun a _ => !a
/-- VSGN, AUX 2. -/
def execVsgnCopysign (n : Nat) (s : State) : Res := s.nextCore fun d => d.vsgn n 2 fun _ b => b

/-- VCMP (R347). -/
def execVcmp (n : Nat) (s : State) : Res := s.nextCore fun d => d.vop n (fun w => voOp w == 0x11) fun d t o w =>
  let rs := (t.lanes w).map fun l => (l, vcmp (voAux w) (t.lane (voA w) l) (t.srcB o l))
  let t' := rs.foldl (fun (t : Tile) r => t.setKbit (voD w % 8) r.1 r.2.1) t
  d.vdone n t' o ((rs.map fun r => (r.1, r.2.2)).filter fun x => x.2 != 0)

/-- VSEL. -/
def execVsel (n : Nat) (s : State) : Res := s.nextCore fun d => d.laneOp n 0x12 fun t o l =>
  let w := o.w.toNat
  (if (t.kreg (voB w % 8)).testBit l then t.lane (voA w) l else t.lane (voD w) l, 0)

/-! ### Special functions (R349) -/

/-- A special function. -/
def Dev.vsf (d : Dev) (n aux : Nat) : Dev :=
  d.vop n (fun w => voOp w == 0x14 && voAux w == aux) fun d t o w =>
    let r := t.mapLanes w fun l => Machine.special aux (t.lane (voA w) l) (t.srcB o l)
    d.vdone n r.1 o r.2

/-- EXP. -/
def execExp (n : Nat) (s : State) : Res := s.nextCore fun d => d.vsf n 0
/-- EXP2. -/
def execExp2 (n : Nat) (s : State) : Res := s.nextCore fun d => d.vsf n 1
/-- LOG. -/
def execLog (n : Nat) (s : State) : Res := s.nextCore fun d => d.vsf n 2
/-- LOG2. -/
def execLog2 (n : Nat) (s : State) : Res := s.nextCore fun d => d.vsf n 3
/-- RCP. -/
def execRcp (n : Nat) (s : State) : Res := s.nextCore fun d => d.vsf n 4
/-- RSQRT. -/
def execRsqrt (n : Nat) (s : State) : Res := s.nextCore fun d => d.vsf n 5
/-- SQRT. -/
def execSqrt (n : Nat) (s : State) : Res := s.nextCore fun d => d.vsf n 6
/-- DIV. -/
def execDiv (n : Nat) (s : State) : Res := s.nextCore fun d => d.vsf n 7
/-- TANH. -/
def execTanh (n : Nat) (s : State) : Res := s.nextCore fun d => d.vsf n 8
/-- SIGMOID. -/
def execSigmoid (n : Nat) (s : State) : Res := s.nextCore fun d => d.vsf n 9
/-- ERF. -/
def execErf (n : Nat) (s : State) : Res := s.nextCore fun d => d.vsf n 10
/-- GELU. -/
def execGelu (n : Nat) (s : State) : Res := s.nextCore fun d => d.vsf n 11

/-! ### Reductions (R348) -/

/-- Writes a value to every lane of a register. -/
def Tile.fill (t : Tile) (r v : Nat) : Tile := (List.range 64).foldl (fun t l => t.setLane r l v) t

/-- The exact sum of patterns, rounded once. -/
def sumMany (ps : List Nat) : VR :=
  let vs := ps.map b32.value
  if vs.any Num.isNan then vnan vs
  else
    let pos := vs.any fun v => v == .inf false
    let neg := vs.any fun v => v == .inf true
    if pos && neg then (qnan, 1)
    else if pos || neg then (b32.infBits neg, 0)
    else vsum (vs.foldl (fun (r : Rt) v => r.add v.real) ⟨0, 1⟩) (!vs.isEmpty && vs.all fun v => v == .zero true)

/-- Maximum or minimum of patterns, from `init` where there is none. -/
def extremum (isMax number : Bool) (ps : List Nat) : VR :=
  match ps with
  | [] => (b32.infBits isMax, 0)
  | p :: ps =>
    ps.foldl (fun (x : VR) q => let r := vmaxmin isMax number x.1 q; (r.1, x.2 ||| r.2)) (vmaxmin isMax number p p)

/-- A reduction. -/
def Dev.vred (d : Dev) (n aux : Nat) (f : List Nat → VR) : Dev :=
  d.vop n (fun w => voOp w == 0x18 && voAux w == aux) fun d t o w =>
    let r := f ((t.lanes w).map fun l => t.lane (voA w) l)
    d.vdone n (t.fill (voD w) r.1) o (if r.2 = 0 then [] else [(0, r.2)])

/-- VRED SUM. -/
def execRedSum (n : Nat) (s : State) : Res := s.nextCore fun d => d.vred n 0 sumMany
/-- VRED MAX. -/
def execRedMax (n : Nat) (s : State) : Res := s.nextCore fun d => d.vred n 1 (extremum true false)
/-- VRED MIN. -/
def execRedMin (n : Nat) (s : State) : Res := s.nextCore fun d => d.vred n 2 (extremum false false)
/-- VRED MAXNUM. -/
def execRedMaxnum (n : Nat) (s : State) : Res := s.nextCore fun d => d.vred n 3 (extremum true true)
/-- VRED MINNUM. -/
def execRedMinnum (n : Nat) (s : State) : Res := s.nextCore fun d => d.vred n 4 (extremum false true)

/-! ### Softmax (R350–R352) -/

/-- Minus infinity. -/
def negInf : Nat := 0xFF800000
/-- Whether two patterns compare equal (R347). -/
def veq (a b : Nat) : Bool := (vcmp 0 a b).1

/-- VSMX1 on one lane: m, s, and the causes. -/
def smx1 (m s x : Nat) : Nat × Nat × Nat :=
  let m1 := vmaxmin true false m x
  if veq m1.1 negInf then (m, s, m1.2)
  else
    let a := vsub m m1.1
    let t := Machine.special 0 a.1 0
    let b := vsub x m1.1
    let u := Machine.special 0 b.1 0
    let r := vfma s t.1 u.1
    (m1.1, r.1, m1.2 ||| a.2 ||| t.2 ||| b.2 ||| u.2 ||| r.2)

/-- VSMX1 (R350). -/
def execVsmx1 (n : Nat) (s : State) : Res := s.nextCore fun d => d.vop n (fun w => voOp w == 0x20) fun d t o w =>
  let m := voD w
  let r := (t.lanes w).foldl (fun (x : Tile × List (Nat × Nat)) l =>
    let (a, b, c) := smx1 (t.lane m l) (t.lane (m + 1) l) (t.lane (voA w) l)
    ((x.1.setLane m l a).setLane (m + 1) l b, if c = 0 then x.2 else x.2 ++ [(l, c)])) (t, [])
  d.vdone n r.1 o r.2

/-- VSMXM (R351). -/
def execVsmxm (n : Nat) (s : State) : Res := s.nextCore fun d => d.vop n (fun w => voOp w == 0x21) fun d t o w =>
  let r := voD w
  let ls := t.lanes w
  let m := extremum true false (ls.map fun l => t.lane r l)
  if veq m.1 negInf then d.vdone n ((t.fill r m.1).fill (r + 1) 0) o (if m.2 = 0 then [] else [(0, m.2)])
  else
    let ps := (ls.filter fun l => !veq (t.lane r l) negInf).map fun l =>
      let a := vsub (t.lane r l) m.1
      let e := Machine.special 0 a.1 0
      let p := vmul (t.lane (r + 1) l) e.1
      (p.1, a.2 ||| e.2 ||| p.2)
    let x := sumMany (ps.map (·.1))
    let c := ps.foldl (fun c p => c ||| p.2) (m.2 ||| x.2)
    d.vdone n ((t.fill r m.1).fill (r + 1) x.1) o (if c = 0 then [] else [(0, c)])

/-- VSMX2 (R352). -/
def execVsmx2 (n : Nat) (s : State) : Res := s.nextCore fun d => d.laneOp n 0x22 fun t o l =>
  let w := o.w.toNat
  let a := vsub (t.lane (voA w) l) (t.lane (voB w) l)
  let e := Machine.special 0 a.1 0
  let r := vdiv e.1 (t.lane (voB w + 1) l)
  (r.1, a.2 ||| e.2 ||| r.2)

/-! ### Mean and variance (R353, R354) -/

/-- A group of one lane: n, mu, q. -/
abbrev Grp := Nat × Nat × Nat

/-- The group of a lane. -/
def Tile.grp (t : Tile) (r l : Nat) : Grp := (t.lane r l, t.lane (r + 1) l, t.lane (r + 2) l)
/-- Writes the group of a lane. -/
def Tile.setGrp (t : Tile) (r l : Nat) (g : Grp) : Tile := ((t.setLane r l g.1).setLane (r + 1) l g.2.1).setLane (r + 2) l g.2.2

/-- VWEL1 on one lane: the group and the causes. -/
def wel1 (g : Grp) (x : Nat) : Grp × Nat :=
  if veq g.1 0x4B800000 then (g, 4)
  else
    let n1 := vadd g.1 0x3F800000
    let d := vsub x g.2.1
    let q := vdiv d.1 n1.1
    let mu := vadd g.2.1 q.1
    let e := vsub x mu.1
    let r := vfma d.1 e.1 g.2.2
    ((n1.1, mu.1, r.1), n1.2 ||| d.2 ||| q.2 ||| mu.2 ||| e.2 ||| r.2)

/-- Whether the exact sum of two patterns exceeds 2^24. -/
def countOver (a b : Nat) : Bool :=
  match b32.value a, b32.value b with
  | .nan _, _ => false
  | _, .nan _ => false
  | .inf s, .inf t => !s && !t
  | .inf s, _ => !s
  | _, .inf t => !t
  | x, y => (Rt.mk (2 ^ 24) 1).lt (x.real.add y.real)

/-- The Chan merge of two groups: the group and the causes. -/
def chan (a b : Grp) : Grp × Nat :=
  if veq b.1 0 then (a, 0)
  else if veq a.1 0 then (b, 0)
  else
    let n := vadd a.1 b.1
    let d := vsub b.2.1 a.2.1
    let w := vdiv b.1 n.1
    let mu := vfma d.1 w.1 a.2.1
    let dd := vmul d.1 d.1
    let aw := vmul a.1 w.1
    let qq := vadd a.2.2 b.2.2
    let q := vfma dd.1 aw.1 qq.1
    ((n.1, mu.1, q.1), (if countOver a.1 b.1 then 4 else 0) ||| n.2 ||| d.2 ||| w.2 ||| mu.2 ||| dd.2 ||| aw.2 ||| qq.2 ||| q.2)

/-- A lane-wise operation on the group VD. -/
def Dev.groupOp (d : Dev) (n op : Nat) (f : Tile → Nat → Nat → Grp × Nat) : Dev :=
  d.vop n (fun w => voOp w == op) fun d t o w =>
    let r := (t.lanes w).foldl (fun (x : Tile × List (Nat × Nat)) l =>
      let g := f t w l
      (x.1.setGrp (voD w) l g.1, if g.2 = 0 then x.2 else x.2 ++ [(l, g.2)])) (t, [])
    d.vdone n r.1 o r.2

/-- VWEL1 (R353). -/
def execVwel1 (n : Nat) (s : State) : Res := s.nextCore fun d => d.groupOp n 0x24 fun t w l => wel1 (t.grp (voD w) l) (t.lane (voA w) l)

/-- VWELC (R354). -/
def execVwelc (n : Nat) (s : State) : Res := s.nextCore fun d => d.groupOp n 0x25 fun t w l => chan (t.grp (voD w) l) (t.grp (voB w) l)

/-- One level of the merge tree: the first `k` groups take the next `k`. -/
def chanLevel (k : Nat) (x : List Grp × Nat) : List Grp × Nat :=
  let rs := (x.1.take k).zipWith chan (x.1.drop k)
  (rs.map (·.1), rs.foldl (fun c r => c ||| r.2) x.2)

/-- VWELM (R354). -/
def execVwelm (n : Nat) (s : State) : Res := s.nextCore fun d => d.vop n (fun w => voOp w == 0x26) fun d t o w =>
  let r := voD w
  let gs : List Grp := (List.range 64).map fun l => if (t.kreg (voK w)).testBit l then t.grp r l else (0, 0, 0)
  let x := [32, 16, 8, 4, 2, 1].foldl (fun x k => chanLevel k x) (gs, 0)
  let g := x.1.headD (0, 0, 0)
  let t' := (List.range 64).foldl (fun (t : Tile) l => t.setGrp r l g) t
  d.vdone n t' o (if x.2 = 0 then [] else [(0, x.2)])

end Sys2Proof.Machine
end

