-- ==== Sys2Proof/Machine/Mmio.lean ====
section
/-! DEFINITION. Register accesses (chapters 00 and 06): what a read returns, what a write does under its access codes, locks
and reserved encodings, and the two halves of a 64-bit register. -/

namespace Sys2Proof.Machine

/-- Whether an offset lies in a range. -/
def inR (lo hi off : Nat) : Bool := decide (lo ≤ off) && decide (off < hi)

/-! ### Reading: the fields that are views of other state -/

/-- STATUS.BLOCK of queue `q` (R258). -/
def Dev.blockView (d : Dev) (q : Nat) : Nat :=
  let ql := d.queue q
  let waits := ql.issued.findSome? fun i =>
    match dOp i.d with
    | 2 => if i.wait then some 5 else none
    | 5 => some 6
    | 3 => some 7
    | 0x10 => some 8
    | 0x50 => some 10
    | 0x22 => some 11
    | _ => none
  if d.qstate q = 0 || d.qstate q = 3 then 0
  else if ql.pre != .running then 12
  else match waits with
    | some b => b
    | none =>
      if ql.rrec.waits || ql.rfetch.waits then 13
      else match ql.fetched with
        | [] => if d.rd (F.Q_HEAD_HEAD q) = d.rd (F.Q_TAIL_TAIL q) then 1 else 0
        | x :: _ =>
          let b := d.issueBlock q x
          if 2 ≤ b && b ≤ 4 then b else d.rd (F.Q_STATUS_BLOCK q)

/-- SEM_CFG.WAITERS: the WAITs on semaphore `s`. -/
def Dev.semWaiters (d : Dev) (s : Nat) : Nat :=
  (d.collect fun _ i => dOp i.d == 5 && dSem i.d == s).length

/-- MT_SEQ_STATUS.STATE of a tile. -/
def Tile.seqState (t : Tile) : Nat :=
  if !t.running then 0
  else match t.wait with
    | .none => 1
    | .mma => 2
    | .rsv => 3
    | .twait => 4
    | .gbar => 5
    | .other => 6
    | .ending => 7

/-- The fields of tile `n` that are views of its state (R329, R358). -/
def Dev.tileShown (d : Dev) (n o : Nat) : List (Fld × Nat) :=
  let t := d.tile n
  if o = 0 then [(F.MT_SEQ_STATUS_PC n, t.pc), (F.MT_SEQ_STATUS_STATE n, t.seqState), (F.MT_SEQ_STATUS_DEPTH n, t.loops.length)]
  else if o = 0x200 then d.gangShown n
  else if o = 0x400 then [(F.VU_STATUS_QDEPTH n, t.vq.length), (F.VU_STATUS_BUSY n, if t.vq.isEmpty then 0 else 1)]
  else if inR 0x440 0x480 o then
    let k := (o - 0x440) / 8
    [(F.VU_K_MASK n k, if t.running then 0 else if k = 0 then 2 ^ 64 - 1 else ((fget t.k k).getD 0).toNat)]
  else []

/-- The fields of the register at `off` that are views of other state, with their values. -/
def State.shown (s : State) (off i : Nat) : List (Fld × Nat) :=
  let d := s.dev
  let tag := d.tag (d.rd F.PWR_TAG_SEL_TAG)
  if isTileOff off then d.tileShown (tileOfOff off) (inTile off)
  else if off = 0x10000C then [(F.SEQ_EN_STATE_LEVEL, s.aon.enState)]
  else if off = 0x100010 then [(F.SEQ_PG_STATE_LEVEL, s.aon.pgState)]
  else if off = 4 then [(F.GLB_STRAP_CHIPID, s.chipId), (F.GLB_STRAP_BOOT, s.strapBoot),
    (F.GLB_STRAP_PAIR, if s.strapPair then 1 else 0), (F.GLB_STRAP_SEQROM, if s.strapSeqrom then 1 else 0)]
  else if off = 0x14 then [(F.GLB_DOMAIN_CORE_ON, if s.aon.armed 6 then 1 else 0),
    (F.GLB_DOMAIN_TILE_ON, listMask ((List.range 16).filter fun n => (d.tile n).shutter == .opened))]
  else if off = 0x400010 then
    [(F.MEM_SCRUB_ACTIVE, if d.rd F.MEM_SCRUB_PERIOD != 0 && d.is F.BOOT_STATUS_DRAM_READY then 1 else 0)]
  else if off = 0x500004 then [(F.MMU_STATUS_PRG_OUT, d.prgs.length), (F.MMU_STATUS_INV_OUT, d.invals.length)]
  else if inR 0x600100 0x600140 off then [(F.CMD_TILE_BUSY i, if (d.tile i).running then 1 else 0)]
  else if inR 0x601000 0x602000 off && (off - 0x601000) % 64 == 0x28 then
    [(F.Q_STATUS_INFLIGHT i, (d.queue i).issued.length), (F.Q_STATUS_BLOCK i, d.blockView i)]
  else if inR 0x610000 0x614000 off then [(F.SEM_CFG_WAITERS i, d.semWaiters i)]
  else if off = 0x800018 then [(F.PWR_MC_PAIR_LS, if d.paired then 1 else 0)]
  else if off = 0x800404 then [(F.PWR_TAG_CORE_DC, tag.dc), (F.PWR_TAG_CORE_COUNT, tag.count)]
  else if off = 0x800408 then [(F.PWR_TAG_ML_DM, tag.dm), (F.PWR_TAG_ML_DL, tag.dl)]
  else if off = 0x80040C then [(F.PWR_TAG_HINT_HINT, tag.hint), (F.PWR_TAG_HINT_HINTED, if tag.hinted then 1 else 0),
    (F.PWR_TAG_HINT_OVERRIDDEN, if tag.overridden then 1 else 0), (F.PWR_TAG_HINT_MISSES, tag.misses)]
  else if off = 0x800418 then [(F.PWR_CTX_ENERGY_UJ, (d.ctx (d.rd F.PWR_CTX_SEL_CTX)).energy)]
  else if off = 0x900060 then [(F.TB_ALARM_BUSY_BUSY, listMask (d.tb.alarms.map (·.1)))]
  else if inR 0x900090 0x9000A0 off then
    [(F.TB_GATE_STAT_PENDING i, (d.gate i).length), (F.TB_GATE_STAT_LEVEL i, if d.gateBall i then 1 else 0)]
  else if off = 0xA04014 then [(F.MED_CT_MIN, d.cartTime)]
  else if off = 0xC00010 then [(F.PAIR_STATUS_ROLE, d.role)]
  else []

/-- The value of a register as a read returns it (R8, R10). -/
def State.regVal (s : State) (h : Hit) (off : Nat) : Nat :=
  let m := if aonOff off then s.aon.regs else s.dev.regs
  readFields ((s.shown off h.i).foldl (fun m p => wr m p.1 p.2) m) (h.fields off)

/-- The lane of VU_V that a tile-block offset names (R358): only an idle tile shows it. -/
def Dev.laneVal (d : Dev) (n o : Nat) : Nat :=
  let t := d.tile n
  if t.running then 0 else ((fget t.v ((o - 0x1000) / 0x100 * 64 + (o - 0x1000) % 0x100 / 4)).getD 0).toNat

/-- The captured high half of the register at `base`. -/
def State.capt (s : State) (base : Nat) : Option Nat := fget (if aonOff base then s.aon.capt32 else s.dev.capt32) base

/-- Sets or clears the captured high half of the register at `base`. -/
def State.setCapt (s : State) (base : Nat) (v : Option Nat) : State :=
  let f (m : FMap Nat) : FMap Nat := match v with | some x => fset m base x | none => fdel m base
  if aonOff base then { s with aon := { s.aon with capt32 := f s.aon.capt32 } }
  else { s with dev := { s.dev with capt32 := f s.dev.capt32 } }

/-- A 32-bit read of `req` at an aligned offset outside the MSI-X table (R9, R10, R144): its value and the state after it. -/
def State.read32 (s : State) (req : Requester) (off : Nat) : Nat × State :=
  if s.domainOff off then (0, s.onDev fun d => d.pciErr 1 off (ridOf req))
  else if isTileOff off && inR 0x1000 0x3000 (inTile off) then (s.dev.laneVal (tileOfOff off) (inTile off), s)
  else match hitAt off with
    | none => (0, s)
    | some h =>
      if !h.reg.wide then (s.regVal h off, s)
      else if h.high then
        match s.capt (off - 4) with
        | some v => (v, s.setCapt (off - 4) none)
        | none => (s.regVal h (off - 4) / 2 ^ 32, s)
      else
        let v := s.regVal h off
        (v % 2 ^ 32, s.setCapt off (some (v / 2 ^ 32)))

/-- The 64-bit register at an 8-byte-aligned offset. -/
def wideAt (off : Nat) : Option Hit :=
  match hitAt off with
  | some h => if h.reg.wide && !h.high then some h else none
  | none => none

/-- A read of `req` of `width` bytes, 4 or 8, at an offset aligned to it (R9, R527). -/
def State.mmioRead (s : State) (req : Requester) (off width : Nat) : Nat × State :=
  if inR 0x308000 0x310000 off then
    let o := off - 0x308000
    (if width = 4 then s.dev.msixRead o else s.dev.msixRead o + s.dev.msixRead (o + 4) * 2 ^ 32, s)
  else if inR 0x310000 0x310100 off then
    let n := (off - 0x310000) * 8
    (((List.range (8 * width)).map fun k => if s.dev.pending (n + k) then 2 ^ k else 0).sum, s)
  else if width = 4 then s.read32 req off
  else match wideAt off with
    | some h => if s.domainOff off then (0, s.onDev fun d => d.pciErr 1 off (ridOf req)) else (s.regVal h off, s)
    | none =>
      let r := s.read32 req off
      let r' := r.2.read32 req (off + 4)
      (r.1 + r'.1 * 2 ^ 32, r'.2)

/-! ### Writing: one register, by block -/

/-- The fields of a hit as a write of `v` leaves them (R8, R10). -/
def Dev.store (d : Dev) (h : Hit) (off v : Nat) : Dev := { d with regs := writeFields d.regs v (h.fields off) }
/-- The fields of a hit as a write of `v` leaves them (R8, R10). -/
def Aon.store (a : Aon) (h : Hit) (off v : Nat) : Aon := { a with regs := writeFields a.regs v (h.fields off) }

/-- Bits of `v` at the place of a field. -/
def Fld.of (f : Fld) (v : Nat) : Nat := bits v f.lo f.len

/-- The registers that SEQ_CTRL.LOCK protects (R95, R114). -/
def seqLocked (off : Nat) : Bool :=
  off == 0x100000 || off == 0x100014 || off == 0x100018 || off == 0x10001C || inR 0x100040 0x100060 off ||
    inR 0x100100 0x100160 off || inR 0x100200 0x100260 off || inR 0x100400 0x100480 off || off == 0x108000 || off == 0x108004

/-- A write of a register of the always-on domain. -/
def State.aonWrite (s : State) (h : Hit) (off v : Nat) : State :=
  if s.aon.is F.SEQ_CTRL_LOCK && seqLocked off then s
  else if off = 0x100000 then
    let s := s.onAon fun a => (a.store h off v).wr F.SEQ_CTRL_LOCK 0
    let s := if F.SEQ_CTRL_SWRESET.of v = 1 then s.swreset else s
    if F.SEQ_CTRL_LOCK.of v = 1 then s.onAon fun a => a.wr F.SEQ_CTRL_LOCK 1 else s
  else if off = 0x100018 then s.onAon fun a =>
    if a.is F.SEQ_MARGIN_BUSY then a
    else
      let b := a.store h off v
      if F.SEQ_MARGIN_GO.of v = 1 then b.hostMargin (b.rd F.SEQ_MARGIN_CH) (b.rd F.SEQ_MARGIN_STEP) else b
  else if off = 0x108018 then s.onAon fun a =>
    if F.LKT_RD_IDX_GO.of v = 1 then a.lktRead (F.LKT_RD_IDX_IDX.of v) else a.store h off v
  else s.onAon fun a => a.store h off v

/-- The queues of the standing program start (R134); a pair member that does not drive holds them as it holds every context-0 queue (R500). -/
def Dev.standRun (d : Dev) : Dev :=
  let qs : List StandQ := match d.boot.image.standing with | some st => st.queues | none => []
  (qs.foldl (fun (d : Dev) (e : StandQ) => d.startQueue e.queue) d).setStanding 5

/-- BOOT_STANDING.GO releases a standing program that waits for the host (R134). -/
def Dev.standGo (d : Dev) : Dev := if d.rd F.BOOT_STANDING_STATE = 4 then d.standRun else d

/-- A write of a PCI_ register (R156, R162). -/
def Dev.pciWrite (d : Dev) (off v : Nat) (g : Dev) : Dev :=
  if off = 0x300008 then
    if g.is F.PCI_ERR_REG_ACCESS || g.is F.PCI_ERR_DOMAIN_OFF || g.is F.PCI_ERR_BAR2_HOLE || g.is F.PCI_ERR_P2P_VIOLATION ||
      g.is F.PCI_ERR_CPL_FAIL then g else g.wr F.PCI_ERR_FIRST 0xFF
  else if inR 0x300440 0x300540 off then
    let k := (off - 0x300440) / 32
    let ctl := (off - 0x300440) % 32 == 4
    if d.is (F.PCI_AP_CTL_EN k) then (if ctl && v % 2 == 0 then d.wr (F.PCI_AP_CTL_EN k) 0 else d)
    else if ctl then (if v % 2 = 1 then (g.wr (F.PCI_AP_CTL_EN k) 0).apEnable k else g)
    else g
  else g

/-- A write of a MEM_ register (R177, R180); no key command stays busy. -/
def Dev.memWrite (d : Dev) (off i v : Nat) (g : Dev) : Dev :=
  if off = 0x400040 then (if F.MEM_KEY_CMD_GO.of v = 1 then g.keyCmd (g.rd F.MEM_KEY_CMD_OP) (g.rd F.MEM_KEY_CMD_SLOT) else g)
  else if inR 0x400080 0x4000C0 off then d.wr (F.MEM_KEY_DATA_DATA i) v
  else g

/-- The operation that MMU_CTX_CMD.GO starts (R184, R209). -/
def Dev.ctxRun (d : Dev) (op : Nat) : Dev :=
  match op with
  | 0 => d.ctxGo 0 Dev.ctxCreate
  | 1 => d.ctxGo 1 Dev.ctxDestroy
  | 2 => d.ctxGo 2 Dev.ctxBind
  | 3 => d.ctxGo 3 Dev.ctxUnbind
  | 4 => d.ctxGo 4 Dev.ctxSetRoot
  | 5 => d.ctxGo 5 Dev.ctxPin
  | 6 => d.ctxGo 6 Dev.ctxUnpin
  | _ => d.ctxGo 7 Dev.ctxQuery

/-- A write of an MMU_ register (R209, R210). -/
def Dev.mmuWrite (d : Dev) (off v : Nat) (g : Dev) : Dev :=
  if inR 0x500010 0x500040 off then
    if d.is F.MMU_CTX_CMD_BUSY then d
    else if off = 0x500014 && F.MMU_CTX_CMD_GO.of v = 1 then g.ctxRun (g.rd F.MMU_CTX_CMD_OP)
    else g
  else if inR 0x501000 0x501400 off then
    let k := (off - 0x501000) / 16
    if d.is (F.MMU_WIN_CTL_EN k) then (if (off - 0x501000) % 16 = 0 then d.wr (F.MMU_WIN_CTL_EN k) v else d) else g
  else g

/-- The operation that CMD_PRE_CMD.GO starts (R232). -/
def Dev.preRun (d : Dev) (op : Nat) : Dev :=
  match op with
  | 0 => d.preGo 0 Dev.setSpillCtx
  | 1 => d.preGo 1 Dev.preemptCtx
  | 2 => d.preGo 2 Dev.resumeCtx
  | 3 => d.preGo 3 Dev.hostKill
  | 4 => d.preGo 4 Dev.preQuery
  | _ => d.preGo 5 Dev.clearSpillCtx

/-- A write of a register of queue `q` (R236, R237). -/
def Dev.qRegWrite (d : Dev) (req : Requester) (q o v : Nat) : Dev :=
  match o with
  | 0x00 => d.cfgWrite req q v
  | 0x08 => d.qBase req q (F.Q_RING_BASE_VA q) v
  | 0x10 => d.qBase req q (F.Q_CPL_BASE_VA q) v
  | 0x1C => d.doorbell req q (v % 65536)
  | 0x20 => d.cplHead req q (v % 65536)
  | _ => d

/-- A write of a CMD_ register (R228–R237, R247, R249). -/
def Dev.cmdWrite (d : Dev) (req : Requester) (off i v : Nat) (g : Dev) : Dev :=
  if inR 0x601000 0x602000 off then d.qRegWrite req i ((off - 0x601000) % 64) v
  else if inR 0x604000 0x608000 off then d.semValWrite req i v
  else if inR 0x610000 0x614000 off then d.semCfgWrite req i v
  else if 0x700000 ≤ off then d.doorbell req i (v % 65536)
  else if off = 0x608000 then (if d.is F.CMD_EVT_CTRL_EN then d else g)
  else if off = 0x608008 then d.evCtrl v
  else if off = 0x60800C then d.evHead (F.CMD_EVT_HEAD_HEAD.of v)
  else if off = 0x608040 then d.poolWrite (F.CMD_SAVE_POOL_SIZE.of v)
  else if off = 0x608048 || off = 0x608050 then (if d.is F.CMD_PRE_CMD_BUSY then d else g)
  else if off = 0x608058 then
    if d.is F.CMD_PRE_CMD_BUSY then d
    else if F.CMD_PRE_CMD_GO.of v = 1 then g.preRun (g.rd F.CMD_PRE_CMD_OP) else g
  else g

/-- A write of a PWR_ register (R376, R385). -/
def State.pwrWrite (s : State) (off v : Nat) (g : Dev) : State :=
  let s' := { s with dev := g }
  if off = 0x800000 then s'.onDev Dev.showPower
  else if off = 0x800010 then
    let s' := s'.onDev Dev.showEdcLim
    if F.PWR_EDC_PHASE_RESTORE.of v = 1 then s'.phaseRestore else s'
  else s'

/-- Whether a gate or verdict block owned by context 0 is closed to register writes (R404). -/
def Dev.tbProtected (d : Dev) (owner : Fld) : Bool := d.rd F.BOOT_STANDING_STATE == 5 && d.rd owner == 0

/-- A write of a TB_ or VP_ register (R391, R392, R404, R408, R411). -/
def Dev.tbWrite (d : Dev) (off i v : Nat) (g : Dev) : Dev :=
  if off = 0x900000 then d.tbCtrl v
  else if d.is F.TB_CTRL_LOCK then d
  else if off = 0x900010 || off = 0x900014 || off = 0x900018 || off = 0x900028 then
    if d.is F.TB_CTRL_EN || (off == 0x900014 && decide (d.rd F.TB_ZPERIOD_PERIOD ≤ F.TB_ZPHASE_PHASE.of v)) then d else g
  else if off = 0x900004 || off = 0x900034 then (if d.tb.mode = .host then g.rebase .host d.tb.p else g)
  else if off = 0x900038 then d.hostStep v
  else if inR 0x900080 0x900090 off then
    if d.tbProtected (F.TB_GATE_CFG_CTX i) then d
    else if (d.gate i).isEmpty then g else g.wr (F.TB_GATE_CFG_CTX i) (d.rd (F.TB_GATE_CFG_CTX i))
  else if off = 0x9000A0 || off = 0x9000A4 then { g with tb := { g.tb with crossed := g.pulseIdx g.tb.p } }
  else if off = 0x900100 then (if F.VP_CTRL_CLEAR.of v = 1 then d.verdictClear else d)
  else if inR 0x900140 0x900180 off then (if d.tbProtected (F.VP_BLOCK_CTX i) then d else g)
  else g

/-- A write of a CRD_, CBP_ or MED_ register (R433, R435, R455, R474). -/
def Dev.cardWrite (d : Dev) (req : Requester) (off v : Nat) (g : Dev) : Dev :=
  let own := d.owned req
  if inR 0xA00000 0xA00028 off then (if own then d else g)
  else if off = 0xA00044 then
    if d.is F.CRD_CMD_BUSY then d
    else if F.CRD_CMD_GO.of v = 1 then g.crdCmd own (g.rd F.CRD_CMD_OP) else g
  else if off = 0xA02000 then (if own then d else g)
  else if off = 0xA02014 then
    if d.is F.CBP_CMD_BUSY then d
    else if F.CBP_CMD_GO.of v = 1 then (g.cbpCmd own (g.rd F.CBP_CMD_OP)).kick else g
  else if off = 0xA02018 || off = 0xA0201C || inR 0xA08000 0xA0C800 off then (if d.is F.CBP_CMD_BUSY then d else g)
  else if off = 0xA04000 then (if own then d else g)
  else if off = 0xA0400C then
    if d.is F.MED_CMD_BUSY then d
    else if F.MED_CMD_GO.of v = 1 then g.medCmd own (g.rd F.MED_CMD_OP) else g
  else if inR 0xA04800 0xA05000 off then (if d.is F.MED_CMD_BUSY then d else g)
  else g

/-- A write of a CLS_ register (R477, R494). -/
def Dev.clsWrite (d : Dev) (off i v : Nat) (g : Dev) : Dev :=
  if inR 0xB00040 0xB00080 off then
    if (F.CLS_ROUTE_PORT i).of v == 3 && d.paired then g.wr (F.CLS_ROUTE_PORT i) (d.rd (F.CLS_ROUTE_PORT i)) else g
  else if inR 0xB00100 0xB00180 off then (if (off - 0xB00100) % 32 = 0 then d.portCfg i v else d)
  else g

/-- A write of a PAIR_ register (R512). -/
def Dev.pairWrite (d : Dev) (off v : Nat) (g : Dev) : Dev :=
  if off = 0xC00000 || off = 0xC00004 || off = 0xC00008 then
    if d.is F.PAIR_CFG_LOCK then d
    else if off = 0xC00004 && decide (F.PAIR_TIME_TAKEOVER_US.of v < 3 * d.rd F.PAIR_CFG_HB_US) then
      g.wr F.PAIR_TIME_TAKEOVER_US (d.rd F.PAIR_TIME_TAKEOVER_US)
    else g
  else if off = 0xC00014 then
    if d.is F.PAIR_CMD_BUSY then d
    else if F.PAIR_CMD_GO.of v = 1 then g.pairCmd (g.rd F.PAIR_CMD_OP) else g
  else g

/-- A write of `v` to the register at `off` takes effect (R8, R10): on the fields of its access codes, within its block's locks,
and on what the field triggers. -/
def State.regSet (s : State) (req : Requester) (h : Hit) (off v : Nat) : State :=
  let g := s.dev.store h off v
  if aonOff off then s.aonWrite h off v
  else if off = 0x200014 then (if F.BOOT_STANDING_GO.of v = 1 then s.onDev Dev.standGo else s)
  else if inR 0x300000 0x400000 off then s.onDev fun d => d.pciWrite off v g
  else if inR 0x400000 0x500000 off then s.onDev fun d => d.memWrite off h.i v g
  else if inR 0x500000 0x600000 off then s.onDev fun d => d.mmuWrite off v g
  else if inR 0x600000 0x800000 off then s.onDev fun d => d.cmdWrite req off h.i v g
  else if inR 0x800000 0x900000 off then s.pwrWrite off v g
  else if inR 0x900000 0xA00000 off then s.onDev fun d => d.tbWrite off h.i v g
  else if inR 0xA00000 0xB00000 off then s.onDev fun d => d.cardWrite req off v g
  else if inR 0xB00000 0xC00000 off then s.onDev fun d => d.clsWrite off h.i v g
  else if inR 0xC00000 0x1000000 off then s.onDev fun d => d.pairWrite off v g
  else { s with dev := g }

/-! ### Halves, widths and domains (R9, R144, R154, R527) -/

/-- The held low half of the register at `base`. -/
def State.held (s : State) (base : Nat) : Option Nat := fget (if aonOff base then s.aon.held32 else s.dev.held32) base

/-- Sets or clears the held low half of the register at `base`. -/
def State.setHeld (s : State) (base : Nat) (v : Option Nat) : State :=
  let f (m : FMap Nat) : FMap Nat := match v with | some x => fset m base x | none => fdel m base
  if aonOff base then { s with aon := { s.aon with held32 := f s.aon.held32 } }
  else { s with dev := { s.dev with held32 := f s.dev.held32 } }

/-- A 32-bit write at an aligned offset outside the MSI-X table (R9, R10, R144). A low half is held whatever a lock says at that moment,
as for an aperture whose EN is 1; the lock counts when the high half commits (R162; DESIGN CHOICE, log entry 115). -/
def State.write32 (s : State) (req : Requester) (off v : Nat) : State :=
  if s.domainOff off then s.onDev fun d => d.pciErr 1 off (ridOf req)
  else match hitAt off with
    | none => s
    | some h =>
      if !h.reg.wide then s.regSet req h off (v % 2 ^ 32)
      else if h.high then
        let low := (s.held (off - 4)).getD (s.regVal h (off - 4) % 2 ^ 32)
        (s.setHeld (off - 4) none).regSet req { h with high := false } (off - 4) (low + v % 2 ^ 32 * 2 ^ 32)
      else s.setHeld off (some (v % 2 ^ 32))

/-- An aligned 64-bit write (R9): at once to a 64-bit register, otherwise as two 32-bit writes. -/
def State.write64 (s : State) (req : Requester) (off v : Nat) : State :=
  match wideAt off with
  | some h =>
    if s.domainOff off then s.onDev fun d => d.pciErr 1 off (ridOf req)
    else (s.setHeld off none).regSet req h off (v % 2 ^ 64)
  | none => (s.write32 req off (v % 2 ^ 32)).write32 req (off + 4) (v / 2 ^ 32)

/-- A write of `width` bytes at BAR0 offset `off` (R9, R527). -/
def State.mmioWrite (s : State) (req : Requester) (off width v : Nat) : State :=
  if inR 0x308000 0x310000 off then s.onDev fun d => d.msixWrite (ridOf req) off width v
  else if !(width == 4 || width == 8) || off % width != 0 then s.onDev fun d => d.pciErr 0 off (ridOf req)
  else if inR 0x310000 0x310100 off then s
  else if width = 4 then s.write32 req off v
  else s.write64 req off v

/-- A register access: while the function is in D3hot the host's complete as Unsupported Request (R154). -/
def State.accessed (s : State) (req : Requester) (f : State → State) : State :=
  if isHost req && s.dev.is F.PCI_STATUS_D3 then s.onDev fun d => d.send .unsupported else f s

/-- Runs a register access, where the PERI domain, through which every register is reached, runs. -/
def State.access (s : State) (req : Requester) (f : State → State) : Res := s.inPeri (.next (s.accessed req f))

/-! ### Commands -/

/-- REG_WRITE (R8). -/
def execRegWrite (req : Requester) (off width val : Nat) (s : State) : Res :=
  s.access req fun s => s.mmioWrite req off width val

/-- MISALIGNED_ACCESS (R9): no effect but the record in PCI_ERR. -/
def execMisalignedAccess (off rid : Nat) (s : State) : Res :=
  s.access (.host rid) fun s => s.onDev fun d => d.pciErr 0 off rid

/-- REG64_LOW_READ (R9): the high half is captured for the next read of it. -/
def execReg64LowRead (off : Nat) (s : State) (req : Requester := .host 0) : Res :=
  s.access req fun s => if (wideAt off).isSome then (s.read32 req off).2 else s

/-- REG64_LOW_WRITE (R9): the low half is held. -/
def execReg64LowWrite (req : Requester) (off val : Nat) (s : State) : Res :=
  s.access req fun s => if (wideAt off).isSome then s.write32 req off val else s

/-- REG64_HIGH_WRITE (R9): both halves are committed; `off` is the high half's. -/
def execReg64HighWrite (req : Requester) (off val : Nat) (s : State) : Res :=
  s.access req fun s => if 4 ≤ off && (wideAt (off - 4)).isSome then s.write32 req off val else s

/-- DOMAIN_OFF_ACCESS (R144): logged, without effect; for a register whose domain is on it is no such access. -/
def execDomainOffAccess (off rid : Nat) (s : State) : Res :=
  s.access (.host rid) fun s => if s.domainOff off then s.onDev fun d => d.pciErr 1 off rid else s

end Sys2Proof.Machine
end

