-- ==== Sys2Proof/Machine/Dma.lean ====
section
/-! DEFINITION. DMA (R173, R174, R190–R192, R254, R255): the source stream reads ahead of the destination stream, requests of host memory
and of clasp windows are sent and their data is taken as it comes, and each element that is there is converted and written. A mover goes
as far as it can when DMA_COMPLETE comes (log entry 9). -/

namespace Sys2Proof.Machine

/-! ### Registers as a mover reaches them (R164, R173) -/

/-- The width of the next access to registers at offset `o` with `n` bytes to go: aligned 8 bytes, aligned 4 bytes, or what is left of
the bytes and of the word, which R9 refuses. -/
def regWidth (o n : Nat) : Nat := if o % 8 = 0 && 8 ≤ n then 8 else if o % 4 = 0 && 4 ≤ n then 4 else min n (4 - o % 4)

/-- Reads `n` bytes of registers from offset `o`. -/
def regRead (req : Requester) (o n : Nat) : Nat → State → List Byte × State
  | 0, s => ([], s)
  | fuel + 1, s =>
    if n = 0 then ([], s)
    else
      let k := regWidth o n
      let r := if k < 4 then (0, s.onDev fun d => d.pciErr 0 o 0) else s.mmioRead req o k
      let t := regRead req (o + k) (n - k) fuel r.2
      (toBytes k r.1 ++ t.1, t.2)

/-- Writes bytes to registers from offset `o` on behalf of context `c`, in accesses as for a read. -/
def State.regPut (s : State) (c o : Nat) : Nat → List Byte → State
  | 0, _ => s
  | fuel + 1, bs =>
    if bs.isEmpty then s
    else
      let k := regWidth o bs.length
      (s.mmioWrite (.mover c) o k (ofBytes (bs.take k))).regPut c (o + k) fuel (bs.drop k)

/-- Writes the register bytes that a Put has collected. -/
def State.regsPut (s : State) (c : Nat) (l : List (Nat × List Byte)) : State :=
  l.foldl (fun (s : State) (p : Nat × List Byte) => s.regPut c p.1 (p.2.length + 1) p.2) s

/-! ### Elements (R174, R283) -/

/-- Element `j` of a row of format `f`. -/
def elemAt (f : Nat) (bs : List Byte) (j : Nat) : Nat :=
  if fmtBits f = 4 then bytesAt bs (j / 2) 1 / 2 ^ (4 * (j % 2)) % 16 else bytesAt bs (j * (fmtBits f / 8)) (fmtBits f / 8)

/-- The bytes of a row of elements of format `f`. -/
def packElems (f : Nat) : List Nat → List Byte
  | [] => []
  | a :: l =>
    if fmtBits f = 4 then
      match l with
      | [] => toBytes 1 a
      | b :: l => toBytes 1 (a + 16 * b) ++ packElems f l
    else toBytes (fmtBits f / 8) a ++ packElems f l

/-- The counts of a conversion: saturations, invalid conversions, overflows. -/
structure Cnts where
  sat : Nat := 0
  inv : Nat := 0
  ovf : Nat := 0

/-- Counts one element in the first class that applies. -/
def Cnts.add (n : Cnts) (m : MConv) : Cnts :=
  if m.sat then { n with sat := n.sat + 1 } else if m.inv then { n with inv := n.inv + 1 }
  else if m.ovf then { n with ovf := n.ovf + 1 } else n

/-- The elements in bytes of format `f`. -/
def elemsOf (f : Nat) (bs : List Byte) : List Nat := (List.range (bs.length * 8 / fmtBits f)).map (elemAt f bs)

/-- Elements converted from the source format to the destination format of descriptor `x`, with the counts so far; a DMA of bytes is a
copy. -/
def convElems (x : Desc) (n : Cnts) (es : List Nat) : Cnts × List Byte :=
  let s := dFmt x false
  let t := dFmt x true
  if s = t then (n, packElems t es)
  else
    let ms := es.map (moverConv s t (dfld x 48 0 32))
    (ms.foldl Cnts.add n, packElems t (ms.map (·.p)))

/-! ### The streams (R173, R254) -/

/-- The number of elements of a DMA. -/
def dTotal (x : Desc) : Nat := dX x * dY x * dZ x

/-- The elements from `e` on that lie in its row and before the next 256-byte boundary of a side. -/
def pieceLen (x : Desc) (dst : Bool) (e : Nat) : Nat :=
  min (dX x - e % dX x) ((256 - elemVa x dst e % 256) * 8 / fmtBits (dFmt x dst))

/-- The bytes of `k` elements of a side. -/
def pieceBytes (x : Desc) (dst : Bool) (k : Nat) : Nat := (k * fmtBits (dFmt x dst) + 7) / 8

/-- `k` elements from `e` on out of the data that has been read, when all of them are there. -/
def takeElems (f : Nat) (rdata : List (Nat × List Byte)) : Nat → Nat → Nat → Option (List Nat)
  | _, _, 0 => some []
  | 0, _, _ => none
  | fuel + 1, e, k =>
    match rdata.find? fun r => decide (r.1 ≤ e) && decide (e < r.1 + r.2.length * 8 / fmtBits f) with
    | none => none
    | some r =>
      let l := ((elemsOf f r.2).drop (e - r.1)).take k
      (takeElems f rdata fuel (e + l.length) (k - l.length)).map (l ++ ·)

/-- A DMA in progress: the state so far, the kills it has led to, and whether it goes on. -/
structure DmaRun where
  s : State
  ks : List KillReq := []
  on : Bool := true

/-- The source stream of DMA `i` of queue `q` goes on: it reads a piece, or sends a read for it. -/
def State.dmaRead (s : State) (q : Nat) (i : Issued) : DmaRun :=
  let x := i.d
  let e := i.asked
  let got := s.dev.readAt q i.seq (moverSrc i) e (elemVa x false e) (pieceBytes x false (pieceLen x false e))
  let s := { s with dev := got.1 }
  let k := min (pieceLen x false e) (got.2.1 * 8 / fmtBits (dFmt x false))
  let bring (s : State) (l : List (Nat × List Byte)) : DmaRun :=
    { s := s.onDev fun d => d.onIssued q i.seq fun i => { i with asked := e + k, rdata := i.rdata ++ l } }
  match got.2.2 with
  | .bytes bs => bring s [(e, bs)]
  | .regs o n => let r := regRead (.mover (s.dev.qctx q)) o n (n + 1) s; bring r.2 [(e, r.1)]
  | .sent => bring s []
  | .wait => { s := s, on := false }
  | .kill k => { s := s, ks := [k] }

/-- The destination stream of DMA `i` of queue `q` writes the elements `es` from where it stands on. -/
def State.dmaWrite (s : State) (q : Nat) (i : Issued) (es : List Nat) : DmaRun :=
  let x := i.d
  let e := i.progress
  let o := convElems x ⟨i.cnts.1, i.cnts.2.1, i.cnts.2.2⟩ es
  let p := putRun q i.seq (moverSrc i) (o.2.length + 1) { d := s.dev } (elemVa x true e) o.2
  let s := { s with dev := p.d }
  if !p.ks.isEmpty then { s := s.regsPut (s.dev.qctx q) p.regs, ks := p.ks }
  else if p.wait.isSome then { s := s, on := false }
  else
    let e' := e + es.length
    let keep (l : List (Nat × List Byte)) := l.filter fun r => decide (e' < r.1 + r.2.length * 8 / fmtBits (dFmt x false))
    { s := (s.onDev fun d => d.onIssued q i.seq fun i =>
        { i with progress := e', rdata := keep i.rdata, cnts := (o.1.sat, o.1.inv, o.1.ovf) }).regsPut (s.dev.qctx q) p.regs }

/-- One step of DMA `i` of queue `q`: it writes the next piece when its data is there, else its source stream goes on, at most 64 pieces
ahead. -/
def State.dmaStep (s : State) (q : Nat) (i : Issued) : DmaRun :=
  let k := pieceLen i.d true i.progress
  match takeElems (dFmt i.d false) i.rdata (k + 1) i.progress k with
  | some es => s.dmaWrite q i es
  | none =>
    if i.asked < dTotal i.d && i.rdata.length + (i.toAck - i.acked) < 64 then s.dmaRead q i else { s := s, on := false }

/-- The DMA with sequence number `n` of queue `q` goes as far as it can, and ends when all of it is written (R255, R256). -/
def State.dmaGo (q n : Nat) : Nat → State → State
  | 0, s => s
  | f + 1, s =>
    match s.dev.bySeq q n with
    | none => s
    | some i =>
      if !(s.dev.moving q i && i.endAs.isNone) then s
      else if dTotal i.d ≤ i.progress then
        s.onDev fun d => Dev.done (d.endMover q n 0 (i.cnts.1 % 2 ^ 32 + i.cnts.2.1 % 2 ^ 32 * 2 ^ 32) (i.cnts.2.2 % 2 ^ 32))
      else
        let r := s.dmaStep q i
        if !r.ks.isEmpty then r.s.onDev fun d => Dev.done (d, r.ks) else if r.on then r.s.dmaGo q n f else r.s

/-- DMA_COMPLETE (R255): the mover of the descriptor goes on, as far as it can (log entry 9). -/
def execDmaComplete (q idx : Nat) (s : State) : Res := s.inCore (
  match s.dev.issued q idx with
  | some i => if dOp i.d = 0x01 then .next (s.dmaGo q i.seq (4 * dTotal i.d + 4)) else .next s
  | none => .next s)

/-! ### Host credits (R33, R39, R161) -/

/-- Sends what waits for credits, in order, while there are any. -/
def Dev.drainStalled : Nat → Dev → Dev
  | 0, d => d
  | f + 1, d =>
    match d.pci.stalled with
    | [] => d
    | p :: ps => if d.pci.credits = 0 then d else ({ d with pci := { d.pci with stalled := ps } }.takeCredit.send p.out).drainStalled f

/-- HOST_CREDITS_RETURNED (R33, R39, R196): `n` credits return to the pool, what waits for them goes out, and what has waited for that
goes on: an invalidation whose completion has been sent, and descriptors whose last write has. -/
def execHostCreditsReturned (s : State) (n : Nat := 1) : Res := s.nextPeri fun d =>
  let d := { d with pci := { d.pci with credits := d.pci.credits + n, emptySince := if d.pci.credits + n = 0 then d.pci.emptySince else none } }
  let d := if d.pci.credits = 0 then d else d.wr F.PCI_STATUS_HCP_STALL 0
  let d := (d.drainStalled (d.pci.stalled.length + 1)).invalEnd
  (d.collect fun _ i => i.endAs.isSome).foldl (fun d w => d.endCheck w.1 w.2.seq) d

end Sys2Proof.Machine
end

