-- ==== Sys2Proof/Machine/Media.lean ====
section
/-! DEFINITION. The commands of the media engine (chapter 20): CARD_READ, MED_CMD, and the ends of page operations; and the last
steps of the standalone start, which follow the load of the recipe (R134). -/

namespace Sys2Proof.Machine

/-! ### CARD_READ and MED_CMD (R465, R466, R474) -/

/-- A CARD_READ of mode `mode` issues and joins the clients of the engine. -/
def Dev.cardRead (d : Dev) (q mode : Nat) : Dev := d.goHead q 0x40 fun d x =>
  if dfld x 8 0 2 != mode then d
  else
    let n := d.issueSeq
    let j : MedJob := if mode = 0 then .recipe q n 0 else .partition q n 0
    ((d.issueMover q x).onMed fun m => { m with clients := m.clients ++ [j] }).kick

/-- CARD_READ_RECIPE (R465). -/
def execCardReadRecipe (q : Nat) (s : State) : Res := s.nextCore fun d => d.cardRead q 0
/-- CARD_READ_PARTITION (R466). -/
def execCardReadPartition (q : Nat) (s : State) : Res := s.nextCore fun d => d.cardRead q 1

/-- MOUNT (R462). -/
def execMount (s : State) (req : Requester := .host 0) : Res := s.devReg req 0xA0400C fun d => d.medCmd (d.owned req) 0
/-- UNMOUNT (R462). -/
def execUnmount (s : State) (req : Requester := .host 0) : Res := s.devReg req 0xA0400C fun d => d.medCmd (d.owned req) 1
/-- FLUSH (R472). -/
def execFlush (s : State) (req : Requester := .host 0) : Res := s.devReg req 0xA0400C fun d => d.medCmd (d.owned req) 2
/-- APPEND (R472). -/
def execAppend (s : State) (req : Requester := .host 0) : Res := s.devReg req 0xA0400C fun d => d.medCmd (d.owned req) 3

/-! ### The page operation in progress -/

/-- The cartridge command of a page operation: 2 read, 3 program, 4 erase, 0 none. -/
def MedJob.cmd (j : MedJob) : Nat :=
  match j with
  | .none => 0
  | .hdrErase _ => 4
  | .refErase _ _ _ => 4
  | .mapErase _ => 4
  | .logErase _ => 4
  | .hdrProg _ => 3
  | .refProg _ _ _ _ => 3
  | .mapProg _ _ => 3
  | .logProg _ _ => 3
  | _ => 2

/-- Whether a page operation of kind `k` is in progress: its command on the bus, or its result in. -/
def Dev.opGoing (d : Dev) (k : Nat) : Bool := d.med.job.cmd == k && (d.cbp.mres.isSome || d.cbp.job == .media)

/-- The command of the page operation is over: its result is taken, and the bus is free. -/
def Dev.opTake (d : Dev) : Dev :=
  if d.cbp.mres.isSome then d.onCbp fun c => { c with mres := none } else d.cbpFree

/-! ### Sectors of a page read (R459, R460, R469) -/

/-- The object key of a client. -/
def MedJob.key (j : MedJob) : Option Nat :=
  match j with
  | .recipe _ n _ => some n
  | .partition _ n _ => some n
  | .standing _ => some standKey
  | _ => Option.none

/-- Block `b` is due for refresh. -/
def Dev.addDue (d : Dev) (b : Nat) : Dev := d.onMed fun m => if m.due.contains b then m else { m with due := m.due ++ [b] }

/-- Whether a block whose page 0 holds `stamp` is older than AGE_DAYS allows (R469). -/
def Dev.aged (d : Dev) (stamp : Nat) : Bool := d.med.hdr.age != 0 && decide (d.med.hdr.age * 1440 < d.cartTime - stamp)

/-- Takes a decoded sector of page `page` of block `b`: its count, and whether its block is due. -/
def Dev.sectorIn (d : Dev) (b page s : Nat) (x : List Byte) (n : Nat) : Dev :=
  let due := decide (48 < n) || d.med.retry != 0 || (page == 0 && d.aged (bytesAt x 2056 4))
  let d := d.wr F.MED_MAXC_BITS (max n (d.rd F.MED_MAXC_BITS))
  let d := d.onMed fun m =>
    let objs := match m.job.key with
      | some k => fset m.objs k (((fget m.objs k).getD ([], 0)).1, max n (m.worst k))
      | none => m.objs
    { m with page := fset m.page s x, objs := objs }
  if due then d.addDue b else d

/-- An erased sector: 0xFF in every byte. -/
def erasedSector : List Byte := List.replicate 2064 0xFF

/-- Decodes sectors of a raw page; answers those that are uncorrectable. -/
def Dev.decodeAll (d : Dev) (b page : Nat) (raw : List Byte) : List Nat → Dev × List Nat
  | [] => (d, [])
  | s :: ss =>
    match decodeSector ((raw.drop (2304 * s)).take 2304) with
    | .erased => (d.onMed fun m => { m with page := fset m.page s erasedSector }).decodeAll b page raw ss
    | .good x n => (d.sectorIn b page s x n).decodeAll b page raw ss
    | .bad => let r := d.decodeAll b page raw ss; (r.1, s :: r.2)

/-- A sector that stays uncorrectable is a media error (R460, R475). -/
def Dev.mediaErrors (d : Dev) (b page : Nat) : List Nat → Dev
  | [] => d
  | s :: ss => ((d.sat F.MED_CNT2_UNCORR).postInfo 37 0x1825 (b % 2 ^ 16 + page * 2 ^ 16 + s * 2 ^ 24)).mediaErrors b page ss

/-- The data bytes of the page in the buffer; sectors that are not needed read zero. -/
def Med.data (m : Med) : List Byte :=
  (List.range 8).flatMap fun s => ((fget m.page s).getD (List.replicate 2064 0)).take 2048

/-! ### Mount (R461–R463, R471) -/

/-- The header that a sector's bytes hold, when it is valid on a card of `blocks` blocks (R461). -/
def hdrOf (x : List Byte) (blocks : Nat) : Option MedHdr :=
  let h : MedHdr := { bbtF := bytesAt x 6 2, bbtL := bytesAt x 8 2, rcpF := bytesAt x 10 2, rcpL := bytesAt x 12 2,
                      spare := bytesAt x 14 2, logF := bytesAt x 16 2, logL := bytesAt x 18 2, age := bytesAt x 20 2 }
  let ok := bytesAt x 0 4 == 0x52444843 && bytesAt x 4 2 == 1 && bytesAt x 60 4 == (crc32 (x.take 60)).toNat &&
    decide (4 ≤ h.bbtF) && decide (h.bbtF + 1 ≤ h.bbtL) && decide (h.bbtL < h.rcpF) && decide (h.rcpF ≤ h.rcpL) &&
    decide (h.rcpL < h.logF) && decide (h.logF + 7 ≤ h.logL) && decide (h.logL < blocks) && decide (h.spare < h.rcpL + 1 - h.rcpF)
  if ok then some h else none

/-- The element of the largest second part, the first of equals. -/
def topSeq : List (Nat × Nat) → Option (Nat × Nat)
  | [] => none
  | e :: l =>
    match topSeq l with
    | some f => if e.2 < f.2 then some f else some e
    | none => some e

/-- Goes on with the binary search for the last page of the active block that is not erased: it lies from `lo` to `hi`. -/
def Dev.mapSeek (d : Dev) (lo hi : Nat) : Dev :=
  let b := d.med.mapBlk
  if lo < hi then d.readPage (.mapSearch lo hi) b ((lo + hi + 1) / 2) [0]
  else (d.onMed fun m => { m with mapPage := lo }).readPage (.mapLoad lo) b lo (List.range 8)

/-- The next BBT block, or the choice of the active one (R462). -/
def Dev.bbtNext (d : Dev) (b : Nat) : Dev :=
  if b ≤ d.med.hdr.bbtL then d.readPage (.bbtFirst b) b 0 [0]
  else match topSeq d.med.bbtSeqs with
    | some e => (d.onMed fun m => { m with mapBlk := e.1 }).mapSeek 0 255
    | none => d.mountFail 3 false

/-- The cartridge is mounted with the map page in the buffer (R462, R471, R472); the block of a MOUNT record is stated nowhere: a free
value. -/
def Dev.mounted (d : Dev) : Dev :=
  let x := (fget d.med.page 0).getD []
  let seq := bytesAt x 2052 4
  let stamp := bytesAt x 2056 4
  let d := d.onMed fun m => { m with map := MapPage.parse m.data seq stamp, bbtSeqs := [],
                                     ctBase := max stamp (d.rd F.MED_WALL_MIN), ctUp := d.uptime }
  let d := (d.wrs [(F.MED_STATUS_STATE, 2), (F.MED_STATUS_UNSAVED, 0), (F.MED_MAXC_BITS, 0)]).postInfo 37 0x1820 seq
  let (b, d) := d.fresh
  let d := d.logEngine 1 (b % 65536)
  if d.med.cmd == some 0 then d.medDone 0 else d

/-! ### The end of a load (R134, R238, R465) -/

/-- Whether the bytes of an object are a valid recipe of directory entry `e` (R465). -/
def recipeOk (e : DirEntry) (x : List Byte) : Bool :=
  bytesAt x 0 4 == 0x43525A47 && bytesAt x 4 4 == e.id && bytesAt x 8 4 == e.len && bytesAt x 12 48 == 0 &&
    bytesAt x 60 4 == (crc32 (x.take 60)).toNat && e.ocrc == (crc32 x).toNat

/-- A standing queue as R238 configures it. -/
def Dev.standQueue (d : Dev) (base : Nat) (e : StandQ) : Dev :=
  let ring := base + e.ringOffset
  (d.setQueue e.queue {}).wrs [(F.Q_CFG_PRIO e.queue, e.prio), (F.Q_CFG_LOG2 e.queue, e.log2), (F.Q_CFG_CPL_LOG2 e.queue, e.log2),
    (F.Q_CFG_CPL_MODE e.queue, 1), (F.Q_CFG_PRIV e.queue, 1), (F.Q_CFG_HALT_ON_FAIL e.queue, 0), (F.Q_CFG_CTX e.queue, 0),
    (F.Q_RING_BASE_VA e.queue, ring), (F.Q_CPL_BASE_VA e.queue, ring + 64 * 2 ^ e.log2), (F.Q_HEAD_HEAD e.queue, 0),
    (F.Q_TAIL_TAIL e.queue, e.tail), (F.Q_CPL_HEAD_HEAD e.queue, 0), (F.Q_CPL_TAIL_TAIL e.queue, 0), (F.Q_CPL_TAIL_PHASE e.queue, 1)]

/-- Steps 3 to 5 of the standalone start (R134): context 0, its queues, and their start unless the host is to release it. -/
def Dev.standFinish (d : Dev) (st : Standing) (ocrc : Nat) : Dev :=
  let d := { d with boot := { d.boot with loaded := some (st.recipe, ocrc), loadPos := 0, standStep := 3 } }
  let d := d.createZero st.base st.max st.key
  let d := st.queues.foldl (fun (d : Dev) (e : StandQ) => d.standQueue st.base e) d
  let d := if st.hostGo then d.setStanding 4 else d.standRun
  d.pairIdent

/-- The bytes `lo` to `hi - 1` of a client's data that the page in the buffer holds from its byte `at` on. -/
def Med.piece (m : Med) (at_ n : Nat) : List Byte := (m.data.drop at_).take n

/-- Client `j` goes on as `j'`. -/
def Dev.clientNext (d : Dev) (j j' : MedJob) : Dev :=
  d.onMed fun m => { m with clients := m.clients.map fun x => if x == j then j' else x }

/-- What a page read leaves to do outside the engine: the register bytes of a transfer and its context. -/
abbrev Left := List (Nat × List Byte) × Nat

/-- Writes a piece of a CARD_READ (descriptor `n` of queue `q`) at position `pos` of its destination, from where it had got to on. -/
def Dev.deliver (d : Dev) (q n pos : Nat) (bs : List Byte) : Put :=
  match d.bySeq q n with
  | none => { d := d }
  | some i =>
    let dst := dfld i.d 24 0 64
    let at_ := max pos i.progress
    let p := putRun q n (moverSrc i) (bs.length + 1) { d := d } (dst + at_) (bs.drop (at_ - pos))
    if p.ks.isEmpty then { p with d := p.d.onIssued q n fun i => { i with progress := (p.wait.map (· - dst)).getD (pos + bs.length) } }
    else p

/-- A page of a recipe load has been read (R465). -/
def Dev.recipeIn (d : Dev) (j : MedJob) (q n p : Nat) (e : DirEntry) : Dev × Left :=
  let k := min 16384 (e.len - 16384 * p)
  let bs := d.med.piece 0 k
  let put := d.deliver q n (16384 * p) bs
  let c := d.qctx q
  if !put.ks.isEmpty then (Dev.done (put.d, put.ks), put.regs, c)
  else if put.wait.isSome then (put.d, put.regs, c)
  else
    let all := ((fget d.med.objs n).getD ([], 0)).1 ++ bs
    let d := put.d.onMed fun m => { m with objs := fset m.objs n (all, m.worst n) }
    let j' : MedJob := .recipe q n (p + 1)
    let d := d.clientNext j j'
    if e.len ≤ 16384 * (p + 1) then
      let w := d.med.worst n
      (if recipeOk e all then d.clientEnd j' 0 e.len w else d.clientEnd j' 0xC 0 w, put.regs, c)
    else (d, put.regs, c)

/-- A page of the standing load has been read (R134). -/
def Dev.standIn (d : Dev) (j : MedJob) (p : Nat) (st : Standing) (e : DirEntry) : Dev :=
  if !d.keyOk st.key then (d.dropClient j).standFail 8
  else
    let k := min 16384 (e.len - 16384 * p)
    let bs := d.med.piece 0 k
    let all := ((fget d.med.objs standKey).getD ([], 0)).1 ++ bs
    let d := d.writeMem st.key (st.base + 16384 * p) bs 0 0
    let d := d.onMed fun m => { m with objs := fset m.objs standKey (all, m.worst standKey) }
    let d := { d with boot := { d.boot with loadPos := 16384 * p + k } }
    if e.len ≤ 16384 * (p + 1) then
      let d := d.onMed fun m => { m with objs := fdel m.objs standKey }
      if recipeOk e all then (d.dropClient j).standFinish st e.ocrc else d.clientEnd j 0xC 0 0
    else d.clientNext j (.standing (p + 1))

/-- A page of a partition read has been read (R466). -/
def Dev.partIn (d : Dev) (j : MedJob) (q n pos : Nat) (x : Desc) : Dev × Left :=
  let off := dfld x 16 0 64
  let len := min (dfld x 32 0 32) (d.med.partBytes (dfld x 8 2 2) - off)
  let lo := (off + pos) % 16384
  let k := min (16384 - lo) (len - pos)
  let put := d.deliver q n pos (d.med.piece lo k)
  let c := d.qctx q
  if !put.ks.isEmpty then (Dev.done (put.d, put.ks), put.regs, c)
  else if put.wait.isSome then (put.d, put.regs, c)
  else
    let j' : MedJob := .partition q n (pos + k)
    let d := put.d.clientNext j j'
    (if len ≤ pos + k then d.clientEnd j' 0 len (d.med.worst n) else d, put.regs, c)

/-! ### The end of a page read -/

/-- The refresh of block `p` ends without success: `p` is left as it is. -/
def Dev.refreshDrop (d : Dev) (p : Nat) : Dev := d.onMed fun m => { m with next := .none, due := m.due.filter (· != p) }

/-- A needed sector of client `j` is a media error. -/
def Dev.readFailed (d : Dev) (j : MedJob) : Dev :=
  match j.key with
  | some k => d.clientEnd j 0xD 0 (d.med.worst k)
  | none => d

/-- A page read of job `j` ends with the sectors `missing` uncorrectable. -/
def Dev.readEnded (d : Dev) (j : MedJob) (missing : List Nat) : Dev × Left :=
  let d := d.onMed fun m => { m with job := .none }
  let no : Left := ([], 0)
  let s0 := (fget d.med.page 0).getD []
  let ok := missing.isEmpty
  match j with
  | .header k =>
    match (if ok then hdrOf s0 d.cbp.blocks else none) with
    | some h => (((d.onMed fun m => { m with hdr := h, bbtSeqs := [] }).wr F.MED_STATUS_HDR_COPY k).bbtNext h.bbtF, no)
    | none => (if k < 3 then d.readPage (.header (k + 1)) (k + 1) 0 [0] else d.mountFail 1 false, no)
  | .bbtFirst b =>
    let good := ok && bytesAt s0 2048 1 == 0x5A
    ((if good then d.onMed fun m => { m with bbtSeqs := m.bbtSeqs ++ [(b, bytesAt s0 2052 4)] } else d).bbtNext (b + 1), no)
  | .mapSearch lo hi =>
    let mid := (lo + hi + 1) / 2
    (if ok && s0 == erasedSector then d.mapSeek lo (mid - 1) else d.mapSeek mid hi, no)
  | .mapLoad p =>
    if ok && (List.range 8).all fun s => fget d.med.page s != some erasedSector then (d.mounted, no)
    else if p = 0 then (d.mountFail 3 false, no)
    else (d.readPage (.mapLoad (p - 1)) d.med.mapBlk (p - 1) (List.range 8), no)
  | .recipe q n p =>
    if !ok then (d.readFailed j, no)
    else if !d.clientReady j then (d, no)
    else match d.bySeq q n with
      | some i =>
        match d.med.entry (dfld i.d 12 0 32) with
        | some e => d.recipeIn j q n p e
        | none => (d, no)
      | none => (d, no)
  | .standing p =>
    if !ok then (d.readFailed j, no)
    else match d.boot.image.standing with
      | some st =>
        match d.med.entry st.recipe with
        | some e => (d.standIn j p st e, no)
        | none => (d, no)
      | none => (d, no)
  | .partition q n pos =>
    if !ok then (d.readFailed j, no)
    else if !d.clientReady j then (d, no)
    else match d.bySeq q n with
      | some i => d.partIn j q n pos i.d
      | none => (d, no)
  | .hdrRead dst _ =>
    (if ok then d.onMed fun m => { m with buf := m.page, next := .hdrErase dst } else d.refreshDrop dst, no)
  | .refRead l p r page =>
    (if ok then d.onMed fun m => { m with buf := m.page, next := .refProg l p r page } else d.refreshDrop p, no)
  | .logCount b =>
    let n := if ok && s0 != erasedSector then bytesAt s0 2060 4 else d.med.logErases
    ((d.onMed fun m => { m with logPend := n + 1 }).eraseBlock (.logErase b) b, no)
  | _ => (d, no)

/-- A read of the page in progress has brought `raw`, or nothing: its sectors are decoded, and it ends or is read again (R459,
R460). -/
def Dev.pageIn (d : Dev) (raw : Option (List Byte)) : Dev × Left :=
  let j := d.med.job
  let b := d.cbp.arg32 / 256
  let page := d.cbp.arg32 % 256
  let todo := d.med.need.filter fun s => (fget d.med.page s).isNone
  let r := match raw with
    | some x => d.decodeAll b page x todo
    | none => (d, todo)
  let seeking := match j with | .mapSearch _ _ => true | _ => false
  if r.2.isEmpty || seeking then r.1.readEnded j r.2
  else if r.1.med.retry + 1 < r.1.cbp.retries then
    let k := r.1.med.retry + 1
    (((r.1.sat F.MED_CNT_RETRIES).onMed fun m => { m with retry := k }).medRead k b page, [], 0)
  else (r.1.mediaErrors b page r.2).readEnded j r.2

/-- The raw page that a read has brought: what came over the bus, else the operand; none where the card refused. -/
def Dev.rawOf (d : Dev) (raw : List Byte) : Option (List Byte) :=
  match d.cbp.mres with
  | some (16, x) => some x
  | some _ => none
  | none => some raw

/-- MEDIA_PAGE_READ_DONE (R459): the 18,432 bytes of a page; an engine that is idle goes on with what has become ready. -/
def execMediaPageReadDone (raw : List Byte) (s : State) : Res :=
  let d := s.dev
  s.inPeri (
    if d.opGoing 2 && (raw.length == 18432 || d.cbp.mres.isSome) then
      let r := d.opTake.pageIn (d.rawOf raw)
      .next (({ s with dev := r.1.kick }).regsPut r.2.2 r.2.1)
    else if d.med.job == .none then s.nextDev Dev.kick
    else .next s)

/-- What happens with no command waiting: the oldest entry of the DRAM write queue retires (R30, log entry 107), and an idle media
engine goes on with what has become ready (log entry 72). -/
def State.idle (s : State) : State := s.onPeri fun d => d.retireWrite.kick

/-! ### The end of a program or an erase (R468, R470, R472) -/

/-- How a program or an erase ends: 0 OK, 1 its FAIL status, 2 INDETERMINATE, 3 refused by the card. -/
def Dev.flashEnd (d : Dev) (bad : Nat) (r : FlashResult) : Nat :=
  match d.cbp.mres with
  | some (k, _) => if k = 16 then 0 else if k = 5 then 2 else if k = 16 + bad then 1 else 3
  | none => match r with | .ok => 0 | .fail => 1 | .indeterminate => 2

/-- Adds a block to a rising list, once. -/
def insBlock (b : Nat) : List Nat → List Nat
  | [] => [b]
  | x :: xs => if b < x then b :: x :: xs else if b = x then x :: xs else x :: insBlock b xs

/-- Block `b` is retired (R468). -/
def Dev.blockRetire (d : Dev) (b : Nat) : Dev :=
  let d := d.onMed fun m => { m with map := { m.map with bad := insBlock b m.map.bad }, mapDue := true, due := m.due.filter (· != b) }
  ((d.sat F.MED_CNT_RETIRED).postInfo 37 0x1822 b).logEngine 2 b

/-- The map page could not be written (R463). -/
def Dev.mapUnsaved (d : Dev) : Dev := (d.wr F.MED_STATUS_UNSAVED 1).postInfo 37 0x1826 d.med.map.seq

/-- The map page is written; a replacement it brings is reported (R463, R470). -/
def Dev.mapSaved (d : Dev) (b page : Nat) : Dev :=
  let d := (d.onMed fun m => { m with mapBlk := b, mapPage := page }).wr F.MED_STATUS_UNSAVED 0
  match d.med.remap with
  | some (_, p, r) =>
    (((d.onMed fun m => { m with remap := none }).sat F.MED_CNT_REFRESHED).postInfo 37 0x1823 (p + r * 2 ^ 16)).logEngine 3 p
  | none => d

/-- All pages of logical block `l` are copied from `p` to `r`: a map page brings `r` in (R470). -/
def Dev.remapTo (d : Dev) (l p r : Nat) : Dev := d.onMed fun m =>
  { m with map := { m.map with repl := (m.map.repl.filter fun e => e.1 != l) ++ [(l, r)] }, remap := some (l, p, r), mapDue := true,
           next := .none, due := m.due.filter (· != p) }

/-- Drops the records of the LOG page that has been written, or is lost. -/
def Dev.logDrop (d : Dev) : Dev := d.onMed fun m =>
  { m with logRecs := m.logRecs.drop 8, logDue := decide (8 ≤ (m.logRecs.drop 8).length) }

/-- A page program of job `j` ends with `r`. -/
def Dev.progEnd (d : Dev) (j : MedJob) (r : Nat) : Dev :=
  let next (n : MedJob) : Dev := d.onMed fun m => { m with next := n }
  match j with
  | .hdrProg b =>
    match r with
    | 0 => d.refreshDrop b
    | 1 => d.blockRetire b
    | 2 => next (.hdrErase b)
    | _ => d.refreshDrop b
  | .refProg l p t page =>
    match r with
    | 0 => if page = 255 then d.remapTo l p t else next (.refRead l p t (page + 1))
    | 1 => (d.blockRetire t).refreshStart p
    | 2 => next (.refErase l p t)
    | _ => d.refreshDrop p
  | .mapProg b page =>
    match r with
    | 0 => d.mapSaved b page
    | 1 => (d.onMed fun m => { m with mapBlk := b, mapPage := page }).blockRetire b
    | 2 => d.onMed fun m => { m with mapBlk := b, mapPage := page, mapDue := true }
    | _ => d.mapUnsaved
  | .logProg b page =>
    match r with
    | 0 => (d.onMed fun m => { m with logSeq := (m.logSeq + 1) % 2 ^ 32, logPage := page + 1 }).logDrop
    | 1 => d.blockRetire b
    | 2 => d.onMed fun m => { m with logSeq := (m.logSeq + 1) % 2 ^ 32, logPage := page + 1 }
    | _ => (d.sat F.MED_CNT2_LOG_LOST (min 8 d.med.logRecs.length)).logDrop
  | _ => d

/-- An erase of job `j` ends with `r`. -/
def Dev.eraseEnd (d : Dev) (j : MedJob) (r : Nat) : Dev :=
  let next (n : MedJob) : Dev := d.onMed fun m => { m with next := n }
  match j with
  | .hdrErase b =>
    match r with
    | 0 => next (.hdrProg b)
    | 1 => d.blockRetire b
    | 2 => next (.hdrErase b)
    | _ => d.refreshDrop b
  | .refErase l p t =>
    match r with
    | 0 => next (.refRead l p t 0)
    | 1 => (d.blockRetire t).refreshStart p
    | 2 => next (.refErase l p t)
    | _ => d.refreshDrop p
  | .mapErase b =>
    match r with
    | 0 => d.progPage (.mapProg b 0) b 0 (mkPage d.med.map.data 1 d.med.map.seq d.cartTime 0 fun _ => 0)
    | 1 => d.blockRetire b
    | 2 => d.eraseBlock (.mapErase b) b
    | _ => d.mapUnsaved
  | .logErase b =>
    match r with
    | 0 => d.onMed fun m =>
        { m with logErases := m.logNext.getD m.logErases, logNext := some m.logPend, logPage := 0,
                 logBlk := (d.nextGood m.hdr.logF m.hdr.logL m.logBlk).getD m.logBlk }
    | 1 => d.blockRetire b
    | 2 => d.eraseBlock (.logErase b) b
    | _ => (d.sat F.MED_CNT2_LOG_LOST (min 8 d.med.logRecs.length)).logDrop
  | _ => d

/-- MEDIA_PROGRAM_DONE (R468). -/
def execMediaProgramDone (r : FlashResult) (s : State) : Res := s.nextPeri fun d =>
  if d.opGoing 3 then
    let k := d.flashEnd 2 r
    ((d.opTake.onMed fun m => { m with job := .none }).progEnd d.med.job k).kick
  else d

/-- MEDIA_ERASE_DONE (R468). -/
def execMediaEraseDone (r : FlashResult) (s : State) : Res := s.nextPeri fun d =>
  if d.opGoing 4 then
    let k := d.flashEnd 3 r
    ((d.opTake.onMed fun m => { m with job := .none }).eraseEnd d.med.job k).kick
  else d

/-! ### What the engine does by itself (R469–R472) -/

/-- Whether the cartridge is mounted. -/
def Dev.isMounted (d : Dev) : Bool := d.rd F.MED_STATUS_STATE == 2

/-- PATROL_READ (R469): a page of the patrol is due, unless the patrol is off. -/
def execPatrolRead (s : State) : Res := s.nextPeri fun d =>
  if d.isMounted && d.rd F.MED_CFG_PATROL_H != 0 then (d.onMed fun m => { m with patrolDue := true }).kick else d

/-- REFRESH (R470): the engine takes up the first due block, unless a refresh or a replacement is under way. -/
def execRefresh (s : State) : Res := s.nextPeri fun d =>
  let busy := match d.med.job with
    | .hdrRead _ _ => true
    | .hdrErase _ => true
    | .hdrProg _ => true
    | .refErase _ _ _ => true
    | .refRead _ _ _ _ => true
    | .refProg _ _ _ _ => true
    | _ => false
  match d.med.due with
  | p :: _ => if d.isMounted && !busy && d.med.next == .none && d.med.remap.isNone then (d.refreshStart p).kick else d
  | [] => d

/-- LOG_FLUSH_EXPIRE (R472): LOG_FLUSH milliseconds after its first record a page is due. -/
def execLogFlushExpire (s : State) : Res := s.nextPeri fun d =>
  if d.rd F.MED_CFG_LOG_FLUSH != 0 && !d.med.logRecs.isEmpty then (d.onMed fun m => { m with logDue := true }).kick else d

/-- LOG_HEAD_SEARCH (R471, R472): the newest LOG page lies at `page` of `block`, with its SEQ, STAMP and ERASES; SEQ 0 says that the
LOG is empty. -/
def execLogHeadSearch (block page seq stamp erases : Nat) (s : State) : Res := s.nextPeri fun d =>
  if !d.isMounted || d.is F.MED_STATUS_LOG_READY then d
  else
    let d := d.onMed fun m =>
      if seq = 0 then { m with logBlk := m.hdr.logL, logPage := 256, logSeq := 0, logErases := 0, logNext := none }
      else
        let m := { m with logBlk := block, logPage := page + 1, logSeq := seq, logErases := erases, logNext := none }
        if d.cartTime < stamp then { m with ctBase := stamp, ctUp := d.uptime } else m
    (d.wr F.MED_STATUS_LOG_READY 1).kick

end Sys2Proof.Machine
end

