-- ==== Sys2Proof/Machine/Boot.lean ====
section
/-! DEFINITION. The commands of the boot controller (chapter 05): discovery of the NOR, the configuration image, the DRAM work, the
standalone start and the watchdog. -/

namespace Sys2Proof.Machine

/-! ### Discovery and the copies (R122, R124, R129) -/

/-- Changes the boot controller. -/
def Dev.onBoot (d : Dev) (f : Boot → Boot) : Dev := { d with boot := f d.boot }

/-- SFDP_DISCOVERY (R122, R115): a NOR that cannot be used leaves PRESENT at 0; stage 8 follows when the boot controller is
released. -/
def execSfdpDiscovery (answer : Option Sfdp) (s : State) : Res :=
  if !s.aon.strapped || s.aon.sfdp.isSome || s.aon.is F.LKT_STATUS_NOR_FAIL then .next s
  else match answer.filter fun f => f.erase4k && f.addr4b with
    | some f => .next { s with aon := { s.aon with sfdp := some f }, dev := s.dev.showSfdp (some f) }
    | none =>
      let a := s.aon
      let n := a.locket.queue.length + a.locket.urgent.length
      let a := { a with locket := { a.locket with queue := [], urgent := [] } }
      .next { s with aon := (a.sat F.LKT_STATUS_DROPPED n).wr F.LKT_STATUS_NOR_FAIL 1 }

/-- The copy being read fails with `code` (R129): the other copy follows when it has not been tried, else none is in use. -/
def State.copyFail (s : State) (code : Nat) : State :=
  let b := s.dev.boot
  let d := s.dev.wr (if b.copy = 1 then F.BOOT_ERR_ERR_A else F.BOOT_ERR_ERR_B) code
  if b.tried = 0 then
    let d := d.onBoot fun b => { b with copy := 3 - b.copy, tried := 1, retryAt := 0, retries := 0, header := [], bytes := [] }
    { s with dev := d.setStage 1 }
  else { s with dev := d }.noImage

/-- Whether the boot controller's reads reach the NOR: they wait for the locket's writes and erases (R124). -/
def State.norReads (s : State) : Bool :=
  s.periRuns && s.dev.reading && s.aon.locket.prog == .none && s.aon.locket.erasing.isNone

/-- NOR_READ_TIMEOUT (R124): read command `idx` of the copy has failed or taken too long; it is retried up to three times, then the copy
fails with READ_ERROR. -/
def execNorReadTimeout (s : State) (idx : Nat := 0) : Res :=
  if !s.norReads then .next s
  else
    let b := s.dev.boot
    let n := if b.retryAt = idx then b.retries else 0
    if n < 3 then s.nextDev fun d => d.onBoot fun b => { b with retryAt := idx, retries := n + 1 } else .next (s.copyFail 2)

/-! ### The header (R125) -/

/-- Whether an image header carries SIGNED. -/
def imgSigned (h : List Byte) : Bool := bytesAt h 16 1 % 2 == 1
/-- IMAGE_LEN of a header. -/
def imgLen (h : List Byte) : Nat := bytesAt h 8 4
/-- The bytes of a copy after its TLVs (R125): the CRC, and the signature block of a signed copy. -/
def imgTail (h : List Byte) : Nat := if imgSigned h then 200 else 4
/-- Whether a key hash is fused (R126). -/
def Aon.keyFused (a : Aon) : Bool := (List.range 12).any fun k => a.rd (F.BOOT_KEYHASH_HASH k) != 0
/-- The bytes that stage 2 reads after the TLVs: the signature block only where a key hash is fused (R126). -/
def Aon.readTail (a : Aon) (h : List Byte) : Nat := if a.keyFused then imgTail h else 4

/-- The first header check that fails (R125, R129), or 0; the stepping is index 1 of STEP_MASK (R160). -/
def hdrCode (h : List Byte) : Nat :=
  if bytesAt h 0 4 != 0x49435A47 then 3
  else if bytesAt h 4 2 != 1 || bytesAt h 6 2 != 64 then 4
  else if bytesAt h 60 4 != (crc32 (h.take 60)).toNat then 5
  else if bytesAt h 20 2 != 0x4816 || bits (bytesAt h 22 1) 1 1 != 1 then 6
  else if imgLen h % 4 != 0 || imgLen h < 64 || 0x800000 < imgLen h + imgTail h || 1024 < bytesAt h 24 4 then 7
  else 0

/-- BOOT_HEADER_READ_DONE (R119, R125, R129). -/
def execBootHeaderReadDone (bytes : List Byte) (s : State) : Res :=
  if !s.norReads || s.dev.rd F.BOOT_STATUS_STAGE != 1 || bytes.length != 64 then .next s
  else if hdrCode bytes = 0 then
    s.nextDev fun d => (d.onBoot fun b => { b with header := bytes, retryAt := 0, retries := 0 }).setStage 2
  else .next (s.copyFail (hdrCode bytes))

/-- BOOT_IMAGE_READ_DONE (R119, R129): `bytes` is the copy from its header to its CRC, with the signature block where it is read. -/
def execBootImageReadDone (bytes : List Byte) (s : State) : Res :=
  let h := s.dev.boot.header
  if !s.norReads || s.dev.rd F.BOOT_STATUS_STAGE != 2 || bytes.length != imgLen h + s.aon.readTail h then .next s
  else if bytesAt bytes (imgLen h) 4 = (crc32 (bytes.take (imgLen h))).toNat then
    s.nextDev fun d => (d.onBoot fun b => { b with bytes := bytes, retryAt := 0, retries := 0 }).setStage 3
  else .next (s.copyFail 8)

/-! ### The signature (R126) -/

/-- The big-endian number of a byte string. -/
def beNat (bs : List Byte) : Nat := ofBytes bs.reverse

/-- The bytes of BOOT_KEYHASH: word 0 holds hash bytes 3:0 (R137). -/
def Aon.keyHashBytes (a : Aon) : List Byte := (List.range 12).flatMap fun k => toBytes 4 (a.rd (F.BOOT_KEYHASH_HASH k))

/-- The signature check of a copy with header `h` (R126, R129): an error code, or 0. A block whose bytes 97 to 99 are not zero, or whose
key does not begin with 0x04, does not verify: R126 gives no code for it (DESIGN CHOICE, log entry 104). -/
def Aon.sigCode (a : Aon) (h bytes : List Byte) : Nat :=
  if !a.keyFused then 0
  else if !imgSigned h then 9
  else
    let blk := bytes.drop (imgLen h + 4)
    let key := blk.take 97
    if beNat a.keyHashBytes != sha384 key then 0xA
    else if bytesAt key 0 1 == 4 && bytesAt blk 97 3 == 0 &&
      ecdsaOk (beNat ((key.drop 1).take 48), beNat ((key.drop 49).take 48)) (sha384 (bytes.take (imgLen h + 4)))
        (beNat ((blk.drop 100).take 48)) (beNat ((blk.drop 148).take 48)) then 0
    else 0xB

/-! ### The TLV sections (R127–R133) -/

/-- A TLV: its type, whether it is CRITICAL, and its payload. -/
structure Tlv where
  type : Nat
  critical : Bool
  payload : List Byte

/-- The `n` TLVs that a byte string holds exactly (R127). -/
def tlvs : Nat → List Byte → Option (List Tlv)
  | 0, bs => if bs.isEmpty then some [] else none
  | n + 1, bs =>
    let len := bytesAt bs 4 4
    let full := 8 + (len + 3) / 4 * 4
    if bs.length < full || 1 < bytesAt bs 2 2 || bytesAt bs (8 + len) (full - 8 - len) != 0 then none
    else (tlvs n (bs.drop full)).map fun l => { type := bytesAt bs 0 2, critical := bytesAt bs 2 1 == 1, payload := (bs.drop 8).take len } :: l

/-- Whether a type other than REG_INIT appears twice (R127). -/
def tlvTwice : List Tlv → Bool
  | [] => false
  | t :: ts => (t.type != 2 && ts.any fun u => u.type == t.type) || tlvTwice ts

/-- The 32-bit words of a payload. -/
def words32 (bs : List Byte) : List Nat := (List.range (bs.length / 4)).map fun i => bytesAt bs (4 * i) 4

/-- The pairs of a REG_INIT payload. -/
def regPairs (bs : List Byte) : List (Nat × Nat) := (List.range (bs.length / 8)).map fun i => (bytesAt bs (8 * i) 4, bytesAt bs (8 * i + 4) 4)

/-- The DRAM section (R130, R131); none when a field is out of range. -/
def dramOf (bs : List Byte) : Option DramSec :=
  let c := bytesAt bs 0 4
  let n := (maskList 32 c).length
  let f := bytesAt bs 7 1
  if bs.length = 16 && (n == 8 || n == 16 || n == 32) && decide (3200 ≤ bytesAt bs 4 2) && decide (bytesAt bs 4 2 ≤ 8533) &&
      decide (bytesAt bs 6 1 ≤ 2) && decide (f ≤ 2) && bytesAt bs 8 8 == 0 then
    some { channels := c, rate := bytesAt bs 4 2, density := bytesAt bs 6 1, ecc := bits f 0 1 == 1, skipInit := bits f 1 1 == 1 }
  else none

/-- The visible size of the DRAM of a section in bytes (R170). -/
def DramSec.size (x : DramSec) : Nat :=
  let n := (maskList 32 x.channels).length * 2 ^ (29 + x.density)
  if x.ecc then n / 32 * 31 else n

/-- The PCIE section (R127). -/
def pcieOf (bs : List Byte) : Option (Nat × Nat × Nat) :=
  if bs.length = 8 && decide (bytesAt bs 4 1 ≤ 16) && bytesAt bs 5 3 == 0 then
    some (bytesAt bs 0 2, bytesAt bs 2 2, bytesAt bs 4 1) else none

/-- A queue entry of the STANDING section with its rings in a load area of `max` bytes (R133, R238, R255). -/
def standQOf (max : Nat) (bs : List Byte) : Option StandQ :=
  let e : StandQ := { queue := bytesAt bs 0 1, prio := bytesAt bs 1 1, log2 := bytesAt bs 2 1, ringOffset := bytesAt bs 4 4, tail := bytesAt bs 8 4 }
  if decide (e.queue ≤ 63) && decide (e.prio ≤ 7) && decide (6 ≤ e.log2) && decide (e.log2 ≤ 16) && bytesAt bs 3 1 == 0 &&
      e.ringOffset % 64 == 0 && decide (e.ringOffset + 96 * 2 ^ e.log2 ≤ max) && decide (e.tail < 2 ^ e.log2) && bytesAt bs 12 4 == 0 then
    some e else none

/-- The queue entries of a STANDING section. -/
def standQs (max : Nat) : Nat → List Byte → Option (List StandQ)
  | 0, _ => some []
  | n + 1, bs => do
    let e ← standQOf max (bs.take 16)
    let l ← standQs max n (bs.drop 16)
    if l.any fun x => x.queue == e.queue then none else some (e :: l)

/-- The STANDING section (R133), for a DRAM of `size` bytes. -/
def standOf (size : Nat) (bs : List Byte) : Option Standing :=
  let base := bytesAt bs 4 8
  let max := bytesAt bs 12 4
  let nq := bytesAt bs 16 1
  let f := bytesAt bs 17 1
  if decide (1 ≤ nq) && decide (nq ≤ 64) && bs.length == 24 + 16 * nq && base % 4096 == 0 && decide (4096 ≤ max) &&
      decide (max ≤ 2 ^ 32 - 4096) && decide (base + max ≤ size) && decide (f ≤ 3) && bytesAt bs 19 5 == 0 then
    (standQs max nq (bs.drop 24)).map fun qs =>
      { recipe := bytesAt bs 0 4, base := base, max := max, retry := bits f 0 1 == 1, hostGo := bits f 1 1 == 1,
        key := bytesAt bs 18 1, queues := qs }
  else none

/-- The payload of the section of a type. -/
def tlvOf (l : List Tlv) (t : Nat) : Option (List Byte) := (l.find? fun x => x.type == t).map (·.payload)

/-- Whether an optional section that is present has been read. -/
def sectOk {α : Type} (raw : Option (List Byte)) (x : Option α) : Bool := raw.isNone || x.isSome

/-- The sections of a copy, or the code of the check that fails (R127–R133). -/
def parseImage (l : List Tlv) : Sum Nat Image :=
  if l.any fun t => t.critical && (t.type == 0 || 6 < t.type) then .inl 0xD
  else
    let seq := tlvOf l 1
    let regs := l.filter fun t => t.type == 2
    let pairs := regs.flatMap fun t => regPairs t.payload
    let dram := (tlvOf l 3).bind dramOf
    let pcie := (tlvOf l 4).bind pcieOf
    let stand := (tlvOf l 5).bind (standOf (dram.elim 0 DramSec.size))
    let ok := (seq.all fun p => p.length % 4 == 0 && decide (4 ≤ p.length) && decide (p.length ≤ 1024)) &&
      (regs.all fun t => t.payload.length % 8 == 0) && (pairs.all fun p => regInitOk p.1) &&
      sectOk (tlvOf l 3) dram && sectOk (tlvOf l 4) pcie && sectOk (tlvOf l 5) stand
    if ok then .inr { seqProg := seq.map words32, regInit := pairs, dram := dram, pcie := pcie, standing := stand } else .inl 0xE

/-- The image that an accepted copy holds, or the code of the first check that fails (R129). -/
def Aon.imageOf (a : Aon) (h bytes : List Byte) : Sum Nat Image :=
  if a.sigCode h bytes != 0 then .inl (a.sigCode h bytes)
  else match tlvs (bytesAt h 24 4) ((bytes.take (imgLen h)).drop 64) with
    | none => .inl 0xC
    | some l => if tlvTwice l then .inl 0xC else parseImage l

/-! ### Delivery and configuration (R119, R128) -/

/-- The registers that stage 4 hands over: SEQ_ and LKT_ (R128). -/
def seqLktOff (off : Nat) : Bool := inR 0x100000 0x200000 off

/-- One entry of REG_INIT, as a host write of its value (R128). -/
def State.regEntry (s : State) (p : Nat × Nat) : State :=
  if coreOff p.1 && !s.aon.armed 6 then s.onDev fun d => d.wr F.BOOT_STATUS_CFG_PARTIAL 1 else s.mmioWrite (.host 0) p.1 4 p.2

/-- The entries of REG_INIT that meet `f`, in order. -/
def State.regEntries (s : State) (f : Nat → Bool) : State :=
  (s.dev.boot.image.regInit.filter fun p => f p.1).foldl State.regEntry s

/-- The engine that waits for the boot controller in PREAMBLE gets what the controller has (R63, R117, R119): in stage 4 the entries
for its registers and the program, in stage 8 the report that there is none. STRAP_SEQROM discards the program (R55). -/
def State.handOver (s : State) : State :=
  if s.aon.wait != .boot || s.aon.engine != stPreamble then s
  else if s.dev.rd F.BOOT_STATUS_STAGE = 8 then s.onAon Aon.startRemainder
  else if s.dev.rd F.BOOT_STATUS_STAGE = 4 && s.dev.boot.redelivery then
    let s := s.regEntries seqLktOff
    match s.dev.boot.image.seqProg with
    | some p => if s.strapSeqrom then s.onAon Aon.startRemainder else s.onAon fun a => a.deliver p
    | none => s.onAon Aon.startRemainder
  else s

/-- BOOT_VERIFY_DONE (R126, R129): the copy is accepted, and delivered in stage 4, or rejected. -/
def execBootVerifyDone (s : State) : Res :=
  if !s.periRuns || s.dev.rd F.BOOT_STATUS_STAGE != 3 then .next s
  else
    let b := s.dev.boot
    match s.aon.imageOf b.header b.bytes with
    | .inl code => .next (s.copyFail code)
    | .inr img =>
      let s := s.onDev fun d => ((d.onBoot fun b => { b with image := img, bytes := [] }).wrs
        [(F.BOOT_STATUS_COPY, b.copy), (if b.copy = 1 then F.BOOT_ERR_ERR_A else F.BOOT_ERR_ERR_B, 0),
         (F.BOOT_STATUS_VERIFIED, if s.aon.keyFused then 1 else 0), (F.BOOT_GEN_GENERATION, bytesAt b.header 12 4)]).setStage 4
      .next s.handOver

/-- Stage 7 (R119, R136): the watchdog counts from here on. -/
def Dev.bootDone (d : Dev) : Dev := (d.onBoot fun b => { b with wdtRun := true }).setStage 7

/-- Whether stage 6 has nothing to wait for: no DRAM section, or the DRAM work has ended. -/
def Dev.dramOver (d : Dev) : Bool := d.boot.image.dram.isNone || d.is F.BOOT_STATUS_DRAM_READY || d.is F.BOOT_STATUS_DRAM_FAIL

/-- BOOT_CONFIG (R119, R128): an engine that could not take its program at once gets it; with the engine in DONE stage 5 applies the
PCIE section and the remaining entries, and stage 6 begins. -/
def execBootConfig (s : State) : Res :=
  let s := if s.periRuns then s.handOver else s
  if !s.periRuns || s.dev.rd F.BOOT_STATUS_STAGE != 4 || s.aon.engine != stDone then .next s
  else
    let img := s.dev.boot.image
    let s := s.onDev fun d =>
      let d := d.setStage 5
      match img.pcie with
      | some (v, i, z) => (d.onBoot fun b => { b with subsys := (v, i) }).wr F.PCI_BAR2_CTRL_SIZE z
      | none => (d.onBoot fun b => { b with subsys := (0, 0) }).wr F.PCI_BAR2_CTRL_SIZE 8
    let s := s.regEntries fun o => !seqLktOff o && (!aonOff o || s.dev.boot.redelivery)
    s.nextDev fun d => let d := d.setStage 6; if d.dramOver then d.bootDone else d

/-! ### The DRAM work (R130–R132) -/

/-- A DEVICE-class error of the boot controller (R37, R103, R142, R229): record, event and AER; its block code and block data are
free values (log entries 12, 26). -/
def State.bootError (s : State) : State :=
  let (x, d) := s.dev.fresh
  let (y, d) := d.fresh
  let code := (Config.blockCode 44).toNat
  let d := d.post { cls := 4, src := 44, code := 0x300 + code, data := x }
  { s with aon := s.aon.record 8 0 0xFF (code + x * 2 ^ 32 + y * 2 ^ 96), dev := d.aerInternal }

/-- Whether every channel of group 1 is armed (R131). -/
def Aon.group1On (a : Aon) : Bool :=
  (List.range 24).all fun n => a.rd (F.SEQ_RAIL_CFG_GROUP n) != 1 || a.armed n

/-- DRAM_WORK_START (R131). -/
def execDramWorkStart (s : State) : Res :=
  match s.dev.boot.image.dram with
  | none => .next s
  | some x =>
    if !s.periRuns || s.dev.boot.dramArmed || !s.aon.group1On then .next s
    else s.nextDev fun d => (d.onBoot fun b => { b with dramArmed := true, training := true }).wrs
      [(F.BOOT_STATUS_DRAM_BUSY, 1), (F.MEM_CHAN_MASK, x.channels), (F.MEM_CFG_RATE, x.rate), (F.MEM_CFG_DENSITY, x.density),
       (F.MEM_CFG_ECC, if x.ecc then 1 else 0)]

/-- Reports the training of the channels (R131, R180). -/
def Dev.showTrain (d : Dev) : List (Nat × Nat × Bool) → Dev
  | [] => d
  | (k, n, ok) :: rs => (d.wrs [(F.MEM_TRAIN_STATUS k, if ok then 1 else 2), (F.MEM_TRAIN_ATTEMPTS k, n)]).showTrain rs

/-- Whether training results name each populated channel once, with up to three attempts, all used by one that fails. -/
def DramSec.trained (x : DramSec) (rs : List (Nat × Nat × Bool)) : Bool :=
  rs.map (·.1) == maskList 32 x.channels && rs.all fun r => decide (1 ≤ r.2.1) && decide (r.2.1 ≤ 3) && (r.2.2 || r.2.1 == 3)

/-- Stage 6 ends with the DRAM work. -/
def Dev.dramEnd (d : Dev) : Dev :=
  let d := d.wr F.BOOT_STATUS_DRAM_BUSY 0
  if d.rd F.BOOT_STATUS_STAGE = 6 then d.bootDone else d

/-- DRAM_TRAINING_DONE (R131, R132): `results` gives each populated channel, in rising order, its attempts and its outcome. -/
def execDramTrainingDone (results : List (Nat × Nat × Bool)) (s : State) : Res :=
  match s.dev.boot.image.dram with
  | none => .next s
  | some x =>
    if !s.periRuns || !s.dev.boot.training || !x.trained results then .next s
    else
      let s := s.onDev fun d => (d.onBoot fun b => { b with training := false }).showTrain results
      if results.all (·.2.2) then s.nextDev fun d => d.onBoot fun b => { b with initing := true }
      else (s.onDev fun d => d.wr F.BOOT_STATUS_DRAM_FAIL 1).bootError.nextDev fun d => (d.standFail 7).dramEnd

/-- DRAM_INIT_DONE (R131): DRAM is zero, or holds free values when its initialisation was skipped; it can be used. -/
def execDramInitDone (s : State) : Res :=
  match s.dev.boot.image.dram with
  | none => .next s
  | some x =>
    if !s.periRuns || !s.dev.boot.initing then .next s
    else s.nextDev fun d =>
      let cells := d.mem.cells.filter fun c => decide (2 ^ 36 ≤ c.1)
      let d := { d with mem := { cells := cells, undef := if x.skipInit then some d.free else none },
                        free := d.free + 1, ecc := d.ecc.filter fun e => decide (2 ^ 36 ≤ e.1) }
      ((d.onBoot fun b => { b with initing := false }).wrs [(F.MEM_SIZE_BYTES, x.size), (F.BOOT_STATUS_DRAM_READY, 1)]).dramEnd

/-! ### The standalone start (R134, R135) -/

/-- STANDALONE_START (R134): step 1. -/
def execStandaloneStart (s : State) : Res := s.nextPeri fun d =>
  if s.strapBoot != 2 && d.boot.image.standing.isSome && s.crdOn && d.rd F.BOOT_STANDING_STATE == 0 then
    if d.is F.BOOT_STATUS_DRAM_FAIL then (d.wr F.BOOT_STANDING_CAUSE 7).setStanding 6 else d.standBegin
  else d

/-- STANDALONE_LOAD (R134): step 2 begins once the cartridge is mounted and DRAM is ready; without a
DRAM the start fails (R132). -/
def execStandaloneLoad (s : State) : Res := s.nextPeri fun d =>
  match d.boot.image.standing with
  | none => d
  | some st =>
    if d.is F.BOOT_STATUS_DRAM_FAIL && d.rd F.BOOT_STANDING_STATE == 1 then d.standFail 7
    else if d.rd F.BOOT_STANDING_STATE != 1 || d.rd F.MED_STATUS_STATE != 2 || !d.is F.BOOT_STATUS_DRAM_READY then d
    else if !d.keyOk st.key then d.standFail 8
    else
      let d := (d.onBoot fun b => { b with standStep := 2 }).setStanding 2
      (d.onMed fun m => { m with clients := m.clients ++ [.standing 0] }).kick

/-- STANDING_GO (R134). -/
def execStandingGo (s : State) (req : Requester := .host 0) : Res := s.devReg req 0x200014 Dev.standGo

/-! ### The watchdog (R136) -/

/-- WDT_KICK (R136): the count starts again; the time since is not part of the state (log entry 7). -/
def execWdtKick (_val : Nat) (s : State) (req : Requester := .host 0) : Res := s.devReg req 0x20001C id

/-- WATCHDOG_EXPIRE (R116, R117, R136): a DEVICE_ERROR record and the watchdog reset. -/
def execWatchdogExpire (s : State) : Res :=
  if !s.periRuns || !s.dev.boot.wdtRun || s.dev.rd F.BOOT_WDT_PERIOD = 0 then .next s
  else
    let s := (s.bootError.onAon fun a => a.sat F.BOOT_CAUSE_WDT_COUNT).fullReset 3
    .next (s.startBoot (s.aon.wait == .boot))

end Sys2Proof.Machine
end

