-- ==== Sys2Proof/Machine/Resets.lean ====
section
/-! DEFINITION. The reset commands, the strap sample and the test access port (chapters 02, 05, 06, 23). -/

namespace Sys2Proof.Machine

/-- The always-on domain after its power-on reset: every register and engine reset; the flash of the locket, the levels of the
input balls and the record of what was sent stay (R116). -/
def Aon.powerOn (a : Aon) (ok : Bool) : Aon :=
  let pgs := List.map (fun e : Nat × Rail => (e.1, ({ pg := e.2.pg } : Rail))) a.rails
  { ref25 := a.ref25, resetN := a.resetN, perstN := a.perstN, testEn := a.testEn, supplyOk := ok, rails := pgs, sent := a.sent,
    locket := { slots := a.locket.slots }, faultN := { extLow := a.faultN.extLow } : Aon }.showFaultN

/-- Power-on reset: everything is reset and the straps are not sampled yet (R56, R116). -/
def State.powerOn (s : State) (ok : Bool) : State :=
  { s with strap := 0, aon := s.aon.powerOn ok, dev := { s.dev.reset with strap := 0, uptime := 0 } }

/-- POWER_ON_RESET (R116, R516), noted in BOOT_CAUSE (R137). -/
def execPowerOnReset (s : State) : Res := .next ((s.powerOn true).onAon fun a => a.cause 0)

/-- AON_SUPPLY_DROP (R516): the power-on reset asserts. -/
def execAonSupplyDrop (s : State) : Res := .next (s.powerOn false)

/-- STRAP_SAMPLE (R56): once after each power-on reset; the other domains see the sampled byte. -/
def execStrapSample (balls : BitVec 8) (s : State) : Res :=
  if s.aon.strapped || !s.aon.supplyOk then .next s
  else .next { s with strap := balls, aon := { s.aon with strapped := true }, dev := { s.dev with strap := balls } }

/-- TEST_EN_HIGH (R52): every SEQ_EN low, the boot ROM and the outputs held. -/
def execTestEnHigh (s : State) : Res := s.nextAon fun a => { a.railsOff a.enOrder with testEn := true }

/-- RESET_N_ASSERT (R116, R117): everything outside the always-on domain is reset; ignored in the brown-out state (R48). -/
def execResetNAssert (s : State) : Res :=
  if s.aon.ballsReleased || !s.aon.resetN then .next s
  else .next ((s.onAon fun a => { a with resetN := false }).fullReset 2)

/-- The always-on domain when RESET_N ends LATCHOFF (R81, R85, R113): RST_COUNT is cleared, THERMTRIP_N and FAULT_N are
released, and the preamble restarts once FAULT_N has been high for 10 ms. A brown-out in progress keeps FAULT_N low and restarts the
preamble at its own end (R82, R111). -/
def Aon.latchEnd (a : Aon) : Aon :=
  let fn := { a.faultN with guardWait := true, releaseCheck := true }
  if a.brown.tripped then (({ a with therm := {}, reactQ := [] }).wr F.SEQ_STATUS_RST_COUNT 0).setEngine stHold
  else
    let a := { a with therm := {}, reactQ := [], reacting := .latchGuard, faultN := fn }
    (((a.wr F.SEQ_STATUS_RST_COUNT 0).wr F.SEQ_STATUS_FAULTN_DRIVE 0).setEngine stResetting).showFaultN

/-- Whether the preamble has released the boot controller. -/
def Aon.bootReleased (a : Aon) : Bool := !(a.engine == stPreamble && a.wait != .boot)

/-- RESET_N_RELEASE (R117): it ends LATCHOFF, or restarts the boot at the header stage; a program that was never delivered is
delivered then. -/
def execResetNRelease (s : State) : Res :=
  if s.aon.ballsReleased || s.aon.resetN then .next s
  else
    let s := s.onAon fun a => { a with resetN := true }
    if s.aon.engine = stLatchoff then s.nextAon Aon.latchEnd
    else if s.aon.bootReleased && s.aon.armed 0 then .next (s.startBoot (s.aon.wait == .boot))
    else .next s

/-- The size code of BAR2 after a reset of the configuration space (R145). -/
def Dev.bar2Code (d : Dev) : Nat := match d.boot.image.pcie with | some (_, _, z) => z | none => 8

/-- What FLR discards in the translation unit and the movers: ATS state, held host translations, page requests, invalidations
(R152, R193, R196). -/
def Dev.dropAts (d : Dev) : Dev :=
  let d := d.dropHost
  let fix : Issued → Issued := fun i => { i with inval := false, again := [] }
  { d with invals := [], prgs := [],
           queues := List.map (fun e : Nat × Queue => (e.1, { e.2 with issued := e.2.issued.map fix })) d.queues }

/-- Revokes every host context (R38). -/
def Dev.revokeHost (d : Dev) : Dev :=
  d.run 600 ((d.ctxs.filter fun e => e.1 != 0).map fun e => { c := e.1, cause := 0x15, src := 35 })

/-- The actions of FLR (R152). Requests that wait for credits or completions are discarded; the sticky AER bits stay, and so do the
credits, which are the link's. Whether a low half held, or a high half captured, of a 64-bit register (R9) survives is not said: the model
keeps it (DESIGN CHOICE, log entry 112). -/
def Dev.flr (d : Dev) : Dev :=
  let d := (List.range 8).foldl (fun d k =>
    if d.rd (F.PCI_AP_CTL_CTX k) != 0 then d.wr (F.PCI_AP_CTL_EN k) 0 else d) d
  let d := { d with pci := { credits := d.pci.credits, emptySince := d.pci.emptySince, aerUncor := d.pci.aerUncor,
                             aerUncorMask := d.pci.aerUncorMask, aerCor := d.pci.aerCor, aerCorMask := d.pci.aerCorMask,
                             headerLog := d.pci.headerLog } }
  let fn : Nat → Bool := fun o =>
    (decide (0x300100 ≤ o) && decide (o < 0x300300)) || (decide (0x300020 ≤ o) && decide (o < 0x300030))
  let d := { d with regs := dropRegs fn d.regs }
  let d := d.wrs [(F.PCI_BAR2_CTRL_SIZE, d.bar2Code), (F.MMU_STATUS_ATS_EN, 0), (F.MMU_STATUS_PRI_EN, 0),
    (F.MMU_STATUS_PRI_STOPPED, 0), (F.PCI_STATUS_D3, 0), (F.PCI_STATUS_HCP_STALL, 0)]
  d.dropAts.revokeHost

/-- FLR (R152). -/
def execFlr (s : State) : Res := s.inPeri (.next { s with aon := s.aon.cause 5, dev := s.dev.flr })

/-- The apertures' registers, from 0x440 on (R161). -/
def apOff (k o : Nat) : Bool := decide (0x300440 + 0x20 * k ≤ o) && decide (o < 0x300460 + 0x20 * k)

/-- The actions of PERST# beside those of FLR (R153): every PCI_ register and the apertures of host contexts are reset. -/
def Dev.perst (d : Dev) : Dev :=
  let keep : Nat → Bool := fun o => (List.range 8).any fun k => apOff k o && d.rd (F.PCI_AP_CTL_CTX k) == 0
  let d' := d.flr
  let out : Nat → Bool := fun o =>
    decide (0x300000 ≤ o) && decide (o < 0x400000) && !keep o && o != F.PCI_BAR2_CTRL_SIZE.off
  { d' with regs := dropRegs out d'.regs, pci := { d'.pci with credits := 0, emptySince := none } }

/-- PERST_ASSERT (R118, R153); ignored in the brown-out state (R48). -/
def execPerstAssert (s : State) : Res :=
  if s.aon.ballsReleased then .next s
  else .next { s with aon := { s.aon with perstN := false }.cause 4, dev := s.dev.perst }

/-- PERST_DEASSERT (R121): the link may train; it comes up with PCIE_LINK_UP. -/
def execPerstDeassert (s : State) : Res :=
  if s.aon.ballsReleased then .next s else s.nextAon fun a => { a with perstN := true }

/-- D3HOT_ENTRY (R154). -/
def execD3hotEntry (s : State) : Res := s.nextPeri fun d => d.wr F.PCI_STATUS_D3 1

/-- D3HOT_TO_D0 (R154): it acts as an FLR. -/
def execD3hotToD0 (s : State) : Res :=
  s.inPeri (if s.dev.is F.PCI_STATUS_D3 then .next { s with aon := s.aon.cause 5, dev := s.dev.flr } else .next s)

/-- The next state after a change that the test port makes; it works while its supply is valid (R53). -/
def State.nextTap (s : State) (f : Aon → Aon) : Res := if s.aon.supplyOk then s.nextAon f else .next s

/-- JTAG_BYPASS (R57). -/
def execJtagBypass (s : State) : Res := s.nextTap fun a => { a with tap := .bypass, tapOut := 0 }

/-- JTAG_IDCODE (R57). -/
def execJtagIdcode (s : State) : Res := s.nextTap fun a => { a with tap := .idcode, tapOut := 0x1481689B }.send (.tdo 0x1481689B)

/-- JTAG_SAMPLE_PRELOAD (R57). -/
def execJtagSamplePreload (s : State) (levels cells : List (Ball × Bool) := []) : Res := s.nextTap fun _ => (s.samplePreload levels cells).aon

/-- JTAG_EXTEST (R58): it is loaded; RESET_N decides whether it is in force. -/
def execJtagExtest (s : State) : Res := s.nextTap fun a => { a with tap := .extest, tapOut := 0 }

/-- REF25_LOSS (R53). -/
def execRef25Loss (s : State) : Res := s.nextAon fun a => { a with ref25 := false }

/-- REF25_RETURN (R53). -/
def execRef25Return (s : State) : Res := s.nextAon fun a => { a with ref25 := true }

end Sys2Proof.Machine
end

