-- ==== Sys2Proof/Machine/Dispatch.lean ====
section
/-! DEFINITION. The meaning of every command, one arm each. -/

namespace Sys2Proof.Machine

def exec (i : Instr) (s : State) : Host.Outcome State Fault Refusal :=
  match i with
  | .regWrite req off width val => Sys2Proof.Machine.execRegWrite req off width val s
  | .misalignedAccess off rid => Sys2Proof.Machine.execMisalignedAccess off rid s
  | .reg64LowRead off req => Sys2Proof.Machine.execReg64LowRead off s req
  | .reg64LowWrite req off val => Sys2Proof.Machine.execReg64LowWrite req off val s
  | .reg64HighWrite req off val => Sys2Proof.Machine.execReg64HighWrite req off val s
  | .domainOffAccess off rid => Sys2Proof.Machine.execDomainOffAccess off rid s
  | .powerOnReset => Sys2Proof.Machine.execPowerOnReset s
  | .aonSupplyDrop => Sys2Proof.Machine.execAonSupplyDrop s
  | .strapSample balls => Sys2Proof.Machine.execStrapSample balls s
  | .testEnHigh => Sys2Proof.Machine.execTestEnHigh s
  | .resetNAssert => Sys2Proof.Machine.execResetNAssert s
  | .resetNRelease => Sys2Proof.Machine.execResetNRelease s
  | .perstAssert => Sys2Proof.Machine.execPerstAssert s
  | .perstDeassert => Sys2Proof.Machine.execPerstDeassert s
  | .flr => Sys2Proof.Machine.execFlr s
  | .d3hotEntry => Sys2Proof.Machine.execD3hotEntry s
  | .d3hotToD0 => Sys2Proof.Machine.execD3hotToD0 s
  | .configRequest req => Sys2Proof.Machine.execConfigRequest req s
  | .jtagBypass => Sys2Proof.Machine.execJtagBypass s
  | .jtagIdcode => Sys2Proof.Machine.execJtagIdcode s
  | .jtagSamplePreload levels cells => Sys2Proof.Machine.execJtagSamplePreload s levels cells
  | .jtagExtest => Sys2Proof.Machine.execJtagExtest s
  | .romPreamble => Sys2Proof.Machine.execRomPreamble s
  | .seqEnd => Sys2Proof.Machine.execSeqEnd s
  | .seqEnable => Sys2Proof.Machine.execSeqEnable s
  | .seqDisable => Sys2Proof.Machine.execSeqDisable s
  | .seqWait => Sys2Proof.Machine.execSeqWait s
  | .seqWaitExpire => Sys2Proof.Machine.execSeqWaitExpire s
  | .seqWaitpg => Sys2Proof.Machine.execSeqWaitpg s
  | .waitpgSatisfied => Sys2Proof.Machine.execWaitpgSatisfied s
  | .waitpgTimeout => Sys2Proof.Machine.execWaitpgTimeout s
  | .seqCheck => Sys2Proof.Machine.execSeqCheck s
  | .seqJump => Sys2Proof.Machine.execSeqJump s
  | .seqJumpif => Sys2Proof.Machine.execSeqJumpif s
  | .seqMargin => Sys2Proof.Machine.execSeqMargin s
  | .marginDone ok => Sys2Proof.Machine.execMarginDone ok s
  | .seqLog => Sys2Proof.Machine.execSeqLog s
  | .progTimeout => Sys2Proof.Machine.execProgTimeout s
  | .armTimerExpire ch => Sys2Proof.Machine.execArmTimerExpire ch s
  | .seqPgRise ch => Sys2Proof.Machine.execSeqPgRise ch s
  | .seqPgFall ch => Sys2Proof.Machine.execSeqPgFall ch s
  | .pgLost ch => Sys2Proof.Machine.execPgLost ch s
  | .adcConversion input code => Sys2Proof.Machine.execAdcConversion input code s
  | .retryRail ch => Sys2Proof.Machine.execRetryRail ch s
  | .retryBackoffExpire ch => Sys2Proof.Machine.execRetryBackoffExpire ch s
  | .retryPgTimeout ch => Sys2Proof.Machine.execRetryPgTimeout ch s
  | .retryHealthyExpire ch => Sys2Proof.Machine.execRetryHealthyExpire ch s
  | .groupShutdown g => Sys2Proof.Machine.execGroupShutdown g s
  | .groupOffdlyExpire => Sys2Proof.Machine.execGroupOffdlyExpire s
  | .systemReset => Sys2Proof.Machine.execSystemReset s
  | .sysresetOffStep => Sys2Proof.Machine.execSysresetOffStep s
  | .sysresetWaitExpire => Sys2Proof.Machine.execSysresetWaitExpire s
  | .rstCountClear => Sys2Proof.Machine.execRstCountClear s
  | .swreset req => Sys2Proof.Machine.execSwreset s req
  | .hostMargin ch step req => Sys2Proof.Machine.execHostMargin ch step s req
  | .faultnRelease => Sys2Proof.Machine.execFaultnRelease s
  | .faultnReleaseCheck low => Sys2Proof.Machine.execFaultnReleaseCheck low s
  | .faultnExt => Sys2Proof.Machine.execFaultnExt s
  | .faultnGuardExpire => Sys2Proof.Machine.execFaultnGuardExpire s
  | .faultnStuck => Sys2Proof.Machine.execFaultnStuck s
  | .pmbPoll ch status vout iout pages => Sys2Proof.Machine.execPmbPoll ch status vout iout pages s
  | .pmbAlert bus ch status => Sys2Proof.Machine.execPmbAlert bus ch status s
  | .pmbTransactionDone bus r => Sys2Proof.Machine.execPmbTransactionDone bus r s
  | .pmbStuck bus => Sys2Proof.Machine.execPmbStuck bus s
  | .pmbRecoveryTimer bus free => Sys2Proof.Machine.execPmbRecoveryTimer bus free s
  | .locketNorOpDone ok => Sys2Proof.Machine.execLocketNorOpDone ok s
  | .locketEraseDone ok => Sys2Proof.Machine.execLocketEraseDone ok s
  | .locketOpTimeout => Sys2Proof.Machine.execLocketOpTimeout s
  | .locketStartupScan => Sys2Proof.Machine.execLocketStartupScan s
  | .locketRead idx req => Sys2Proof.Machine.execLocketRead idx s req
  | .locketReadDone => Sys2Proof.Machine.execLocketReadDone s
  | .gaugeTick => Sys2Proof.Machine.execGaugeTick s
  | .vinSenseTrip code => Sys2Proof.Machine.execVinSenseTrip code s
  | .brownoutRailOff => Sys2Proof.Machine.execBrownoutRailOff s
  | .brownoutRestart => Sys2Proof.Machine.execBrownoutRestart s
  | .thermalTrip sensor temp => Sys2Proof.Machine.execThermalTrip sensor temp s
  | .thermtripRailOff => Sys2Proof.Machine.execThermtripRailOff s
  | .sfdpDiscovery answer => Sys2Proof.Machine.execSfdpDiscovery answer s
  | .norReadTimeout idx => Sys2Proof.Machine.execNorReadTimeout s idx
  | .bootHeaderReadDone bytes => Sys2Proof.Machine.execBootHeaderReadDone bytes s
  | .bootImageReadDone bytes => Sys2Proof.Machine.execBootImageReadDone bytes s
  | .bootVerifyDone => Sys2Proof.Machine.execBootVerifyDone s
  | .bootConfig => Sys2Proof.Machine.execBootConfig s
  | .dramWorkStart => Sys2Proof.Machine.execDramWorkStart s
  | .dramTrainingDone results => Sys2Proof.Machine.execDramTrainingDone results s
  | .dramInitDone => Sys2Proof.Machine.execDramInitDone s
  | .standaloneStart => Sys2Proof.Machine.execStandaloneStart s
  | .standaloneLoad => Sys2Proof.Machine.execStandaloneLoad s
  | .standingGo req => Sys2Proof.Machine.execStandingGo s req
  | .wdtKick val req => Sys2Proof.Machine.execWdtKick val s req
  | .watchdogExpire => Sys2Proof.Machine.execWatchdogExpire s
  | .bar2Resize k => Sys2Proof.Machine.execBar2Resize k s
  | .bar2Read off len rid => Sys2Proof.Machine.execBar2Read off len rid s
  | .bar2Write off rid bytes => Sys2Proof.Machine.execBar2Write off rid bytes s
  | .p2pWrite rid off bytes => Sys2Proof.Machine.execP2pWrite rid off bytes s
  | .apertureEnable k req => Sys2Proof.Machine.execApertureEnable k s req
  | .msixTableWrite off width val req => Sys2Proof.Machine.execMsixTableWrite off width val s req
  | .moverCompletion q idx addr st bytes => Sys2Proof.Machine.execMoverCompletion q idx addr st bytes s
  | .sharedSramClear => Sys2Proof.Machine.execSharedSramClear s
  | .scrubRead addr r upsets => Sys2Proof.Machine.execScrubRead addr r s upsets
  | .keySlotLoad slot req => Sys2Proof.Machine.execKeySlotLoad slot s req
  | .zeroize slot req => Sys2Proof.Machine.execZeroize slot s req
  | .keySlotQuery slot req => Sys2Proof.Machine.execKeySlotQuery slot s req
  | .create req => Sys2Proof.Machine.execCreate s req
  | .destroy req => Sys2Proof.Machine.execDestroy s req
  | .bind req => Sys2Proof.Machine.execBind s req
  | .unbind req => Sys2Proof.Machine.execUnbind s req
  | .setRoot req => Sys2Proof.Machine.execSetRoot s req
  | .pin req => Sys2Proof.Machine.execPin s req
  | .unpin req => Sys2Proof.Machine.execUnpin s req
  | .unpinComplete ctx idx => Sys2Proof.Machine.execUnpinComplete ctx idx s
  | .ctxQuery req => Sys2Proof.Machine.execCtxQuery s req
  | .pageWalkDone q idx va write => Sys2Proof.Machine.execPageWalkDone q idx va write s
  | .killRevocationDone ctx => Sys2Proof.Machine.execKillRevocationDone ctx s
  | .atsCompletion q who va pa size r w u => Sys2Proof.Machine.execAtsCompletion q who va pa size r w u s
  | .priResponse prg code => Sys2Proof.Machine.execPriResponse prg code s
  | .priTimeout prg => Sys2Proof.Machine.execPriTimeout prg s
  | .atsInvalidate itag pasid base size => Sys2Proof.Machine.execAtsInvalidate itag pasid base size s
  | .invalidateReadsDrained => Sys2Proof.Machine.execInvalidateReadsDrained s
  | .graceExpire q => Sys2Proof.Machine.execGraceExpire q s
  | .preempt req => Sys2Proof.Machine.execPreempt s req
  | .preemptStopDone q => Sys2Proof.Machine.execPreemptStopDone q s
  | .preemptSaveDone q => Sys2Proof.Machine.execPreemptSaveDone q s
  | .preemptClearDone q latencyNs => Sys2Proof.Machine.execPreemptClearDone q latencyNs s
  | .restoreStart q => Sys2Proof.Machine.execRestoreStart q s
  | .restoreDone q timeNs => Sys2Proof.Machine.execRestoreDone q timeNs s
  | .resume req => Sys2Proof.Machine.execResume s req
  | .kill req => Sys2Proof.Machine.execKill s req
  | .setSpill req => Sys2Proof.Machine.execSetSpill s req
  | .clearSpill req => Sys2Proof.Machine.execClearSpill s req
  | .preemptQuery req => Sys2Proof.Machine.execPreemptQuery s req
  | .evtRingEnable val req => Sys2Proof.Machine.execEvtRingEnable val s req
  | .evtHeadWrite head req => Sys2Proof.Machine.execEvtHeadWrite head s req
  | .savePoolWrite size req => Sys2Proof.Machine.execSavePoolWrite size s req
  | .doorbell req q tail => Sys2Proof.Machine.execDoorbell req q tail s
  | .queueEnable req q cfg => Sys2Proof.Machine.execQueueEnable req q cfg s
  | .queueDisable req q => Sys2Proof.Machine.execQueueDisable req q s
  | .queueResume req q => Sys2Proof.Machine.execQueueResume req q s
  | .semValWrite req sem val => Sys2Proof.Machine.execSemValWrite req sem val s
  | .semCfgWrite req sem val => Sys2Proof.Machine.execSemCfgWrite req sem val s
  | .descriptorFetch q entries ok => Sys2Proof.Machine.execDescriptorFetch q entries ok s
  | .reservedOpcode q => Sys2Proof.Machine.execReservedOpcode q s
  | .nop q => Sys2Proof.Machine.execNop q s
  | .dma q => Sys2Proof.Machine.execDma q s
  | .dmaComplete q idx => Sys2Proof.Machine.execDmaComplete q idx s
  | .dispatchAcquire q => Sys2Proof.Machine.execDispatchAcquire q s
  | .dispatchRun q => Sys2Proof.Machine.execDispatchRun q s
  | .dispatchRelease q => Sys2Proof.Machine.execDispatchRelease q s
  | .leaseGrant q => Sys2Proof.Machine.execLeaseGrant q s
  | .tileClearDone n => Sys2Proof.Machine.execTileClearDone n s
  | .fence q => Sys2Proof.Machine.execFence q s
  | .fenceFlushDone q => Sys2Proof.Machine.execFenceFlushDone q s
  | .signalAdd q => Sys2Proof.Machine.execSignalAdd q s
  | .signalSet q => Sys2Proof.Machine.execSignalSet q s
  | .wait q => Sys2Proof.Machine.execWait q s
  | .waitTimeout q => Sys2Proof.Machine.execWaitTimeout q s
  | .waitPosition q t => Sys2Proof.Machine.execWaitPosition q t s
  | .atPosition q t => Sys2Proof.Machine.execAtPosition q t s
  | .verdictWrite q t => Sys2Proof.Machine.execVerdictWrite q t s
  | .gateArm q t => Sys2Proof.Machine.execGateArm q t s
  | .prefetch q => Sys2Proof.Machine.execPrefetch q s
  | .advise q => Sys2Proof.Machine.execAdvise q s
  | .tableUpdate q => Sys2Proof.Machine.execTableUpdate q s
  | .powerHint q => Sys2Proof.Machine.execPowerHint q s
  | .cardReadRecipe q => Sys2Proof.Machine.execCardReadRecipe q s
  | .cardReadPartition q => Sys2Proof.Machine.execCardReadPartition q s
  | .claspBarrier q => Sys2Proof.Machine.execClaspBarrier q s
  | .mirrorCommit q t => Sys2Proof.Machine.execMirrorCommit q t s
  | .shutterClose n => Sys2Proof.Machine.execShutterClose n s
  | .shutterWakeStart n => Sys2Proof.Machine.execShutterWakeStart n s
  | .shutterWakeDone n => Sys2Proof.Machine.execShutterWakeDone n s
  | .tileEnd n => Sys2Proof.Machine.execTileEnd n s
  | .tileNop n => Sys2Proof.Machine.execTileNop n s
  | .br n => Sys2Proof.Machine.execBr n s
  | .bcc n => Sys2Proof.Machine.execBcc n s
  | .jr n => Sys2Proof.Machine.execJr n s
  | .loop n => Sys2Proof.Machine.execLoop n s
  | .add n => Sys2Proof.Machine.execAdd n s
  | .sub n => Sys2Proof.Machine.execSub n s
  | .and n => Sys2Proof.Machine.execAnd n s
  | .or n => Sys2Proof.Machine.execOr n s
  | .xor n => Sys2Proof.Machine.execXor n s
  | .shl n => Sys2Proof.Machine.execShl n s
  | .shr n => Sys2Proof.Machine.execShr n s
  | .sra n => Sys2Proof.Machine.execSra n s
  | .mul n => Sys2Proof.Machine.execMul n s
  | .min n => Sys2Proof.Machine.execMin n s
  | .max n => Sys2Proof.Machine.execMax n s
  | .addi n => Sys2Proof.Machine.execAddi n s
  | .li n => Sys2Proof.Machine.execLi n s
  | .lih n => Sys2Proof.Machine.execLih n s
  | .ld n => Sys2Proof.Machine.execLd n s
  | .st n => Sys2Proof.Machine.execSt n s
  | .storeComplete n => Sys2Proof.Machine.execStoreComplete n s
  | .get n => Sys2Proof.Machine.execGet n s
  | .put n => Sys2Proof.Machine.execPut n s
  | .seta n => Sys2Proof.Machine.execSeta n s
  | .setb n => Sys2Proof.Machine.execSetb n s
  | .rsv n => Sys2Proof.Machine.execRsv n s
  | .rsvGrant n => Sys2Proof.Machine.execRsvGrant n s
  | .mma n => Sys2Proof.Machine.execMma n s
  | .mmaRendezvous n => Sys2Proof.Machine.execMmaRendezvous n s
  | .passDrainComplete n => Sys2Proof.Machine.execPassDrainComplete n s
  | .convert n => Sys2Proof.Machine.execConvert n s
  | .convertStart n => Sys2Proof.Machine.execConvertStart n s
  | .convertComplete n => Sys2Proof.Machine.execConvertComplete n s
  | .vop n => Sys2Proof.Machine.execVop n s
  | .twait n => Sys2Proof.Machine.execTwait n s
  | .twaitSatisfied n => Sys2Proof.Machine.execTwaitSatisfied n s
  | .gbar n => Sys2Proof.Machine.execGbar n s
  | .gbarRelease n => Sys2Proof.Machine.execGbarRelease n s
  | .rendezvousDeadlock n => Sys2Proof.Machine.execRendezvousDeadlock n s
  | .vnop n => Sys2Proof.Machine.execVnop n s
  | .vld n => Sys2Proof.Machine.execVld n s
  | .vst n => Sys2Proof.Machine.execVst n s
  | .vmov n => Sys2Proof.Machine.execVmov n s
  | .vgetr n => Sys2Proof.Machine.execVgetr n s
  | .vflags n => Sys2Proof.Machine.execVflags n s
  | .vadd n => Sys2Proof.Machine.execVadd n s
  | .vsub n => Sys2Proof.Machine.execVsub n s
  | .vmul n => Sys2Proof.Machine.execVmul n s
  | .vfma n => Sys2Proof.Machine.execVfma n s
  | .vmax n => Sys2Proof.Machine.execVmax n s
  | .vmin n => Sys2Proof.Machine.execVmin n s
  | .vmaxnum n => Sys2Proof.Machine.execVmaxnum n s
  | .vminnum n => Sys2Proof.Machine.execVminnum n s
  | .vsgnAbs n => Sys2Proof.Machine.execVsgnAbs n s
  | .vsgnNeg n => Sys2Proof.Machine.execVsgnNeg n s
  | .vsgnCopysign n => Sys2Proof.Machine.execVsgnCopysign n s
  | .vcmp n => Sys2Proof.Machine.execVcmp n s
  | .vsel n => Sys2Proof.Machine.execVsel n s
  | .exp n => Sys2Proof.Machine.execExp n s
  | .exp2 n => Sys2Proof.Machine.execExp2 n s
  | .log n => Sys2Proof.Machine.execLog n s
  | .log2 n => Sys2Proof.Machine.execLog2 n s
  | .rcp n => Sys2Proof.Machine.execRcp n s
  | .rsqrt n => Sys2Proof.Machine.execRsqrt n s
  | .sqrt n => Sys2Proof.Machine.execSqrt n s
  | .div n => Sys2Proof.Machine.execDiv n s
  | .tanh n => Sys2Proof.Machine.execTanh n s
  | .sigmoid n => Sys2Proof.Machine.execSigmoid n s
  | .erf n => Sys2Proof.Machine.execErf n s
  | .gelu n => Sys2Proof.Machine.execGelu n s
  | .redSum n => Sys2Proof.Machine.execRedSum n s
  | .redMax n => Sys2Proof.Machine.execRedMax n s
  | .redMin n => Sys2Proof.Machine.execRedMin n s
  | .redMaxnum n => Sys2Proof.Machine.execRedMaxnum n s
  | .redMinnum n => Sys2Proof.Machine.execRedMinnum n s
  | .vsmx1 n => Sys2Proof.Machine.execVsmx1 n s
  | .vsmxm n => Sys2Proof.Machine.execVsmxm n s
  | .vsmx2 n => Sys2Proof.Machine.execVsmx2 n s
  | .vwel1 n => Sys2Proof.Machine.execVwel1 n s
  | .vwelc n => Sys2Proof.Machine.execVwelc n s
  | .vwelm n => Sys2Proof.Machine.execVwelm n s
  | .powerInterval tags ctxs rest => Sys2Proof.Machine.execPowerInterval tags ctxs rest s
  | .activityModelTick parts => Sys2Proof.Machine.execActivityModelTick parts s
  | .edcTick => Sys2Proof.Machine.execEdcTick s
  | .droopDetect => Sys2Proof.Machine.execDroopDetect s
  | .droopHoldExpire => Sys2Proof.Machine.execDroopHoldExpire s
  | .sensorUpdate sensor temp fail => Sys2Proof.Machine.execSensorUpdate sensor temp fail s
  | .vsettleExpire => Sys2Proof.Machine.execVsettleExpire s
  | .dvfsVoltageDown => Sys2Proof.Machine.execDvfsVoltageDown s
  | .phaseRestore req => Sys2Proof.Machine.execPhaseRestore s req
  | .offer src point => Sys2Proof.Machine.execOffer src point s
  | .lsMemberLost chip => Sys2Proof.Machine.execLsMemberLost chip s
  | .quadEdge t step => Sys2Proof.Machine.execQuadEdge t step s
  | .pulseEdge t => Sys2Proof.Machine.execPulseEdge t s
  | .mainsEdge t => Sys2Proof.Machine.execMainsEdge t s
  | .indexEdge t => Sys2Proof.Machine.execIndexEdge t s
  | .sourceLoss t => Sys2Proof.Machine.execSourceLoss t s
  | .holdoverExpire t => Sys2Proof.Machine.execHoldoverExpire t s
  | .slewComplete t => Sys2Proof.Machine.execSlewComplete t s
  | .holdbackEnd t => Sys2Proof.Machine.execHoldbackEnd t s
  | .tbEnWrite t req val => Sys2Proof.Machine.execTbEnWrite t req val s
  | .hostStep t req step => Sys2Proof.Machine.execHostStep t req step s
  | .alarmFire t slot => Sys2Proof.Machine.execAlarmFire t slot s
  | .verdictUpdate t => Sys2Proof.Machine.execVerdictUpdate t s
  | .gateEdge t g => Sys2Proof.Machine.execGateEdge t g s
  | .waitPositionReached t q => Sys2Proof.Machine.execWaitPositionReached t q s
  | .tbPulseStart t => Sys2Proof.Machine.execTbPulseStart t s
  | .tbPulseEnd t => Sys2Proof.Machine.execTbPulseEnd t s
  | .verdictClear req => Sys2Proof.Machine.execVerdictClear s req
  | .vpReadCycle a csN oeN => Sys2Proof.Machine.execVpReadCycle a csN oeN s
  | .vpCapture => Sys2Proof.Machine.execVpCapture s
  | .cardDetEdge level => Sys2Proof.Machine.execCardDetEdge level s
  | .cardInserted => Sys2Proof.Machine.execCardInserted s
  | .cardRemoved => Sys2Proof.Machine.execCardRemoved s
  | .cardOvercurrent => Sys2Proof.Machine.execCardOvercurrent s
  | .activate req => Sys2Proof.Machine.execActivate s req
  | .activationTimer => Sys2Proof.Machine.execActivationTimer s
  | .atrTimeout => Sys2Proof.Machine.execAtrTimeout s
  | .atrReceived bytes parityOk => Sys2Proof.Machine.execAtrReceived bytes parityOk s
  | .ppsResponse bytes => Sys2Proof.Machine.execPpsResponse bytes s
  | .ppsTimeout => Sys2Proof.Machine.execPpsTimeout s
  | .t1BlockReceived bytes parityOk => Sys2Proof.Machine.execT1BlockReceived bytes parityOk s
  | .t1Timeout => Sys2Proof.Machine.execT1Timeout s
  | .deactivate req => Sys2Proof.Machine.execDeactivate s req
  | .warmReset req => Sys2Proof.Machine.execWarmReset s req
  | .exchange req => Sys2Proof.Machine.execExchange s req
  | .keyLoad req => Sys2Proof.Machine.execKeyLoad s req
  | .clockStop req => Sys2Proof.Machine.execClockStop s req
  | .clockStopped => Sys2Proof.Machine.execClockStopped s
  | .clockRestart req => Sys2Proof.Machine.execClockRestart s req
  | .enterWide req => Sys2Proof.Machine.execEnterWide s req
  | .wideSwitchTimer => Sys2Proof.Machine.execWideSwitchTimer s
  | .cbpSleep req => Sys2Proof.Machine.execCbpSleep s req
  | .cbpWake req => Sys2Proof.Machine.execCbpWake s req
  | .sleepIdleExpire => Sys2Proof.Machine.execSleepIdleExpire s
  | .raw req => Sys2Proof.Machine.execRaw s req
  | .iFrameReceived frame => Sys2Proof.Machine.execIFrameReceived frame s
  | .rFrameReceived frame => Sys2Proof.Machine.execRFrameReceived frame s
  | .wtxRequest m => Sys2Proof.Machine.execWtxRequest m s
  | .resynchResponse => Sys2Proof.Machine.execResynchResponse s
  | .sleepResponse => Sys2Proof.Machine.execSleepResponse s
  | .wakeResponse => Sys2Proof.Machine.execWakeResponse s
  | .frameWaitTimeout => Sys2Proof.Machine.execFrameWaitTimeout s
  | .mount req => Sys2Proof.Machine.execMount s req
  | .unmount req => Sys2Proof.Machine.execUnmount s req
  | .flush req => Sys2Proof.Machine.execFlush s req
  | .append req => Sys2Proof.Machine.execAppend s req
  | .mediaPageReadDone raw => Sys2Proof.Machine.execMediaPageReadDone raw s
  | .mediaProgramDone r => Sys2Proof.Machine.execMediaProgramDone r s
  | .mediaEraseDone r => Sys2Proof.Machine.execMediaEraseDone r s
  | .patrolRead => Sys2Proof.Machine.execPatrolRead s
  | .refresh => Sys2Proof.Machine.execRefresh s
  | .logFlushExpire => Sys2Proof.Machine.execLogFlushExpire s
  | .logHeadSearch block page seq stamp erases => Sys2Proof.Machine.execLogHeadSearch block page seq stamp erases s
  | .clsPortEnWrite p val req => Sys2Proof.Machine.execClsPortEnWrite p val s req
  | .linkUp p rate width peer => Sys2Proof.Machine.execLinkUp p rate width peer s
  | .linkFailed p reason => Sys2Proof.Machine.execLinkFailed p reason s
  | .flitReceived p flit => Sys2Proof.Machine.execFlitReceived p flit s
  | .replayTimeout p => Sys2Proof.Machine.execReplayTimeout p s
  | .messageForward hop m => Sys2Proof.Machine.execMessageForward hop m s
  | .write m => Sys2Proof.Machine.execWrite m s
  | .read m => Sys2Proof.Machine.execRead m s
  | .wack m => Sys2Proof.Machine.execWack m s
  | .rdata m => Sys2Proof.Machine.execRdata m s
  | .reject m => Sys2Proof.Machine.execReject m s
  | .reqTimeout tag => Sys2Proof.Machine.execReqTimeout tag s
  | .arrive m => Sys2Proof.Machine.execArrive m s
  | .abandon m => Sys2Proof.Machine.execAbandon m s
  | .barrierTimeout b => Sys2Proof.Machine.execBarrierTimeout b s
  | .hello role chipId gen step recipe ocrc loaded => Sys2Proof.Machine.execHello role chipId gen step recipe ocrc loaded s
  | .heartbeat role commit => Sys2Proof.Machine.execHeartbeat role commit s
  | .heartbeatSend => Sys2Proof.Machine.execHeartbeatSend s
  | .takeover t => Sys2Proof.Machine.execTakeover t s
  | .partnerLost => Sys2Proof.Machine.execPartnerLost s
  | .aloneExpire => Sys2Proof.Machine.execAloneExpire s
  | .mirror commit part bytes => Sys2Proof.Machine.execMirror commit part bytes s
  | .mirrorEnd t commit what parts => Sys2Proof.Machine.execMirrorEnd t commit what parts s
  | .mirrorAck commit => Sys2Proof.Machine.execMirrorAck commit s
  | .mirrorAckTimeout => Sys2Proof.Machine.execMirrorAckTimeout s
  | .posReq t => Sys2Proof.Machine.execPosReq t s
  | .pos t rttNs p v => Sys2Proof.Machine.execPos t rttNs p v s
  | .posExchangeTimer => Sys2Proof.Machine.execPosExchangeTimer s
  | .switchover req => Sys2Proof.Machine.execSwitchover s req
  | .switchoverCapture t => Sys2Proof.Machine.execSwitchoverCapture t s
  | .release t commit => Sys2Proof.Machine.execRelease t commit s
  | .pairSleep req => Sys2Proof.Machine.execPairSleep s req
  | .sleepMessage ack => Sys2Proof.Machine.execSleepMessage ack s
  | .pairWake req => Sys2Proof.Machine.execPairWake s req
  | .completionTimeout q idx => Sys2Proof.Machine.execCompletionTimeout q idx s
  | .hostCreditsReturned n => Sys2Proof.Machine.execHostCreditsReturned s n
  | .pcieLinkUp speed width credits => Sys2Proof.Machine.execPcieLinkUp speed width s credits
  | .ref25Loss => Sys2Proof.Machine.execRef25Loss s
  | .ref25Return => Sys2Proof.Machine.execRef25Return s
  | .retryAttemptSuccess ch => Sys2Proof.Machine.execRetryAttemptSuccess ch s
  | .atrCharacterTimeout => Sys2Proof.Machine.execAtrCharacterTimeout s

end Sys2Proof.Machine
end

