-- ==== Sys2Proof/Machine/Step.lean ====
section
/-! DEFINITION. The step: the command at the front of the queue runs with the queue's rest, and with none waiting the block does what
it does by itself (log entry 4); and the host's probe of a word. -/

namespace Sys2Proof.Machine

/-- One step of the block: takes the first waiting command and runs it; with none waiting, what the block does by itself
(R30, log entry 4). -/
def step (s : State) : Host.Outcome State Fault Refusal :=
  match s.pending with
  | [] => .next s.idle
  | c :: cs => exec c { s with pending := cs }

/-- `s` with the command that a word spells in front of its queue; the table gives no row bits, so no word spells one
(log entry 6). -/
def State.withFetchWord (s : State) (nbits w : Nat) : State :=
  match decodeTableWord nbits w with
  | some c => { s with pending := c :: s.pending }
  | none => s

end Sys2Proof.Machine
end

