-- ==== Sys2Proof/Safety.lean ====
section
/-! DEFINITION. What claims are stated with: which half of the block a command can touch, and where a command that runs an instruction,
a vector operation, a descriptor or a sequencer instruction finds the one it names. -/

namespace Sys2Proof.Machine

/-- A step that ends in a next state. -/
def SafeStep (s : State) : Prop := ∃ t, step s = .next t

/-- The invariant of byte memory: its canonical form. -/
def State.memForm (s : State) : Prop := s.dev.mem.wf = true

/-- A register access of `req` at `off` takes effect: the PERI domain runs (R18, R117), the host does not access in D3hot (R154), and the
register's own domain is on (R144). -/
def State.reaches (s : State) (req : Requester) (off : Nat) : Bool :=
  s.periRuns && !(isHost req && s.dev.is F.PCI_STATUS_D3) && !s.domainOff off

/-- Tile `n` stands at the legal instruction word `w` with opcode `op` and can issue it (R316, R338); its domain runs. -/
def State.tileAt (s : State) (n op w : Nat) : Bool :=
  let t := s.dev.tile n
  s.coreRuns && s.dev.tileRuns n && (t.wait == .none || t.wait == .other || t.wait == .ending) && t.pc % 8 == 0 &&
    decide (t.pc < tileSize) && (s.dev.badGran (tileBase n + t.pc) 8).isNone &&
    ofBytes (s.dev.mem.read (tileBase n + t.pc) 8) == w && tiReason w == 0 && tiOpc w == op

/-- What stands outside the always-on domain once tile `n` has fetched the word at its PC: a single-bit error of it is corrected (R179). -/
def State.fetched (s : State) (n : Nat) : Dev := s.dev.correct (tileBase n + (s.dev.tile n).pc) 8

/-- The vector unit of tile `n` runs, and `o` with VOPC `op` is the operation at the front of its queue (R331, R342). -/
def State.vecAt (s : State) (n op : Nat) (o : VOp) : Bool :=
  s.coreRuns && s.dev.unitsRun n && (s.dev.tile n).vq.head? == some o && voOp o.w.toNat == op

/-- The head descriptor of queue `q` is `x` with opcode `op`; it is well formed, nothing keeps it from issuing, and its
queue is the one picked (R240, R241, R259). -/
def State.headAt (s : State) (q op : Nat) (x : Desc) : Bool :=
  s.coreRuns && (s.dev.queue q).fetched.head? == some x && dOp x == op && s.dev.issueBlock q x == 0 && s.dev.headStatus q x == 0 &&
    !s.dev.outranked q

/-- The sequencer engine can execute the image instruction `w` with opcode `op` (R65, R66). -/
def State.instrAt (s : State) (op w : Nat) : Bool := s.aon.instr == some w && iOp w == op

/-- The commands that can change the always-on domain: those of the supplies, resets and balls, the sequencer, the locket, boot,
register writes, and those through which an access or a power step reaches it. -/
def touchesAon (i : Instr) : Bool :=
  match i with
  | .regWrite _ _ _ _ | .reg64LowRead _ _ | .reg64LowWrite _ _ _ | .reg64HighWrite _ _ _ | .powerOnReset | .aonSupplyDrop
  | .strapSample _ | .testEnHigh | .resetNAssert | .resetNRelease | .perstAssert | .perstDeassert | .flr | .d3hotToD0
  | .jtagBypass | .jtagIdcode | .jtagSamplePreload _ _ | .jtagExtest | .romPreamble | .seqEnd | .seqEnable | .seqDisable
  | .seqWait | .seqWaitExpire | .seqWaitpg | .waitpgSatisfied | .waitpgTimeout | .seqCheck | .seqJump | .seqJumpif | .seqMargin
  | .marginDone _ | .seqLog | .progTimeout | .armTimerExpire _ | .seqPgRise _ | .seqPgFall _ | .pgLost _ | .adcConversion _ _
  | .retryRail _ | .retryBackoffExpire _ | .retryPgTimeout _ | .retryHealthyExpire _ | .groupShutdown _ | .groupOffdlyExpire
  | .systemReset | .sysresetOffStep | .sysresetWaitExpire | .rstCountClear | .swreset _ | .hostMargin _ _ _ | .faultnRelease
  | .faultnReleaseCheck _ | .faultnExt | .faultnGuardExpire | .faultnStuck | .pmbPoll _ _ _ _ _ | .pmbAlert _ _ _ | .pmbTransactionDone _ _
  | .pmbStuck _ | .pmbRecoveryTimer _ _ | .locketNorOpDone _ | .locketEraseDone _ | .locketOpTimeout | .locketStartupScan
  | .locketRead _ _ | .locketReadDone | .gaugeTick | .vinSenseTrip _ | .brownoutRailOff | .brownoutRestart | .thermalTrip _ _
  | .thermtripRailOff | .sfdpDiscovery _ | .norReadTimeout _ | .bootHeaderReadDone _ | .bootImageReadDone _ | .bootVerifyDone
  | .bootConfig | .dramTrainingDone _ | .watchdogExpire | .scrubRead _ _ _ | .dmaComplete _ _ | .shutterWakeStart _
  | .powerInterval _ _ _ | .sensorUpdate _ _ _ | .dvfsVoltageDown | .phaseRestore _ | .mediaPageReadDone _ | .ref25Loss
  | .ref25Return | .retryAttemptSuccess _ => true
  | _ => false

/-- The commands that act in the always-on domain alone. -/
def onlyAon (i : Instr) : Bool :=
  match i with
  | .testEnHigh | .perstDeassert | .jtagBypass | .jtagIdcode | .jtagSamplePreload _ _ | .jtagExtest | .romPreamble | .seqEnd
  | .seqEnable | .seqDisable | .seqWait | .seqWaitpg | .waitpgSatisfied | .waitpgTimeout | .seqCheck | .seqJump | .seqJumpif
  | .seqMargin | .marginDone _ | .seqLog | .progTimeout | .armTimerExpire _ | .seqPgRise _ | .seqPgFall _ | .pgLost _
  | .retryRail _ | .retryBackoffExpire _ | .retryPgTimeout _ | .retryHealthyExpire _ | .groupShutdown _ | .groupOffdlyExpire
  | .sysresetOffStep | .rstCountClear | .faultnRelease | .faultnReleaseCheck _ | .faultnExt | .faultnStuck | .pmbPoll _ _ _ _ _
  | .pmbAlert _ _ _ | .pmbStuck _ | .locketEraseDone _ | .locketOpTimeout | .locketStartupScan | .locketReadDone | .brownoutRailOff
  | .brownoutRestart | .thermtripRailOff | .ref25Loss | .ref25Return | .retryAttemptSuccess _ => true
  | _ => false

/-- The commands that can change the sampled straps (R56): the sampling itself, and the two power-on events before it. -/
def samplesStraps (i : Instr) : Bool :=
  match i with
  | .powerOnReset | .aonSupplyDrop | .strapSample _ => true
  | _ => false

end Sys2Proof.Machine
end

