-- ==== Sys2Proof/Certificates/Slice0/Obligations.lean ====
section
/-! DEFINITION. The statements about the block that are put to the provers. -/

open Sys2Proof Sys2Proof.Machine

/-! ### The whole machine -/

/-- A step takes the command at the front of the queue and runs it on the state with the queue's rest. With no command waiting the block
does what it does by itself: where PERI runs, the oldest DRAM write retires and the engines go on (the model's choice, log entry 4). -/
def Obligations.StepRunsFrontCommand : Prop :=
  ∀ (c : Instr) (cs : List Instr) (s : State),
    (s.pending = c :: cs → step s = exec c { s with pending := cs }) ∧
    (s.pending = [] → s.periRuns = true → step s = .next { s with dev := s.dev.retireWrite.kick }) ∧
    (s.pending = [] → s.periRuns = false → step s = .next s)

/-- No command stops the block: every error of the spec is a change of state. -/
def Obligations.ExecNeverStops : Prop := ∀ (i : Instr) (s : State), ∃ t, exec i s = .next t

/-- No command changes the queue of waiting commands; the step alone takes its front away. -/
def Obligations.StepShortensQueueByOne : Prop :=
  ∀ s t : State, step s = .next t → t.pending = s.pending.tail

/-- From every state, whichever command a step runs but the sampling and the two power-on events, the straps as sampled stay. -/
def Obligations.StrapsHoldUntilPowerOn : Prop :=
  ∀ (b : BitVec 8) (s t : State), s.strap = b → (∀ c, s.pending.head? = some c → samplesStraps c = false) → step s = .next t → t.strap = b

/-- Some fields after reset: those of BOOT_STATUS, BOOT_ERR, PCI_ERR, PCI_BAR2_CTRL and CMD_EVT_CREDIT that the register tables give, the
sequencer in its preamble at index 0, no command waiting, and memory that lists nothing. -/
def Obligations.ResetLeaves : Prop :=
  State.reset.pending = [] ∧ State.reset.dev.rd F.BOOT_STATUS_STAGE = 0 ∧ State.reset.dev.rd F.BOOT_ERR_ERR_A = 1 ∧
  State.reset.dev.rd F.BOOT_ERR_ERR_B = 1 ∧ State.reset.dev.rd F.PCI_ERR_FIRST = 0xFF ∧ State.reset.dev.rd F.PCI_BAR2_CTRL_SIZE = 8 ∧
  State.reset.dev.rd F.CMD_EVT_CREDIT_HELD = 2 ^ 45 - 1 ∧ State.reset.aon.engine = stPreamble ∧ State.reset.aon.pc = 0 ∧
  State.reset.memForm ∧ State.reset.dev.mem.cells = []

/-- The commands that lie outside the list of `touchesAon` leave the always-on domain (its registers, rails, engine, locket) and the
straps as they were. -/
def Obligations.HostSideLeavesAlwaysOn : Prop :=
  ∀ (i : Instr) (s t : State), touchesAon i = false → exec i s = .next t → t.aon = s.aon ∧ t.strap = s.strap

/-- The commands of `onlyAon` leave everything outside the always-on domain as it was: every register, queue, tile, memory byte. -/
def Obligations.SequencerLeavesHostSide : Prop :=
  ∀ (i : Instr) (s t : State), onlyAon i = true → exec i s = .next t → t.dev = s.dev ∧ t.strap = s.strap

/-- Bytes written to memory read back, every byte outside them reads as before, and numbers laid out as little-endian bytes (R5) read
back. -/
def Obligations.MemoryReadsBack : Prop :=
  ∀ (m : Memory) (a : Nat) (bs : List Byte),
    (m.write a bs).read a bs.length = bs ∧ (∀ b, (b < a ∨ a + bs.length ≤ b) → (m.write a bs).get b = m.get b) ∧
    ∀ n v : Nat, (toBytes n v).length = n ∧ ofBytes (toBytes n v) = v % 256 ^ n

/-- The clear of shared SRAM, a tile's store, the closing of a shutter, the end of a tile's clear, a power-on reset and a SYSTEM_RESET
keep the canonical form of memory. -/
def Obligations.MemoryFormKept : Prop :=
  ∀ (s t : State) (n : Nat), s.memForm →
    (exec .sharedSramClear s = .next t → t.memForm) ∧ (exec (.storeComplete n) s = .next t → t.memForm) ∧
    (exec (.shutterClose n) s = .next t → t.memForm) ∧ (exec (.tileClearDone n) s = .next t → t.memForm) ∧
    (exec .powerOnReset s = .next t → t.memForm) ∧ (exec .systemReset s = .next t → t.memForm)

/-! ### Register accesses (chapters 00 and 06) -/

/-- REG_WRITE at every offset and width. Where the access reaches its register (PERI runs, no host access in D3hot, the register's domain
on): an aligned 32-bit write sets a 32-bit register by its access codes; an aligned 64-bit write sets a 64-bit register at once; at an offset
with no register nothing happens. A 64-bit write of two narrow registers is the two 32-bit writes in order. A width or alignment that R9 does not
allow, and a register of a domain that is off, leave only the record of the error; the MSI-X table (R527) takes its own writes and the PBA
discards them. In D3hot a host access is an Unsupported Request. Without the PERI domain there is no access (log entry 5). -/
def Obligations.RegisterWrite32 : Prop :=
  ∀ (s : State) (req : Requester) (off w v : Nat),
    let plain := inR 0x308000 0x310000 off = false ∧ inR 0x310000 0x310100 off = false
    (s.periRuns = false → exec (.regWrite req off w v) s = .next s) ∧
    (s.periRuns = true → isHost req = true → s.dev.is F.PCI_STATUS_D3 = true →
      exec (.regWrite req off w v) s = .next (s.onDev fun d => d.send .unsupported)) ∧
    (s.periRuns = true → (isHost req && s.dev.is F.PCI_STATUS_D3) = false →
      (inR 0x308000 0x310000 off = true → exec (.regWrite req off w v) s = .next (s.onDev fun d => d.msixWrite (ridOf req) off w v)) ∧
      (inR 0x308000 0x310000 off = false → ((w ≠ 4 ∧ w ≠ 8) ∨ off % w ≠ 0) →
        exec (.regWrite req off w v) s = .next (s.onDev fun d => d.pciErr 0 off (ridOf req))) ∧
      (inR 0x310000 0x310100 off = true → (w = 4 ∨ w = 8) → off % w = 0 → exec (.regWrite req off w v) s = .next s) ∧
      (plain → off % 4 = 0 → s.domainOff off = true →
        exec (.regWrite req off 4 v) s = .next (s.onDev fun d => d.pciErr 1 off (ridOf req))) ∧
      (plain → off % 4 = 0 → s.domainOff off = false → hitAt off = none → exec (.regWrite req off 4 v) s = .next s) ∧
      (∀ h, plain → off % 4 = 0 → s.domainOff off = false → hitAt off = some h → h.reg.wide = false →
        exec (.regWrite req off 4 v) s = .next (s.regSet req h off (v % 2 ^ 32))) ∧
      (∀ h, plain → off % 8 = 0 → s.domainOff off = false → wideAt off = some h →
        exec (.regWrite req off 8 v) s = .next ((s.setHeld off none).regSet req h off (v % 2 ^ 64))) ∧
      (plain → off % 8 = 0 → wideAt off = none →
        exec (.regWrite req off 8 v) s = .next ((s.write32 req off (v % 2 ^ 32)).write32 req (off + 4) (v / 2 ^ 32))))

/-- The halves of a 64-bit register that an access reaches (R9): the low half is held until the high half is written, which commits both;
reading the low half captures the high half. -/
def Obligations.Register64Halves : Prop :=
  ∀ (s : State) (req : Requester) (off v : Nat) (h : Hit), s.reaches req off = true →
    hitAt off = some h → h.reg.wide = true → h.high = false → (isTileOff off = true → inR 0x1000 0x3000 (inTile off) = false) →
    exec (.reg64LowWrite req off v) s = .next (s.setHeld off (some (v % 2 ^ 32))) ∧
    exec (.reg64LowRead off req) s = .next (s.setCapt off (some (s.regVal h off / 2 ^ 32))) ∧
    (∀ low h', s.held off = some low → s.domainOff (off + 4) = false → hitAt (off + 4) = some h' → h'.reg.wide = true → h'.high = true →
      exec (.reg64HighWrite req (off + 4) v) s =
        .next ((s.setHeld off none).regSet req { h' with high := false } off (low + v % 2 ^ 32 * 2 ^ 32)))

/-- A misaligned access, and an access to a register of a domain that is off, while PERI runs outside D3hot: their whole effect is the record
in PCI_ERR (R9, R144, R162). The error's bit is set and COUNT grows by one up to its largest value; FIRST, ERR_ADDR and ERR_RID take the
error's index, its offset and the requester's ID when no error stood (FIRST was 0xFF) and stay otherwise; every other field and all memory
stay. -/
def Obligations.RefusedAccessesAreRecorded : Prop :=
  ∀ (s : State) (off rid : Nat), s.periRuns = true → s.dev.is F.PCI_STATUS_D3 = false →
    let recorded (i : Instr) (k : Nat) (bit : Fld) : Prop := ∃ t, exec i s = .next t ∧ t.aon = s.aon ∧ t.dev.mem = s.dev.mem ∧
      t.dev.rd bit = 1 ∧ t.dev.rd F.PCI_ERR_COUNT = min (s.dev.rd F.PCI_ERR_COUNT + 1) 65535 ∧
      (s.dev.rd F.PCI_ERR_FIRST = 0xFF →
        t.dev.rd F.PCI_ERR_FIRST = k ∧ t.dev.rd F.PCI_ERR_ADDR_ADDR = off % 2 ^ 64 ∧ t.dev.rd F.PCI_ERR_RID_RID = rid % 65536) ∧
      (s.dev.rd F.PCI_ERR_FIRST ≠ 0xFF → t.dev.rd F.PCI_ERR_FIRST = s.dev.rd F.PCI_ERR_FIRST ∧
        t.dev.rd F.PCI_ERR_ADDR_ADDR = s.dev.rd F.PCI_ERR_ADDR_ADDR ∧ t.dev.rd F.PCI_ERR_RID_RID = s.dev.rd F.PCI_ERR_RID_RID) ∧
      ∀ f : Fld, f.key ≠ bit.key → f.key ≠ F.PCI_ERR_COUNT.key → f.key ≠ F.PCI_ERR_FIRST.key → f.key ≠ F.PCI_ERR_ADDR_ADDR.key →
        f.key ≠ F.PCI_ERR_RID_RID.key → t.dev.rd f = s.dev.rd f
    recorded (.misalignedAccess off rid) 0 F.PCI_ERR_REG_ACCESS ∧
    (s.domainOff off = true → recorded (.domainOffAccess off rid) 1 F.PCI_ERR_DOMAIN_OFF)

/-- While SEQ_CTRL.LOCK is 1, a write of a locked register changes nothing (R95). -/
def Obligations.LockedRegistersStay : Prop :=
  ∀ (s : State) (req : Requester) (h : Hit) (off v : Nat), s.aon.is F.SEQ_CTRL_LOCK = true → seqLocked off = true →
    s.regSet req h off v = s

/-! ### Resets, balls and the test port (chapters 02, 05, 06, 23) -/

/-- A power-on reset leaves the straps unsampled, notes power-on as the last cause, keeps the flash of the locket and the level of every
power-good ball, and leaves every register outside the always-on domain, memory, contexts, queues and tiles as at reset. When the standby supply drops the same reset asserts and
the supply counts as lost. The straps are sampled once, when the supply is good. -/
def Obligations.PowerOnAndStraps : Prop :=
  ∀ (s : State) (balls : BitVec 8),
    (∃ t, exec .powerOnReset s = .next t ∧ t.strap = 0 ∧ t.aon.strapped = false ∧ t.aon.supplyOk = true ∧
      t.aon.rd F.BOOT_CAUSE_LAST = 0 ∧ t.aon.rd F.BOOT_CAUSE_SEEN = 1 ∧ t.aon.locket.slots = s.aon.locket.slots ∧
      t.aon.engine = stPreamble ∧ t.aon.pc = 0 ∧ (∀ n, n < 24 → t.aon.on n = false) ∧
      t.dev.regs = [] ∧ t.dev.mem = {} ∧ t.dev.ctxs = [] ∧ t.dev.queues = [] ∧ t.dev.tiles = []) ∧
    (∃ t, exec .aonSupplyDrop s = .next t ∧ t.strap = 0 ∧ t.aon.strapped = false ∧ t.aon.supplyOk = false ∧ (∀ n, n < 24 → t.aon.on n = false) ∧
      t.aon.locket.slots = s.aon.locket.slots ∧
      t.dev.regs = [] ∧ t.dev.mem = {} ∧ t.dev.ctxs = [] ∧ t.dev.queues = [] ∧ t.dev.tiles = []) ∧
    (s.aon.strapped = false → s.aon.supplyOk = true → exec (.strapSample balls) s =
      .next { s with strap := balls, aon := { s.aon with strapped := true }, dev := { s.dev with strap := balls } })

/-- RESET_N assertion, outside the brown-out state, resets everything outside the always-on domain and notes its cause; rails and locket
stay. Its release, once the preamble has released the boot controller and VDD_PERI is up, starts the boot again; in LATCHOFF it ends the
latch. -/
def Obligations.ResetNResetsHostSide : Prop :=
  ∀ s : State, s.aon.ballsReleased = false →
    (s.aon.resetN = true → ∃ t, exec .resetNAssert s = .next t ∧ t.aon.resetN = false ∧ t.aon.rd F.BOOT_CAUSE_LAST = 2 ∧
      t.dev.mem = {} ∧ t.dev.ctxs = [] ∧ t.dev.queues = [] ∧ t.dev.tiles = [] ∧ t.aon.rails = s.aon.rails ∧ t.aon.locket = s.aon.locket) ∧
    (s.aon.resetN = false → s.aon.engine ≠ stLatchoff → s.aon.bootReleased = true → s.aon.armed 0 = true →
      exec .resetNRelease s = .next ((s.onAon fun a => { a with resetN := true }).startBoot (s.aon.wait == .boot))) ∧
    (s.aon.resetN = false → s.aon.engine = stLatchoff →
      exec .resetNRelease s = .next (s.onAon fun a => ({ a with resetN := true }).latchEnd))

/-- The host-link resets and power states: FLR, and the return from D3hot, note cause 5 and take the actions of an FLR; PERST# notes cause 4
and takes its own; D3hot shows in PCI_STATUS. An FLR and D3 need the PERI domain; PERST# needs the balls not released. -/
def Obligations.HostLinkResets : Prop :=
  ∀ s : State,
    (s.periRuns = true → exec .flr s = .next { s with aon := s.aon.cause 5, dev := s.dev.flr }) ∧
    (s.aon.ballsReleased = false → exec .perstAssert s = .next { s with aon := { s.aon with perstN := false }.cause 4, dev := s.dev.perst } ∧
      exec .perstDeassert s = .next { s with aon := { s.aon with perstN := true } }) ∧
    (s.periRuns = true → exec .d3hotEntry s = .next { s with dev := s.dev.wr F.PCI_STATUS_D3 1 }) ∧
    (s.periRuns = true → s.dev.is F.PCI_STATUS_D3 = true →
      exec .d3hotToD0 s = .next { s with aon := s.aon.cause 5, dev := s.dev.flr })

/-- R58: JTAG_EXTEST loads EXTEST; it is in force only while RESET_N is low, and while RESET_N is high it acts as BYPASS. While it is in
force, with TEST_EN low and its pads supplied, a ball of the chain that the block can drive takes its cell; out of force it takes what the
block's logic gives it. -/
def Obligations.ExtestNeedsResetLow : Prop :=
  ∀ s t : State, s.aon.supplyOk = true → exec .jtagExtest s = .next t →
    exec .jtagExtest s = .next { s with aon := { s.aon with tap := .extest, tapOut := 0 } } ∧
    (s.aon.resetN = true → t.aon.tapInForce = .bypass) ∧ (s.aon.resetN = false → t.aon.tapInForce = .extest) ∧ t.dev = s.dev ∧
    (∀ b, s.aon.testEn = false → s.aon.padOk (ballBank b) = true → ballIsOutput b = true → ballInChain b = true →
      (s.aon.resetN = false → t.drive b = t.aon.cellDrive b) ∧ (s.aon.resetN = true → t.drive b = t.logicDrive b)) ∧
    (s.aon.resetN = true → s.aon.ballsReleased = false → ∃ u, exec .resetNAssert t = .next u ∧ u.aon.tapInForce = .extest) ∧
    (s.aon.resetN = false → s.aon.ballsReleased = false → ∃ u, exec .resetNRelease t = .next u ∧ u.aon.tapInForce ≠ .extest)

/-- The other test port instructions, with the standby supply good: BYPASS, IDCODE with its value 0x1481689B shifted out, SAMPLE/PRELOAD with the
chain captured, shifted out and preloaded; TEST_EN, after which every SEQ_EN stands low, as does every ball whose reset state is low; and
the loss and return of the reference clock. -/
def Obligations.TestPortAndPins : Prop :=
  ∀ (s : State) (levels cells : List (Ball × Bool)),
    (s.aon.supplyOk = true →
      exec .jtagBypass s = .next { s with aon := { s.aon with tap := .bypass, tapOut := 0 } } ∧
      exec .jtagIdcode s = .next { s with aon :=
        { s.aon with tap := .idcode, tapOut := 0x1481689B, sent := s.aon.sent ++ [.tdo 0x1481689B] } } ∧
      (∃ t, exec (.jtagSamplePreload levels cells) s = .next t ∧ t.dev = s.dev ∧ t.aon.tap = .sample ∧
        t.aon.captured = scanBalls.map (fun b => (b, s.sampled levels b)) ∧ t.aon.sent = s.aon.sent ++ [.scan t.aon.captured] ∧
        t.aon.cells = cells.filter fun c => scanBalls.contains c.1)) ∧
    (∃ t, exec .testEnHigh s = .next t ∧ t.aon.testEn = true ∧ t.dev = s.dev ∧
      ∀ b, t.aon.padOk (ballBank b) = true → t.drive b = ballReset b) ∧
    exec .ref25Loss s = .next { s with aon := { s.aon with ref25 := false } } ∧
    exec .ref25Return s = .next { s with aon := { s.aon with ref25 := true } }

/-! ### Rail sequencer (chapter 03) -/

/-- The image instructions of the sequencer, when the engine may execute the word `w` of the opcode: what each does to the rails, the flag
F, the index and the wait (R67, R68); and the end past the last of them (R66). -/
def Obligations.SequencerInstructions : Prop :=
  ∀ (s : State) (w : Nat),
    (s.instrAt 0 w = true → exec .seqEnd s = .next { s with aon := s.aon.setEngine stDone }) ∧
    (s.aon.engine = stRun → s.aon.src = .image → s.aon.past = true → exec .seqEnd s = .next { s with aon := s.aon.setEngine stDone }) ∧
    (s.instrAt 1 w = true → exec .seqEnable s = .next { s with aon := (s.aon.railsOn (maskList 24 (iMask w))).advance }) ∧
    (s.instrAt 2 w = true → exec .seqDisable s = .next { s with aon := (s.aon.railsOff (maskList 24 (iMask w))).advance }) ∧
    (s.instrAt 3 w = true → exec .seqWait s =
      .next { s with aon := if bits w 0 16 = 0 then s.aon.advance else { s.aon with wait := .time } }) ∧
    (s.instrAt 4 w = true → exec .seqWaitpg s = .next { s with aon := { s.aon with wait := .pg (s.aon.waitSet w) } }) ∧
    (s.instrAt 5 w = true → exec .seqCheck s =
      .next { s with aon := (s.aon.wr F.SEQ_STATUS_F (if s.aon.checkF w then 1 else 0)).advance }) ∧
    (s.instrAt 6 w = true → exec .seqJump s = .next { s with aon := s.aon.wr F.SEQ_STATUS_PC (bits w 0 8) }) ∧
    (s.instrAt 7 w = true → exec .seqJumpif s = .next (s.onAon fun a =>
      if a.rd F.SEQ_STATUS_F = bits w 24 1 then a.wr F.SEQ_STATUS_PC (bits w 0 8) else a.advance)) ∧
    (s.instrAt 8 w = true → exec .seqMargin s = .next { s with aon :=
      ({ s.aon with wait := .margin (iIdx w) (stepIdx (bits w 0 8)) }).marginStart (iIdx w) (stepIdx (bits w 0 8)) false }) ∧
    (s.instrAt 9 w = true → s.aon.locket.queue.length < 8 → exec .seqLog s = .next { s with aon :=
      (({ s.aon with wait := .logRoom (bits w 0 24) }).record 2 0 0xFF (bits w 0 24)).advance }) ∧
    (s.instrAt 9 w = true → 8 ≤ s.aon.locket.queue.length →
      exec .seqLog s = .next { s with aon := { s.aon with wait := .logRoom (bits w 0 24) } })

/-- The preamble's start, and what ends each wait of the engine: the time of a WAIT, the preamble's last 1 ms, the awaited power-goods and
their time-out; and the program watchdog in PREAMBLE or RUN (R63, R68, R69). -/
def Obligations.SequencerWaits : Prop :=
  ∀ (s : State) (chs : List Nat),
    (s.aon.engine = stPreamble → s.aon.strapped = true → s.aon.pc = 0 → s.aon.wait = .none → s.aon.testEn = false →
      exec .romPreamble s = .next { s with aon := s.aon.romStep }) ∧
    (s.aon.wait = .time → s.aon.running = true → s.aon.preambleEnd = false →
      exec .seqWaitExpire s = .next { s with aon := s.aon.advance }) ∧
    (s.aon.preambleEnd = true → exec .seqWaitExpire s = .next ((s.onAon fun a => { a with wait := .boot }).startBoot true)) ∧
    (s.aon.wait = .pg chs → s.aon.running = true → chs.all (fun n => (s.aon.rail n).pg) = true →
      exec .waitpgSatisfied s = .next { s with aon := s.aon.advance }) ∧
    (s.aon.wait = .pg chs → s.aon.running = true → chs.all (fun n => (s.aon.rail n).pg) = false →
      exec .waitpgTimeout s = .next { s with aon :=
        ({ (chs.filter fun n => !(s.aon.rail n).pg).foldl (fun (a : Aon) n => a.raiseRail 1 n) s.aon with wait := .resume } : Aon).resume }) ∧
    (s.aon.running = true → exec .progTimeout s = .next { s with aon := s.aon.raiseDev 9 .systemReset })

/-- R96: a MARGIN that fails leaves the margin of every rail in force. -/
def Obligations.FailedMarginKeepsMargins : Prop :=
  ∀ s : State, ∃ t, exec (.marginDone false) s = .next t ∧ ∀ n, (t.aon.rail n).margin = (s.aon.rail n).margin

/-- Power-good and arming of channel `ch` (R60, R73): the timer of an enabled channel arms it; a rising SEQ_PG is noted, and arms a
channel that waits for it; a falling one is noted; and an armed channel with PG_EN that stayed low raises PG_LOST, once a fall. -/
def Obligations.PowerGoodAndArming : Prop :=
  ∀ (s : State) (ch : Nat), ch < 24 →
    (s.aon.on ch = true → (s.aon.rail ch).armTimer = true → exec (.armTimerExpire ch) s = .next { s with aon := s.aon.arm ch }) ∧
    exec (.seqPgRise ch) s = .next (s.onAon fun a =>
      let a := (a.setRail ch { a.rail ch with pg := true, pgReported := false }).healthy ch
      if a.on ch && (a.rail ch).pgArm then a.arm ch else a) ∧
    exec (.seqPgFall ch) s = .next { s with aon := s.aon.setRail ch { s.aon.rail ch with pg := false, pgReported := false } } ∧
    (s.aon.armed ch = true → s.aon.is (F.SEQ_RAIL_CFG_PG_EN ch) = true → (s.aon.rail ch).pg = false → (s.aon.rail ch).pgReported = false →
      exec (.pgLost ch) s =
        .next { s with aon := ((s.aon.setRail ch { s.aon.rail ch with pgReported := true }).raiseRail 2 ch).refault ch })

/-- The reactions on one rail and on a group, each when it is the one due (see R77–R79, R82): RETRY_RAIL and the stages of an attempt, the
return of RETRY_COUNT to zero, and GROUP_SHUTDOWN channel by channel. -/
def Obligations.RailReactions : Prop :=
  ∀ (s : State) (ch g : Nat) (p : PendReact),
    (s.aon.nextReact = some p → p.react = .retryRail → p.ch = some ch →
      exec (.retryRail ch) s = .next { s with aon := (({ s.aon with reactQ := s.aon.reactQ.drop 1 }).attempt ch).resume }) ∧
    (s.aon.retrying ch .backoff = true → exec (.retryBackoffExpire ch) s = .next (s.onAon fun a =>
      let a := (a.setRail ch { a.rail ch with retry := .waitPg }).railOn ch
      if a.is (F.SEQ_RAIL_CFG_ADC_EN ch) then a.adcClear (a.rd (F.SEQ_RAIL_CFG_ADC ch)) else a)) ∧
    (s.aon.retrying ch .waitPg = true → s.aon.is (F.SEQ_RAIL_CFG_PG_EN ch) = true → exec (.retryPgTimeout ch) s =
      .next { s with aon := ((s.aon.raiseRailWith 1 ch .retryRail).dropReacts ch).attempt ch }) ∧
    (s.aon.retrying ch (.verify 0) = true → exec (.retryAttemptSuccess ch) s = .next { s with aon :=
      ((s.aon.setRail ch { s.aon.rail ch with retry := .idle, onset := false }).endReaction).resume }) ∧
    (ch < 24 → s.aon.armed ch = true → s.aon.isHealthy ch = true → (s.aon.rail ch).retry = .idle →
      exec (.retryHealthyExpire ch) s = .next { s with aon := s.aon.wr (F.SEQ_RAIL_STAT_RETRY_COUNT ch) 0 }) ∧
    (s.aon.nextReact = some p → p.react = .groupShutdown → p.group = g → exec (.groupShutdown g) s = .next (s.onAon fun a =>
      let a := { a with reactQ := a.reactQ.drop 1 }
      ((match p.ch with | some n => a.inReaction n true | none => a).groupStart g).resume)) ∧
    (∀ n ns, s.aon.reacting = .group g (n :: ns) → ns ≠ [] → exec .groupOffdlyExpire s =
      .next { s with aon := { (s.aon.railOff n).dropReacts n with reacting := .group g ns } }) ∧
    (∀ n, s.aon.reacting = .group g [n] → exec .groupOffdlyExpire s =
      .next { s with aon := (((s.aon.railOff n).dropReacts n).endReaction).resume })

/-- The steps of SYSTEM_RESET (R80, R81): its start when it is the reaction due, each switch-off, the end of the 100 ms with and without a
wait for FAULT_N (R85), the clearing of RST_COUNT in DONE, and SWRESET while LOCK is 0 and the device is not latched off. -/
def Obligations.SystemResetSteps : Prop :=
  ∀ (s : State) (p : PendReact) (req : Requester) (n : Nat) (ns : List Nat) (c l : Bool),
    (s.aon.nextReact = some p → p.react = .systemReset → exec .systemReset s =
      .next ((s.onPeri Dev.aerInternal).onAon fun a => ({ a with reactQ := a.reactQ.drop 1 }).sysStart p.count)) ∧
    (s.aon.reacting = .sysOff (n :: ns) c l → ns ≠ [] →
      exec .sysresetOffStep s = .next { s with aon := { (s.aon.railOff n).dropReacts n with reacting := .sysOff ns c l } }) ∧
    (s.aon.reacting = .sysOff [n] c l →
      exec .sysresetOffStep s = .next { s with aon := ((s.aon.railOff n).dropReacts n).sysOffDone c l }) ∧
    (s.aon.reacting = .sysWait c → s.aon.faultN.guardWait = false →
      exec .sysresetWaitExpire s = .next (s.onAon fun a => if c then a.sat F.SEQ_STATUS_RST_COUNT else a).restart) ∧
    (s.aon.reacting = .sysWait c → s.aon.faultN.guardWait = true →
      exec .sysresetWaitExpire s = .next (s.onAon fun a =>
        { (if c then a.sat F.SEQ_STATUS_RST_COUNT else a) with reacting := .sysGuard })) ∧
    (s.aon.engine = stDone → exec .rstCountClear s = .next { s with aon := s.aon.wr F.SEQ_STATUS_RST_COUNT 0 }) ∧
    (s.reaches req 0x100000 = true → s.aon.is F.SEQ_CTRL_LOCK = false → s.aon.engine ≠ stLatchoff →
      exec (.swreset req) s = .next (s.onAon fun a => a.raiseDev 0xE .systemReset).sysReset)

/-- Host margins and the FAULT_N ball (see R83–R85, R90, R92): a host margin that reaches its register, discarded under LOCK; the end of a
margin write; the release of FAULT_N outside a switch-off, LATCHOFF, a brown-out and a thermal trip, and the check after it; a fall of the
line from another party; the end of the guard of R85; and FAULTN_STUCK. -/
def Obligations.MarginsAndFaultN : Prop :=
  ∀ (s : State) (req : Requester) (ch step : Nat),
    (s.reaches req 0x100018 = true →
      (s.aon.is F.SEQ_CTRL_LOCK = true → exec (.hostMargin ch step req) s = .next s) ∧
      (s.aon.is F.SEQ_CTRL_LOCK = false → s.aon.is F.SEQ_MARGIN_BUSY = false →
        exec (.hostMargin ch step req) s = .next { s with aon := s.aon.hostMargin ch step })) ∧
    (∀ n st h ok, s.aon.marginOf = some (n, st, h) → exec (.marginDone ok) s = .next (s.onAon fun a => a.marginEnd n st h
      (ok && (a.bus (a.busOf n)).carries n h && (a.bus (a.busOf n)).recovery == 0 && a.takesVolts n))) ∧
    (s.aon.is F.SEQ_STATUS_FAULTN_DRIVE = true → s.aon.switching = false → s.aon.engine ≠ stLatchoff → s.aon.therm.trip = false →
      s.aon.brown.tripped = false → ∃ t, exec .faultnRelease s = .next t ∧ t = { s with aon := s.aon.freeFaultN } ∧
        t.aon.rd F.SEQ_STATUS_FAULTN_DRIVE = 0 ∧ t.aon.faultN.releaseCheck = true) ∧
    (s.aon.faultN.releaseCheck = true → s.aon.is F.SEQ_STATUS_FAULTN_DRIVE = false →
      exec (.faultnReleaseCheck false) s = .next { s with aon := { s.aon with faultN := { s.aon.faultN with releaseCheck := false } } } ∧
      exec (.faultnReleaseCheck true) s =
        .next { s with aon := ({ s.aon with faultN := { s.aon.faultN with releaseCheck := false } }).faultnExt }) ∧
    (s.aon.is F.SEQ_STATUS_FAULTN_DRIVE = false → s.aon.supplyOk = true → exec .faultnExt s = .next { s with aon := s.aon.faultnExt }) ∧
    (s.aon.is F.SEQ_STATUS_FAULTN_DRIVE = false →
      let a := ({ s.aon with faultN := { s.aon.faultN with extLow := false, guardWait := false, releaseCheck := false } }).showFaultN
      ((s.aon.reacting = .sysGuard ∨ s.aon.reacting = .brownGuard) → exec .faultnGuardExpire s = .next ({ s with aon := a } : State).restart) ∧
      (s.aon.reacting = .latchGuard → exec .faultnGuardExpire s = .next (({ s with aon := a.restartSeq } : State).fullReset 2))) ∧
    (s.aon.is F.SEQ_STATUS_FAULTN_LOW = true → exec .faultnStuck s = .next { s with aon := s.aon.raiseDev 0xB .ignore })

/-- Supervision (see R71, R86–R88): a conversion of the input whose turn it is; a poll and an alert, queued on their bus once; the end of the
transaction in progress on a bus out of recovery; and the recovery of a stuck bus, step by step. -/
def Obligations.AdcAndPmbus : Prop :=
  ∀ (s : State) (input code bus ch st vout iout : Nat) (pages : List Nat) (t : PmbTxn) (data : List Nat),
    (s.aon.supplyOk = true → s.aon.strapped = true → input = s.aon.adcNext → input < 32 →
      exec (.adcConversion input code) s = .next (s.adc input (min code 4095))) ∧
    (ch < 24 → s.aon.is (F.SEQ_RAIL_PMB_EN ch) = true → (s.aon.bus (s.aon.busOf ch)).has (PmbTxn.isPoll ch) = false →
      exec (.pmbPoll ch st vout iout pages) s = .next { s with aon := s.aon.busAdd (s.aon.busOf ch) (.poll ch st vout iout pages) }) ∧
    (bus < 2 → (s.aon.bus bus).has PmbTxn.isAlert = false →
      exec (.pmbAlert bus ch st) s = .next { s with aon := s.aon.busAdd bus (.alert ch st) }) ∧
    (bus < 2 → (s.aon.bus bus).txn = some t → (s.aon.bus bus).recovery = 0 →
      (s.aon.txnAble t = true → exec (.pmbTransactionDone bus (.ok data)) s = .next (s.txnOk bus t data)) ∧
      exec (.pmbTransactionDone bus .failed) s = .next (s.txnFail bus t) ∧
      (s.aon.txnAble t = true → s.aon.is F.SEQ_PMB_CTRL_PEC_EN = true →
        ((s.aon.bus bus).pecRetried = false → exec (.pmbTransactionDone bus .pecMismatch) s =
          .next { s with aon := s.aon.setBus bus { s.aon.bus bus with pecRetried := true } }) ∧
        ((s.aon.bus bus).pecRetried = true → exec (.pmbTransactionDone bus .pecMismatch) s =
          .next ((s.onAon fun a => a.raiseDev 7 .ignore).txnFail bus t)))) ∧
    (bus < 2 → s.aon.degraded bus = false → (s.aon.bus bus).recovery = 0 →
      exec (.pmbStuck bus) s = .next { s with aon := s.aon.setBus bus { s.aon.bus bus with recovery := 1 } }) ∧
    (bus < 2 →
      let n := (s.aon.bus bus).last
      let setRec (a : Aon) (k : Nat) : Aon := (a.setBus bus { a.bus bus with recovery := k }).busKick bus
      ((s.aon.bus bus).recovery = 1 →
        exec (.pmbRecoveryTimer bus true) s = .next { s with aon := (setRec s.aon 0).raiseDev 6 .ignore } ∧
        (s.aon.is (F.SEQ_RAIL_CFG_ESSENTIAL n) = false → s.aon.on n = true →
          exec (.pmbRecoveryTimer bus false) s = .next { s with aon := setRec (s.aon.railOff n) 2 })) ∧
      ((s.aon.bus bus).recovery = 2 → ∀ free,
        exec (.pmbRecoveryTimer bus free) s = .next { s with aon := setRec (s.aon.railOn n) 3 }) ∧
      ((s.aon.bus bus).recovery = 3 →
        exec (.pmbRecoveryTimer bus true) s = .next { s with aon := setRec s.aon 0 } ∧
        exec (.pmbRecoveryTimer bus false) s = .next ((s.onAon fun a => a.raiseRailWith 6 n .groupShutdown).degrade bus)))

/-! ### Locket, brown-out and thermal trip (chapter 04) -/

/-- The writer, the start-up scan, the read-out and the gauge of the locket (R99, R102, R105, R106, R108, R115): what ends each program and
each erase, well or not; the scan where the NOR answers and the boot controller does not read; a read that reaches its register and its
end, with and without such a record; and one microsecond of the gauge and of GLB_UPTIME. -/
def Obligations.LocketOperations : Prop :=
  ∀ (s : State) (req : Requester) (idx i : Nat) (w : BitVec 512),
    (s.aon.locket.prog = .body i w → s.aon.lktYields = false → exec (.locketNorOpDone true) s =
      .next { s with aon := { s.aon with locket := { s.aon.locket with prog := .head i w } } }) ∧
    (s.aon.locket.prog = .head i w → exec (.locketNorOpDone true) s =
      .next ((s.onPeri fun d => d.irq 67).onAon fun a => (a.lktCommit i w).lktKick.brownGiveUp.resume)) ∧
    ((s.aon.locket.prog = .body i w ∨ s.aon.locket.prog = .head i w) → exec (.locketNorOpDone false) s =
      .next { s with aon := (s.aon.lktRequeue i w).lktFail.lktKick.brownGiveUp.resume }) ∧
    (s.aon.locket.erasing ≠ none → ∀ ok, exec (.locketEraseDone ok) s = .next { s with aon := s.aon.lktEraseEnd ok }) ∧
    (s.aon.locket.prog = .none → s.aon.locket.erasing ≠ none → exec .locketOpTimeout s = .next { s with aon := s.aon.lktEraseEnd false }) ∧
    (s.aon.locket.prog ≠ .none → exec .locketOpTimeout s = .next { s with aon := s.aon.lktProgDone false }) ∧
    (s.aon.sfdp.isSome = true → s.aon.is F.LKT_STATUS_READY = false → s.aon.is F.LKT_STATUS_NOR_FAIL = false → s.dev.reading = false →
      ∃ t, exec .locketStartupScan s = .next t ∧ t.dev = s.dev ∧ t.aon.is F.LKT_STATUS_READY = true ∧
        t.aon.locket.porCount = (match s.aon.locket.newestFirst.head? with
          | some k => (recPor (s.aon.locket.slot k) + 1) % 65536
          | none => 0)) ∧
    (s.reaches req 0x108018 = true → s.aon.rd F.LKT_RD_IDX_STATE ≠ 1 → ∃ t, exec (.locketRead idx req) s = .next t ∧
      t.aon.locket.reading = some (idx % 4096) ∧ t.aon.rd F.LKT_RD_IDX_STATE = 1 ∧ t.dev = s.dev) ∧
    (s.aon.locket.reading = some idx → s.aon.locket.newestFirst[idx]? = none → exec .locketReadDone s = .next (s.onAon fun a =>
      ({ a with locket := { a.locket with reading := none } } : Aon).wr F.LKT_RD_IDX_STATE 3)) ∧
    (s.aon.locket.reading = some idx → s.aon.locket.newestFirst[idx]? = some i → exec .locketReadDone s = .next (s.onAon fun a =>
      (({ a with locket := { a.locket with reading := none } } : Aon).lktData (a.locket.slot i)).wr F.LKT_RD_IDX_STATE 2)) ∧
    (s.aon.supplyOk = true → ∃ t, exec .gaugeTick s = .next t ∧ t.dev = ({ s.dev with uptime := s.dev.uptime + 1 } : Dev).creditTick ∧
      t.aon.rd F.GLB_UPTIME_US = (s.aon.rd F.GLB_UPTIME_US + 1) % 2 ^ 64 ∧ t.aon.locket = s.aon.gaugeStep.locket)

/-- Brown-out and thermal trip (see R110–R113): a trip with the standby supply good drives FAULT_N low, lists the channels in reverse order of
enabling and starts card deactivation where PERI runs; each further step switches one channel off; after the last step of a brown-out the
restart waits for FAULT_N, or, in LATCHOFF or after a thermal trip, does not come. -/
def Obligations.BrownoutAndThermalTrip : Prop :=
  ∀ (s : State) (code sensor temp n : Nat) (ns : List Nat),
    (s.aon.supplyOk = true → ∃ t, exec (.vinSenseTrip code) s = .next t ∧ t.aon.brown.tripped = true ∧ t.aon.brown.deciding = true ∧
      t.aon.brown.offs = s.aon.enOrder.reverse ∧ t.aon.rd F.SEQ_STATUS_FAULTN_DRIVE = 1 ∧
      t.dev = if s.periRuns then s.dev.deactPower.kick else s.dev) ∧
    (s.aon.brown.tripped = true → s.aon.brown.offs = n :: ns → exec .brownoutRailOff s = .next (s.onAon fun a =>
      let b := (a.railOff n).dropReacts n
      { b with brown := { b.brown with offs := ns } })) ∧
    (s.aon.brownOver = true → s.aon.engine ≠ stLatchoff → s.aon.therm.trip = false → exec .brownoutRestart s =
      .next { s with aon := { s.aon.brownClear.freeFaultN with reacting := .brownGuard } }) ∧
    (s.aon.brownOver = true → (s.aon.engine = stLatchoff ∨ s.aon.therm.trip = true) →
      exec .brownoutRestart s = .next { s with aon := s.aon.brownClear }) ∧
    (s.aon.therm.trip = false → s.aon.supplyOk = true → sensor < 24 → ∃ t, exec (.thermalTrip sensor temp) s = .next t ∧
      t.aon.therm = { trip := true, lineLow := true, offs := s.aon.enOrder.reverse, sensor := sensor, temp := temp } ∧
      t.aon.rd F.SEQ_STATUS_FAULTN_DRIVE = 1 ∧ t.dev = if s.periRuns then s.dev.aerInternal.deactPower.kick else s.dev) ∧
    (s.aon.therm.trip = true → s.aon.therm.recorded = false → s.aon.therm.offs = n :: ns →
      exec .thermtripRailOff s = .next (s.onAon fun a =>
        let b := (a.railOff n).dropReacts n
        let c := { b with therm := { b.therm with offs := ns } }
        if ns.isEmpty then c.thermEnd else c))

/-! ### Boot (chapter 05) -/

/-- The copies of the image (R122, R124, R125, R129): the discovery of a NOR that can be used and of one that cannot; a failed read command,
retried up to three times; and, where the reads reach the NOR, the header, the image and the verification, each accepted or failing the
copy with its code. -/
def Obligations.BootReadsImage : Prop :=
  ∀ (s : State) (f : Sfdp) (idx code : Nat) (bs : List Byte) (img : Image),
    (s.aon.strapped = true → s.aon.sfdp = none → s.aon.is F.LKT_STATUS_NOR_FAIL = false →
      (f.erase4k = true → f.addr4b = true → exec (.sfdpDiscovery (some f)) s =
        .next { s with aon := { s.aon with sfdp := some f }, dev := s.dev.showSfdp (some f) }) ∧
      ((f.erase4k = false ∨ f.addr4b = false) → ∃ t, exec (.sfdpDiscovery (some f)) s = .next t ∧ t.dev = s.dev ∧ t.aon.sfdp = none ∧
        t.aon.is F.LKT_STATUS_NOR_FAIL = true) ∧
      (∃ t, exec (.sfdpDiscovery none) s = .next t ∧ t.dev = s.dev ∧ t.aon.sfdp = none ∧ t.aon.is F.LKT_STATUS_NOR_FAIL = true)) ∧
    (s.norReads = true →
      let n := if s.dev.boot.retryAt = idx then s.dev.boot.retries else 0
      (n < 3 → exec (.norReadTimeout idx) s =
        .next { s with dev := { s.dev with boot := { s.dev.boot with retryAt := idx, retries := n + 1 } } }) ∧
      (3 ≤ n → exec (.norReadTimeout idx) s = .next (s.copyFail 2)) ∧
      (s.dev.rd F.BOOT_STATUS_STAGE = 1 → bs.length = 64 →
        (hdrCode bs = 0 → exec (.bootHeaderReadDone bs) s = .next { s with dev :=
          ({ s.dev with boot := { s.dev.boot with header := bs, retryAt := 0, retries := 0 } } : Dev).setStage 2 }) ∧
        (hdrCode bs ≠ 0 → exec (.bootHeaderReadDone bs) s = .next (s.copyFail (hdrCode bs)))) ∧
      (s.dev.rd F.BOOT_STATUS_STAGE = 2 → bs.length = imgLen s.dev.boot.header + s.aon.readTail s.dev.boot.header →
        (bytesAt bs (imgLen s.dev.boot.header) 4 = (crc32 (bs.take (imgLen s.dev.boot.header))).toNat →
          exec (.bootImageReadDone bs) s = .next { s with dev :=
            ({ s.dev with boot := { s.dev.boot with bytes := bs, retryAt := 0, retries := 0 } } : Dev).setStage 3 }) ∧
        (bytesAt bs (imgLen s.dev.boot.header) 4 ≠ (crc32 (bs.take (imgLen s.dev.boot.header))).toNat →
          exec (.bootImageReadDone bs) s = .next (s.copyFail 8)))) ∧
    (s.periRuns = true → s.dev.rd F.BOOT_STATUS_STAGE = 3 →
      (s.aon.imageOf s.dev.boot.header s.dev.boot.bytes = .inl code → exec .bootVerifyDone s = .next (s.copyFail code)) ∧
      (s.aon.imageOf s.dev.boot.header s.dev.boot.bytes = .inr img → s.aon.wait ≠ .boot →
        ∃ t, exec .bootVerifyDone s = .next t ∧ t.aon = s.aon ∧ t.dev.boot.image = img ∧ t.dev.rd F.BOOT_STATUS_STAGE = 4))

/-- The configuration and the DRAM work, where PERI runs (R119, R128, R131, R132). In stage 4 with the engine in DONE: stage 5, the PCIE
section or its defaults, the REG_INIT entries, and stage 6 or, with no DRAM work to wait for, stage 7. The DRAM work starts once group 1
is armed; training that succeeds leads to the initialisation, one that fails is a device error with DRAM_FAIL; the initialisation leaves
DRAM ready and zero unless it was skipped. -/
def Obligations.BootConfiguresAndTrainsDram : Prop :=
  ∀ (s : State) (x : DramSec) (rs : List (Nat × Nat × Bool)), s.periRuns = true →
    (s.dev.rd F.BOOT_STATUS_STAGE = 4 → s.aon.engine = stDone → exec .bootConfig s = .next (((s.onDev fun d =>
      match s.dev.boot.image.pcie with
      | some (v, i, z) => ((d.setStage 5).onBoot fun b => { b with subsys := (v, i) }).wr F.PCI_BAR2_CTRL_SIZE z
      | none => ((d.setStage 5).onBoot fun b => { b with subsys := (0, 0) }).wr F.PCI_BAR2_CTRL_SIZE 8).regEntries fun o =>
        !seqLktOff o && (!aonOff o || s.dev.boot.redelivery)).onDev fun d =>
      if (d.setStage 6).dramOver then (d.setStage 6).bootDone else d.setStage 6)) ∧
    (s.dev.rd F.BOOT_STATUS_STAGE = 4 → s.aon.engine = stDone → s.dev.boot.image = {} →
      ∃ t, exec .bootConfig s = .next t ∧ t.dev.rd F.BOOT_STATUS_STAGE = 7 ∧ t.dev.rd F.PCI_BAR2_CTRL_SIZE = 8 ∧ t.dev.boot.wdtRun = true) ∧
    (s.dev.boot.image.dram = some x → s.dev.boot.dramArmed = false → s.aon.group1On = true →
      ∃ t, exec .dramWorkStart s = .next t ∧ t.dev.rd F.BOOT_STATUS_DRAM_BUSY = 1 ∧ t.dev.boot.dramArmed = true ∧
        t.dev.boot.training = true ∧ t.aon = s.aon) ∧
    (s.dev.boot.image.dram = some x → s.dev.boot.training = true → x.trained rs = true →
      let d' := (s.dev.onBoot fun b => { b with training := false }).showTrain rs
      (rs.all (·.2.2) = true → exec (.dramTrainingDone rs) s = .next { s with dev := d'.onBoot fun b => { b with initing := true } }) ∧
      (rs.all (·.2.2) = false → exec (.dramTrainingDone rs) s =
        .next ((({ s with dev := d'.wr F.BOOT_STATUS_DRAM_FAIL 1 } : State).bootError).onDev fun d => (d.standFail 7).dramEnd))) ∧
    (s.dev.boot.image.dram = some x → s.dev.boot.initing = true →
      ∃ t, exec .dramInitDone s = .next t ∧ t.aon = s.aon ∧ t.dev.rd F.BOOT_STATUS_DRAM_READY = 1 ∧ t.dev.rd F.BOOT_STATUS_DRAM_BUSY = 0 ∧
        (∀ a, a < 2 ^ 36 → x.skipInit = false → t.dev.mem.get a = 0) ∧ ∀ a, 2 ^ 36 ≤ a → t.dev.mem.get a = s.dev.mem.get a)

/-- The visible size of a DRAM section's channels: without ECC the whole of it, with ECC 31 parts of 32 (R170). -/
def Obligations.VisibleDramSize : Prop :=
  ∀ x : DramSec,
    (x.ecc = false → x.size = (maskList 32 x.channels).length * (512 * 2 ^ 20 * 2 ^ x.density)) ∧
    (x.ecc = true → 32 * x.size = 31 * ((maskList 32 x.channels).length * (512 * 2 ^ 20 * 2 ^ x.density)))

/-- The standalone start and the watchdog (see R134–R136), where PERI runs: the start with its DRAM failed or not, the load of a mounted
cartridge, GO, a kick (which the state does not hold, log entry 7), and the expiry of a running watchdog. -/
def Obligations.StandaloneStartAndWatchdog : Prop :=
  ∀ (s : State) (req : Requester) (st : Standing) (v : Nat), s.periRuns = true →
    (s.strapBoot ≠ 2 → s.dev.boot.image.standing = some st → s.crdOn = true → s.dev.rd F.BOOT_STANDING_STATE = 0 →
      (s.dev.is F.BOOT_STATUS_DRAM_FAIL = false → exec .standaloneStart s = .next { s with dev := s.dev.standBegin }) ∧
      (s.dev.is F.BOOT_STATUS_DRAM_FAIL = true →
        exec .standaloneStart s = .next { s with dev := (s.dev.wr F.BOOT_STANDING_CAUSE 7).setStanding 6 })) ∧
    (s.dev.boot.image.standing = some st → s.dev.rd F.BOOT_STANDING_STATE = 1 → s.dev.rd F.MED_STATUS_STATE = 2 →
      s.dev.is F.BOOT_STATUS_DRAM_READY = true → s.dev.is F.BOOT_STATUS_DRAM_FAIL = false → s.dev.keyOk st.key = true →
      exec .standaloneLoad s = .next (s.onDev fun d =>
        (((d.onBoot fun b => { b with standStep := 2 }).setStanding 2).onMed fun m => { m with clients := m.clients ++ [.standing 0] }).kick)) ∧
    (s.reaches req 0x200014 = true → s.dev.rd F.BOOT_STANDING_STATE = 4 → exec (.standingGo req) s = .next { s with dev := s.dev.standRun }) ∧
    (s.reaches req 0x20001C = true → exec (.wdtKick v req) s = .next s) ∧
    (s.dev.boot.wdtRun = true → s.dev.rd F.BOOT_WDT_PERIOD ≠ 0 →
      let t := (s.bootError.onAon fun a => a.sat F.BOOT_CAUSE_WDT_COUNT).fullReset 3
      exec .watchdogExpire s = .next (t.startBoot (t.aon.wait == .boot)))

/-! ### Host interface (chapters 06 and 07) -/

/-- Configuration requests, BAR2 accesses and the link, where PERI runs (see R121, R138, R139, R145–R149, R154, R157, R158). A configuration read
answers the field's value, another request is carried out, each once stage 5 has ended; before, Retry Status. A BAR2 read answers the bytes
(decrypted where they lie in DRAM), zeros from a hole, or a poisoned completion. A posted write, of the host or of a peer, stores its enabled
bytes; a matching aperture that holds it counts its slots, a matching requester outside its apertures is a violation, and the filter then
discards the write. In D3hot each is an Unsupported Request. -/
def Obligations.HostAccesses : Prop :=
  ∀ (s : State) (r : CfgReq) (f : CfgField) (k off len rid sp wd cr : Nat) (bs : List (Option Byte)), s.periRuns = true →
    let p := s.dev.bar2Target off
    let write (i : Instr) : Prop :=
      (s.dev.is F.PCI_STATUS_D3 = true → exec i s = .next (s.onDev fun d => d.send .unsupported)) ∧
      (s.dev.is F.PCI_STATUS_D3 = false →
        (lastOn bs = 0 → exec i s = .next s) ∧
        (lastOn bs ≠ 0 → s.dev.apMatch rid = [] → exec i s = .next (s.onDev fun d => d.bar2Store p rid bs)) ∧
        (∀ ks, lastOn bs ≠ 0 → s.dev.apMatch rid = k :: ks → s.dev.inAp k (spanOn p bs).1 (spanOn p bs).2 = true →
          (s.dev.bar2Takes p bs = true →
            exec i s = .next (s.onDev fun d => (d.bar2Store p rid bs).apCount k (d.apSlots k p bs))) ∧
          (s.dev.bar2Takes p bs = false → exec i s = .next (s.onDev fun d => d.bar2Store p rid bs))) ∧
        (lastOn bs ≠ 0 → s.dev.apMatch rid ≠ [] → (∀ j ∈ s.dev.apMatch rid, s.dev.inAp j (spanOn p bs).1 (spanOn p bs).2 = false) →
          exec i s = .next (s.onDev fun d =>
            if d.is F.PCI_P2P_CTRL_FILTER then (d.pciErr 3 p rid).aerAdvisory rid
            else ((d.pciErr 3 p rid).aerAdvisory rid).bar2Store p rid bs)))
    (s.dev.cfgReady = true → exec (.configRequest (.read f)) s = .next (s.onDev fun d => d.send (.cfgData (s.cfgField f)))) ∧
    (s.dev.cfgReady = true → (∀ g, r ≠ .read g) → exec (.configRequest r) s = .next (s.onDev fun d => (d.cfgReq r).send .cfgOk)) ∧
    (s.dev.cfgReady = false → exec (.configRequest r) s = .next (s.onDev fun d => d.send .crs)) ∧
    (s.dev.pci.memEnable = false → k ≤ 16 → ∃ t, exec (.bar2Resize k) s = .next t ∧ t.dev.rd F.PCI_BAR2_CTRL_SIZE = k ∧
      t.dev.mem = s.dev.mem ∧ t.aon = s.aon) ∧
    (s.dev.pci.memEnable = true ∨ 16 < k → exec (.bar2Resize k) s = .next s) ∧
    (s.dev.is F.PCI_STATUS_D3 = true → exec (.bar2Read off len rid) s = .next (s.onDev fun d => d.send .unsupported)) ∧
    (s.dev.is F.PCI_STATUS_D3 = false → s.dev.bar2Ok p len = true → s.dev.badGran p len = none →
      exec (.bar2Read off len rid) s = .next (s.onDev fun d => (d.correct p len).send (.completion
        (d.readMem (d.rd F.PCI_BAR2_CTRL_KEYSEL) p (min len (2 ^ 36 - p)) ++
          d.mem.read (p + min len (2 ^ 36 - p)) (len - min len (2 ^ 36 - p))) false))) ∧
    (∀ g, s.dev.is F.PCI_STATUS_D3 = false → s.dev.bar2Ok p len = true → s.dev.badGran p len = some g → ∃ t bytes,
      exec (.bar2Read off len rid) s = .next t ∧ bytes.length = len ∧ t.dev.out = s.dev.out ++ [.completion bytes true] ∧
      t.dev.mem = s.dev.mem ∧ (s.dev.is F.MEM_ECC_STAT_UE = false → t.dev.rd F.MEM_ERR_ADDR_ADDR = g % 2 ^ 44)) ∧
    (s.dev.is F.PCI_STATUS_D3 = false → s.dev.bar2Ok p len = false → ∃ t, exec (.bar2Read off len rid) s = .next t ∧
      t.dev.out = s.dev.out ++ [.completion (List.replicate len 0) false] ∧ t.dev.rd F.PCI_ERR_BAR2_HOLE = 1 ∧ t.dev.mem = s.dev.mem) ∧
    write (.bar2Write off rid bs) ∧ write (.p2pWrite rid off bs) ∧
    (s.aon.perstN = true → s.aon.armed 7 = true → sp < 8 → wd < 32 → ∃ t, exec (.pcieLinkUp sp wd cr) s = .next t ∧
      t.dev.rd F.PCI_STATUS_DL_UP = 1 ∧ t.dev.rd F.PCI_STATUS_SPEED = sp ∧ t.dev.rd F.PCI_STATUS_WIDTH = wd ∧ t.dev.pci.credits = cr ∧
      t.dev.mem = s.dev.mem)

/-- Apertures, the MSI-X table, the completions of a mover's host reads, and credits (R33, R140, R141, R151, R156, R159, R527): the oldest
read of the descriptor at that address is answered, its data goes to the descriptor while that one lives; a failed or missing completion
kills the context. Credits that return send what waits, in order. -/
def Obligations.HostChannels : Prop :=
  ∀ (s : State) (req : Requester) (k off w v q idx addr n : Nat) (bs : List Byte) (r : HRead) (i : Issued) (p : Posted),
    (k < 8 → s.reaches req (0x300444 + 32 * k) = true → s.dev.is (F.PCI_AP_CTL_EN k) = false →
      ∃ t, exec (.apertureEnable k req) s = .next t ∧
      (t.dev.rd (F.PCI_AP_CTL_EN k) = if s.dev.apOk k then 1 else 0) ∧ t.dev.mem = s.dev.mem) ∧
    (s.reaches req 0x308000 = true → 0x308000 ≤ off → off < 0x310000 →
      exec (.msixTableWrite off w v req) s = .next (s.onDev fun d => d.msixWrite (ridOf req) off w v)) ∧
    (s.coreRuns = true → (s.dev.pci.reads.find? fun x => x.q == q && x.idx == idx && x.src.addr == addr) = some r → r.live = true →
      (s.dev.readDone r).bySeq q r.seq = some i →
      exec (.moverCompletion q idx addr .ok bs) s = .next (s.onDev fun d => (d.readDone r).setIssued q
        { i with acked := i.acked + 1, rdata := i.rdata ++ [(r.elem, (bs ++ List.replicate r.len 0).take r.len)] }) ∧
      ∀ st, st ≠ .ok → exec (.moverCompletion q idx addr st bs) s = .next (s.onDev fun d => (d.readDone r).cplFail r i)) ∧
    (s.coreRuns = true → (s.dev.pci.reads.find? fun x => x.q == q && x.idx == idx && x.src.addr == addr) = some r → r.live = false →
      ∀ st, exec (.moverCompletion q idx addr st bs) s = .next (s.onDev fun d => d.readDone r)) ∧
    (s.coreRuns = true → (s.dev.pci.reads.find? fun x => x.q == q && x.idx == idx) = some r → r.live = true →
      (s.dev.readDone r).bySeq q r.seq = some i →
      exec (.completionTimeout q idx) s = .next (s.onDev fun d => (d.readDone r).cplFail r i)) ∧
    (s.periRuns = true → 0 < n → (s.dev.collect fun _ i => i.endAs.isSome) = [] → s.dev.invals = [] →
      (s.dev.pci.stalled = [] → ∃ t, exec (.hostCreditsReturned n) s = .next t ∧ t.dev.pci.credits = s.dev.pci.credits + n ∧
        t.dev.rd F.PCI_STATUS_HCP_STALL = 0 ∧ t.dev.out = s.dev.out ∧ t.aon = s.aon) ∧
      (s.dev.pci.stalled = [p] → ∃ t, exec (.hostCreditsReturned n) s = .next t ∧ t.dev.pci.credits = s.dev.pci.credits + n - 1 ∧
        t.dev.pci.stalled = [] ∧ t.dev.out = s.dev.out ++ [p.out] ∧ t.aon = s.aon))

/-! ### Memory and keys (chapter 07) -/

/-- The clearing of the shared SRAM and the scrubber (R168, R171, R172, R179, R528). The bit errors that have arisen by a SCRUB_READ come with
it; with no scrubbing period or without ECC they are all it does. A granule with one wrong bit is rewritten and counted; one with two is
poisoned, and captured unless an error stands. -/
def Obligations.SramAndScrub : Prop :=
  ∀ (s : State) (addr : Nat) (us : List Upset),
    (s.periRuns = true → s.aon.armed 6 = true → s.dev.sramReady = false → ∃ t, exec .sharedSramClear s = .next t ∧ t.dev.sramReady = true ∧
      (∀ a, sramBase ≤ a → a < sramBase + sramSize → t.dev.mem.get a = 0) ∧
      ∀ a, (a < sramBase ∨ sramBase + sramSize ≤ a) → t.dev.mem.get a = s.dev.mem.get a) ∧
    (s.periRuns = true → s.dev.rd F.MEM_SCRUB_PERIOD ≠ 0 → s.dev.is F.MEM_CFG_ECC = true → addr < s.dev.memSize →
      (s.dev.badGran (addr / 64 * 64) 64 = none → exec (.scrubRead addr .correctable []) s =
        .next (s.onDev fun d => ({ d with ecc := fdel d.ecc (addr / 64 * 64) }).sat F.MEM_ECC_STAT_DRAM_CE)) ∧
      (s.dev.is F.CMD_EVT_CTRL_EN = false → ∃ t, exec (.scrubRead addr .uncorrectable []) s = .next t ∧
        fget t.dev.ecc (addr / 64 * 64) = some .poison ∧ t.dev.mem = s.dev.mem ∧
        t.dev.is F.MEM_ECC_STAT_UE = true ∧
        (s.dev.is F.MEM_ECC_STAT_UE = false → t.dev.rd F.MEM_ERR_ADDR_ADDR = addr / 64 * 64 % 2 ^ 44 ∧
          t.dev.rd F.MEM_ERR_INFO_SOURCE = 5))) ∧
    (∀ r, s.periRuns = true → s.dev.rd F.MEM_SCRUB_PERIOD = 0 → exec (.scrubRead addr r []) s = .next s) ∧
    (∀ r, s.periRuns = true → (us.foldl State.upset s).dev.is F.MEM_CFG_ECC = false →
      exec (.scrubRead addr r us) s = .next (us.foldl State.upset s))

/-- The key commands when the slot allows them (R176, R177): LOAD takes the staged key and clears the staging registers, ZEROIZE empties
the slot, QUERY shows its state. Of a slot that does not allow it each leaves the key as it is and shows the reason in RESULT. -/
def Obligations.KeyCommands : Prop :=
  ∀ (s : State) (req : Requester) (slot : Nat), slot < 256 → s.reaches req 0x400040 = true →
    (s.dev.keyResult 0 slot = 0 → ∃ t, exec (.keySlotLoad slot req) s = .next t ∧
      t.dev.key slot = { st := .host, key := s.dev.stagedKey } ∧ t.dev.stagedKey = 0 ∧ t.dev.rd F.MEM_KEY_STAT_RESULT = 0) ∧
    (s.dev.keyResult 1 slot = 0 → ∃ t, exec (.zeroize slot req) s = .next t ∧ t.dev.key slot = {} ∧ t.dev.rd F.MEM_KEY_STAT_RESULT = 0) ∧
    (s.dev.keyResult 2 slot = 0 → ∃ t, exec (.keySlotQuery slot req) s = .next t ∧ t.dev.key slot = s.dev.key slot ∧
      t.dev.rd F.MEM_KEY_STAT_STATE = (s.dev.key slot).st.code ∧ t.dev.rd F.MEM_KEY_STAT_RESULT = 0) ∧
    ∀ op i, (op, i) ∈ [(0, Instr.keySlotLoad slot req), (1, .zeroize slot req), (2, .keySlotQuery slot req)] →
      s.dev.keyResult op slot ≠ 0 → ∃ t, exec i s = .next t ∧ (∀ j, t.dev.key j = s.dev.key j) ∧
        t.dev.rd F.MEM_KEY_STAT_RESULT = s.dev.keyResult op slot ∧ t.dev.mem = s.dev.mem

/-! ### Contexts and translation (chapter 08) -/

/-- The context operations that succeed (see R181–R183, R228): what each leaves in the selected context, with RESULT OK and BUSY 0. CREATE takes
the lowest save record that is free; DESTROY of a context that is not ACTIVE and whose revocation has ended frees it. -/
def Obligations.ContextOperations : Prop :=
  ∀ (s : State) (req : Requester) (c n : Nat), s.reaches req 0x500014 = true → s.dev.is F.MMU_CTX_CMD_BUSY = false → s.dev.sel = c → c ≠ 0 →
    ((s.dev.ctx c).state = 0 → s.dev.inMem s.dev.rootArg 4096 = true → s.dev.freeRec = some n →
      ∃ t, exec (.create req) s = .next t ∧ t.dev.ctx c = { state := 1, root := s.dev.rootArg, saveRec := some n } ∧
        t.dev.rd F.MMU_CTX_CMD_RESULT = 0 ∧ t.dev.rd F.MMU_CTX_CMD_BUSY = 0 ∧ t.dev.mem = s.dev.mem) ∧
    (s.dev.active c = false → (s.dev.ctx c).state ≠ 0 → (s.dev.ctx c).revoking = false → exec (.destroy req) s = .next (s.onDev fun d =>
      ((d.wr F.MMU_CTX_CMD_OP 1).freeCtx c).ctxEnd .ok)) ∧
    (s.dev.active c = true → (s.dev.ctx c).pasid = none → s.dev.pasidTaken c (s.dev.rd F.MMU_CTX_PASID_PASID) = false →
      ∃ t, exec (.bind req) s = .next t ∧ t.dev.ctx c = { s.dev.ctx c with pasid := some (s.dev.rd F.MMU_CTX_PASID_PASID) } ∧
        t.dev.rd F.MMU_CTX_CMD_RESULT = 0) ∧
    (s.dev.active c = true → (s.dev.ctx c).pasid ≠ none → s.dev.flying c hostHalf = false →
      ∃ t, exec (.unbind req) s = .next t ∧ t.dev.ctx c = { s.dev.ctx c with pasid := none } ∧ t.dev.rd F.MMU_CTX_CMD_RESULT = 0) ∧
    (s.dev.active c = true → s.dev.inMem s.dev.rootArg 4096 = true → (s.dev.flying c fun _ => true) = false →
      ∃ t, exec (.setRoot req) s = .next t ∧ t.dev.ctx c = { s.dev.ctx c with root := s.dev.rootArg } ∧ t.dev.rd F.MMU_CTX_CMD_RESULT = 0) ∧
    (∃ t, exec (.ctxQuery req) s = .next t ∧ t.dev.rd F.MMU_CTX_STATE_STATE = (s.dev.ctx c).state % 4 ∧
      t.dev.rd F.MMU_CTX_STATE_CAUSE = (s.dev.ctx c).cause % 256 ∧ t.dev.rd F.MMU_CTX_ROOT_ROOT = (s.dev.ctx c).root / 4096 % 2 ^ 32 ∧
      t.dev.rd F.MMU_CTX_PASID_BOUND = (if (s.dev.ctx c).pasid.isSome then 1 else 0) ∧
      t.dev.rd F.MMU_CTX_CMD_RESULT = 0 ∧ t.dev.ctx c = s.dev.ctx c)

/-- Pin windows (see R197–R199): a window that is free is walked and registered at once; UNPIN of one clears it at once when no pass or vector
operation of the context is in progress, and otherwise waits for those that began before it. -/
def Obligations.PinWindows : Prop :=
  ∀ (s : State) (req : Requester) (c i : Nat),
    (s.reaches req 0x500014 = true → s.dev.is F.MMU_CTX_CMD_BUSY = false → s.dev.sel = c → c ≠ 0 → s.dev.active c = true →
      s.dev.rd F.MMU_PIN_IDX_IDX = i →
      (s.dev.rd F.MMU_PIN_LEN_LEN ≠ 0 → s.dev.rd F.MMU_PIN_LEN_LEN ≤ 2 ^ 24 →
        (s.dev.rd F.MMU_PIN_VA_VA + s.dev.rd F.MMU_PIN_LEN_LEN) * 4096 ≤ 2 ^ 47 → fget (s.dev.ctx c).pins i = none →
        exec (.pin req) s = .next (s.onDev fun d => (d.wr F.MMU_CTX_CMD_OP 5).pinNow c i)) ∧
      (fget (s.dev.ctx c).pins i = none → ∃ t, exec (.unpin req) s = .next t ∧ t.dev.rd F.MMU_CTX_CMD_RESULT = 0 ∧
        t.dev.ctx c = s.dev.ctx c) ∧
      (fget (s.dev.ctx c).pins i ≠ none → s.dev.quiet (s.dev.tileMarks c) = true → ∃ t, exec (.unpin req) s = .next t ∧
        t.dev.ctx c = { s.dev.ctx c with pins := fdel (s.dev.ctx c).pins i, unpin := none, marks := [] } ∧
        t.dev.rd F.MMU_CTX_CMD_RESULT = 0) ∧
      (fget (s.dev.ctx c).pins i ≠ none → s.dev.quiet (s.dev.tileMarks c) = false → ∃ t, exec (.unpin req) s = .next t ∧
        t.dev.ctx c = { s.dev.ctx c with unpin := some i, marks := s.dev.tileMarks c } ∧ t.dev.rd F.MMU_CTX_CMD_BUSY = 1)) ∧
    (s.coreRuns = true → (s.dev.ctx c).unpin = some i → s.dev.quiet (s.dev.ctx c).marks = true → s.dev.rd F.MMU_CTX_CMD_OP ≠ 5 →
      ∃ t, exec (.unpinComplete c i) s = .next t ∧ t.dev.rd F.MMU_CTX_CMD_RESULT = 0 ∧
        t.dev.ctx c = { s.dev.ctx c with pins := fdel (s.dev.ctx c).pins i, unpin := none, marks := [] })

/-- Walks, translations, page requests and invalidations of the movers (see R188–R196, R203, R214, R215), where CORE runs. -/
def Obligations.MoverTranslation : Prop :=
  ∀ (s : State) (q idx va pa z k c : Nat) (w : Bool) (i : Issued) (p : Prg) (v : Inval) (x : AtsReq) (who : AtsFor), s.coreRuns = true →
    (s.dev.issued q idx = some i → s.dev.moving q i = true → inStream i.d va w = true → va < 2 ^ 47 →
      (dOp i.d ≠ 0x20 → exec (.pageWalkDone q idx va w) s = .next (s.onDev fun d => d.walkStep q i va w)) ∧
      (dOp i.d = 0x20 → exec (.pageWalkDone q idx va w) s = .next (s.onDev fun d => Dev.done (d.prefetchRun q i)))) ∧
    ((s.dev.atsOut.find? fun y => y.isFor q who va) = some x → ∀ r w u, exec (.atsCompletion q who va pa z r w u) s =
      .next (s.onDev fun d =>
        let n := min (max z 4096) (2 ^ 30)
        (d.atsNext x).atsDone x { va := va / n * n, pa := pa / n * n, size := n, host := true, dst := x.write, untr := u } r w)) ∧
    (fget s.dev.prgs k = some p → p.live = false → ∀ code,
      exec (.priResponse k code) s = .next (s.onDev fun d => { d with prgs := fdel d.prgs k }.nextPrgs 512)) ∧
    (fget s.dev.prgs k = some p → p.live = true →
      (∀ code, code ≠ .failure → exec (.priResponse k code) s = .next (s.onDev fun d =>
        (Dev.done ({ d with prgs := fdel d.prgs k }.priAnswer k p code)).nextPrgs 512)) ∧
      exec (.priResponse k .failure) s = .next (s.onDev fun d =>
        let a := { d with prgs := fdel d.prgs k }.stopPri
        let b := a.1.priAnswer k p .failure
        (Dev.done (b.1, a.2 ++ b.2)).nextPrgs 512)) ∧
    (fget s.dev.prgs k = some p → p.live = true → (∀ a n, p.own ≠ .advise a n) → exec (.priTimeout k) s = .next (s.onDev fun d =>
      ({ d with prgs := fdel d.prgs k }.kill { c := p.ctx, cause := 7, src := 1, addr := (d.prgNeeds p.q p.own).1 }).nextPrgs 512)) ∧
    (∀ ps, s.dev.invals = [] → exec (.atsInvalidate idx ps va pa) s = .next (s.onDev fun d =>
      { d with invals := [{ itag := idx, pasid := ps, base := va, size := pa }] }.invalStart)) ∧
    (∀ ps vs, s.dev.invals = v :: vs → exec (.atsInvalidate idx ps va pa) s = .next (s.onDev fun d =>
      { d with invals := d.invals ++ [{ itag := idx, pasid := ps, base := va, size := pa }] })) ∧
    (∀ vs, s.dev.invals = v :: vs → v.sent = false → s.dev.readsDrained = true → exec .invalidateReadsDrained s = .next (s.onDev fun d =>
      (({ d with invals := { v with sent := true } :: vs }).postOut { out := .invalComplete v.itag }).invalEnd)) ∧
    ((s.dev.ctx c).revoking = true → ∃ t, exec (.killRevocationDone c) s = .next t ∧ (t.dev.ctx c).revoking = false)

/-! ### Pre-emption and events (chapter 09) -/

/-- The operations of CMD_PRE_CMD that succeed (R218, R220, R222, R226, R232). -/
def Obligations.PreemptionCommands : Prop :=
  ∀ (s : State) (req : Requester) (c : Nat), s.reaches req 0x608058 = true → s.dev.is F.CMD_PRE_CMD_BUSY = false →
    s.dev.rd F.CMD_PRE_SEL_CTX = c → c ≠ 0 → s.dev.active c = true →
    ((s.dev.ctx c).spill ≠ none → s.dev.liveQueues c = [] → s.dev.preQ = [] → s.dev.rd F.CMD_PRE_CTRL_GRACE = 0 → ∃ t,
      exec (.preempt req) s = .next t ∧ (t.dev.ctx c).hold = true ∧ t.dev.rd F.CMD_PRE_CMD_RESULT = 0) ∧
    (∀ q, (s.dev.ctx c).spill ≠ none → s.dev.liveQueues c = [q] → (s.dev.queue q).pre = .running → s.dev.preQ = [] →
      s.dev.preActive = true → ∃ t, exec (.preempt req) s = .next t ∧ t.dev.preQ = [q] ∧ (t.dev.ctx c).hold = true ∧
        t.dev.rd F.CMD_PRE_CMD_RESULT = 0) ∧
    (∃ t, exec (.resume req) s = .next t ∧ t.dev.ctx c = { s.dev.ctx c with hold := false } ∧ t.dev.rd F.CMD_PRE_CMD_RESULT = 0) ∧
    exec (.kill req) s = .next (s.onDev fun d =>
      ((d.wr F.CMD_PRE_CMD_OP 3).kill { c := c, cause := 0x12, src := 0 }).preEnd 3 0) ∧
    (s.dev.badSpill c (s.dev.rd F.CMD_PRE_SPILL_BASE * 65536) (s.dev.rd F.CMD_PRE_SPILL_KEY) = false →
      ∃ t, exec (.setSpill req) s = .next t ∧ t.dev.rd F.CMD_PRE_CMD_RESULT = 0 ∧
        (t.dev.ctx c).spill = some (s.dev.rd F.CMD_PRE_SPILL_BASE * 65536, s.dev.rd F.CMD_PRE_SPILL_KEY)) ∧
    (((s.dev.queuesOf c).any fun q => !s.dev.unpre q) = false → ∃ t, exec (.clearSpill req) s = .next t ∧ (t.dev.ctx c).spill = none ∧
      t.dev.rd F.CMD_PRE_CMD_RESULT = 0) ∧
    (∃ t, exec (.preemptQuery req) s = .next t ∧ t.dev.rd F.CMD_PRE_STAT_PSTATE = s.dev.pstate c ∧
      t.dev.rd F.CMD_PRE_STAT_COUNT = (s.dev.ctx c).preCount % 65536 ∧ t.dev.ctx c = s.dev.ctx c)

/-- The stages of a save and a restore, where CORE runs (R220, R223, R224, R226): the GRACE of a DISPATCH that waits for its tiles ends, and
the pre-emptions due begin; STOP, SAVE and CLEAR follow each other; a queue whose tiles are free is restored to them. -/
def Obligations.SaveAndRestore : Prop :=
  ∀ (s : State) (q m ns : Nat) (b : Nat × Nat), s.coreRuns = true →
    (s.dev.wants q = some m → s.dev.rd F.CMD_PRE_CTRL_GRACE ≠ 0 →
      exec (.graceExpire q) s = .next (s.onDev fun d => (d.setQueue q { d.queue q with grace := true }).preGoOn)) ∧
    ((s.dev.queue q).pre = .stop → (maskList 16 (s.dev.rd (F.Q_LEASE_L q))).all s.dev.tileStopped = true → (s.dev.queue q).issued = [] →
      s.dev.fenceReady = none → s.dev.placeWait = [] →
      ∃ t, exec (.preemptStopDone q) s = .next t ∧ (t.dev.queue q).pre = .save) ∧
    ((s.dev.ctx (s.dev.qctx q)).spill = some b → (s.dev.queue q).pre = .save →
      (maskList 16 (s.dev.rd (F.Q_LEASE_L q))).findSome? (fun n => s.dev.saveUe n (s.dev.tile n).savedBanks) = none →
      ∃ t, exec (.preemptSaveDone q) s = .next t ∧ (t.dev.queue q).pre = .clear) ∧
    ((s.dev.queue q).pre = .clear → s.dev.preQ = [] → s.dev.rd F.CMD_PRE_CTRL_GRACE = 0 → ∃ t, exec (.preemptClearDone q ns) s = .next t ∧
      (t.dev.queue q).savedLease = s.dev.rd (F.Q_LEASE_L q) ∧ (t.dev.queue q).pre = .preempted) ∧
    (s.dev.restorable q = true →
      (s.dev.queues.any fun e => decide (s.dev.rd (F.Q_CFG_PRIO q) < s.dev.rd (F.Q_CFG_PRIO e.1)) &&
        (s.dev.claim e.1 &&& (s.dev.queue q).savedLease) != 0) = false →
      ∃ t, exec (.restoreStart q) s = .next t ∧ (t.dev.queue q).pre = .restoring ∧ t.dev.mem = s.dev.mem) ∧
    ((s.dev.ctx (s.dev.qctx q)).spill = some b → (s.dev.queue q).pre = .restoring → fget s.dev.saved q = none →
      s.dev.badGran (s.dev.recAt (s.dev.qctx q)) 4096 = none → (s.dev.queue q).issued = [] → s.dev.fenceReady = none → s.dev.placeWait = [] →
      s.dev.preQ = [] → s.dev.rd F.CMD_PRE_CTRL_GRACE = 0 →
      ∃ t, exec (.restoreDone q ns) s = .next t ∧ (t.dev.queue q).pre = .running)

/-- The event ring and the save pool (R228, R229, R231). -/
def Obligations.EventRing : Prop :=
  ∀ (s : State) (req : Requester) (v h size : Nat),
    (s.reaches req 0x608008 = true → exec (.evtRingEnable v req) s = .next (s.onDev fun d => d.evCtrl v)) ∧
    (s.reaches req 0x60800C = true →
      (s.dev.evt.unread < (h % 4096 + 4096 - s.dev.rd F.CMD_EVT_HEAD_HEAD) % 4096 → exec (.evtHeadWrite h req) s =
        .next (s.onDev fun d => d.wr F.CMD_EVT_STAT_OVERFLOW 1)) ∧
      ((h % 4096 + 4096 - s.dev.rd F.CMD_EVT_HEAD_HEAD) % 4096 ≤ s.dev.evt.unread → s.dev.evt.merged = [] →
        ∃ t, exec (.evtHeadWrite h req) s = .next t ∧ t.dev.rd F.CMD_EVT_HEAD_HEAD = h % 4096 ∧
        t.dev.evt.unread = s.dev.evt.unread - (h % 4096 + 4096 - s.dev.rd F.CMD_EVT_HEAD_HEAD) % 4096 ∧ t.aon = s.aon)) ∧
    (s.reaches req 0x608040 = true → 1 ≤ size → size ≤ 16 → (s.dev.ctxs.any fun e => e.1 != 0 && e.2.state != 0) = false →
      s.dev.is F.CMD_EVT_CTRL_EN = false →
      exec (.savePoolWrite size req) s = .next (s.onDev fun d => d.wr F.CMD_SAVE_POOL_SIZE size))

/-! ### Queues and descriptors (chapters 08 and 10) -/

/-- Queue and semaphore registers (see R234–R239, R243, R247, R249), of a queue and a semaphore that the requester may write. A TAIL behind what has
been fetched stops further fetches until TAIL is written again. -/
def Obligations.QueueRegisters : Prop :=
  ∀ (s : State) (req : Requester) (q sem v : Nat) (es : List Desc), q < 64 → sem < 4096 → s.dev.qProtected req q = false →
    s.dev.semProtected req sem = false →
    (s.reaches req (0x700000 + 0x1000 * q) = true →
      (v < 2 ^ s.dev.rd (F.Q_CFG_LOG2 q) → v < 65536 → ∃ t, exec (.doorbell req q v) s = .next t ∧ t.dev.rd (F.Q_TAIL_TAIL q) = v ∧
        t.aon = s.aon ∧ t.dev.mem = s.dev.mem ∧ (∀ j, j ≠ q → t.dev.queue j = s.dev.queue j) ∧
        ∀ f : Fld, f.key ≠ (F.Q_TAIL_TAIL q).key → t.dev.rd f = s.dev.rd f) ∧
      (2 ^ s.dev.rd (F.Q_CFG_LOG2 q) ≤ v → v < 65536 → exec (.doorbell req q v) s =
        .next (s.onDev fun d => d.postRequest 0 0x8D (some (d.qctx q)) (some q) 0 v))) ∧
    (s.reaches req (0x601000 + 0x40 * q) = true →
      (s.dev.qstate q = 0 → exec (.queueEnable req q v) s = .next (s.onDev fun d => d.configure q v)) ∧
      ((s.dev.qstate q = 1 ∨ s.dev.qstate q = 2) → exec (.queueDisable req q) s = .next (s.onDev fun d => d.drain q)) ∧
      (s.dev.qstate q = 2 → exec (.queueResume req q) s = .next (s.onDev fun d => d.wr (F.Q_STATUS_STATE q) 1))) ∧
    (s.reaches req (0x604000 + 4 * sem) = true →
      exec (.semValWrite req sem v) s = .next (s.onDev fun d => Dev.done (d.semSet sem (v % 2 ^ 32)))) ∧
    (s.reaches req (0x610000 + 4 * sem) = true → s.dev.is (F.SEM_CFG_EN sem) = false → ∃ t, exec (.semCfgWrite req sem v) s = .next t ∧
      t.dev.rd (F.SEM_CFG_EN sem) = bits v 0 1 ∧ t.dev.rd (F.SEM_CFG_SHARE sem) = bits v 1 1 ∧
      t.dev.rd (F.SEM_CFG_CTX sem) = bits v 16 12) ∧
    (s.coreRuns = true → s.dev.qstate q = 1 → s.dev.unpre q = true → (s.dev.queue q).pairHold = false →
      exec (.descriptorFetch q es true) s = .next (s.onDev fun d =>
        (d.fetchRun q true (d.toFetch q) es).onSide q false fun x => { x with tr := none }))

/-- A descriptor at the head of its queue that nothing keeps from issuing (see R199–R204, R241, R244, R247, R248, R250, R255, R371). -/
def Obligations.DescriptorsIssue : Prop :=
  ∀ (s : State) (q : Nat) (x : Desc),
    (s.headAt q 0x00 x = true → exec (.nop q) s = .next (s.onDev fun d => d.reject q x 0)) ∧
    (s.headAt q 0x01 x = true → exec (.dma q) s = .next (s.onDev fun d => d.issueMover q x)) ∧
    (s.headAt q 0x02 x = true →
      (dMode x = 1 → exec (.dispatchAcquire q) s = .next (s.onDev fun d => d.dispatch q x)) ∧
      (dMode x = 0 → exec (.dispatchRun q) s = .next (s.onDev fun d => d.dispatch q x)) ∧
      (dMode x = 2 → exec (.dispatchRelease q) s = .next (s.onDev fun d => d.dispatch q x)) ∧
      (dMode x ≤ 1 → s.dev.rd (F.Q_LEASE_L q) = 0 → exec (.leaseGrant q) s = .next (s.onDev fun d => d.dispatch q x))) ∧
    (s.headAt q 0x03 x = true → exec (.fence q) s = .next (s.onDev fun d => Dev.done ((d.take q x).1, []))) ∧
    (s.headAt q 0x04 x = true → dfld x 10 0 2 = 0 → exec (.signalAdd q) s = .next (s.onDev fun d =>
      d.signal q x (Nat.min (d.rd (F.SEM_VAL_VALUE (dSem x)) + dfld x 12 0 32) (2 ^ 32 - 1)))) ∧
    (s.headAt q 0x04 x = true → dfld x 10 0 2 = 1 → exec (.signalSet q) s = .next (s.onDev fun d => d.signal q x (dfld x 12 0 32))) ∧
    (s.headAt q 0x05 x = true →
      (condHolds x (s.dev.rd (F.SEM_VAL_VALUE (dSem x))) = false → exec (.wait q) s = .next (s.onDev fun d => (d.take q x).1)) ∧
      (condHolds x (s.dev.rd (F.SEM_VAL_VALUE (dSem x))) = true → exec (.wait q) s = .next (s.onDev fun d =>
        let a := (d.take q x).1.waitFire q (d.take q x).2
        Dev.done ((a.1.semChange (dSem x)).1, a.2 ++ (a.1.semChange (dSem x)).2)))) ∧
    (s.headAt q 0x20 x = true → exec (.prefetch q) s = .next (s.onDev fun d => d.issueMover q x)) ∧
    (s.headAt q 0x21 x = true →
      let noted (d : Dev) : Dev := (d.setCtx (d.qctx q)
        { d.ctx (d.qctx q) with advice := advise (d.ctx (d.qctx q)).advice (dfld x 8 0 64) (rangeEnd x) (dfld x 24 0 4) }).reject q x 0
      (dfld x 24 0 4 ≠ 3 → exec (.advise q) s = .next (s.onDev noted)) ∧
      (dfld x 24 0 4 = 3 → exec (.advise q) s = .next (s.onDev fun d =>
        Dev.done ((noted d).probeCount q (d.qctx q) 64 (dfld x 8 0 64) (rangeEnd x))))) ∧
    (s.headAt q 0x22 x = true →
      let d := (s.dev.take q x).1
      let i := (s.dev.take q x).2
      let a := dfld x 16 0 64
      (∀ d' sp, d.items d (dCtx x) (s.dev.qctx q) (dfld x 24 0 16) 0 a [] = .ok d' sp →
        exec (.tableUpdate q) s = .next (s.onDev fun _ => (d'.rewalk (dCtx x) sp).complete q i 0)) ∧
      (∀ k, d.items d (dCtx x) (s.dev.qctx q) (dfld x 24 0 16) 0 a [] = .bad k →
        exec (.tableUpdate q) s = .next (s.onDev fun _ => d.complete q i 0x8B k)) ∧
      (∀ p v r, dfld x 24 0 16 = 1 → d.badGran a 16 = none → d.item (dCtx x) (d.readMem 0 a 16) = .good p v r →
        ((d.correct a 16).walkCorrect (dCtx x) r.1).inMem p 8 = true → exec (.tableUpdate q) s = .next (s.onDev fun _ =>
          ((((d.correct a 16).walkCorrect (dCtx x) r.1).writeMem 0 p (toBytes 8 v) 0 (s.dev.qctx q)).rewalk (dCtx x) [r]).complete q i 0))) ∧
    (s.headAt q 0x30 x = true →
      (dfld x 12 0 1 = 1 → exec (.powerHint q) s = .next (s.onDev fun d =>
        (d.setTag (dTag x) { d.tag (dTag x) with hint := 0, hinted := false, overridden := false, misses := 0 }).reject q x 0)) ∧
      (dfld x 12 0 1 = 0 → (s.dev.tag (dTag x)).overridden = false → exec (.powerHint q) s = .next (s.onDev fun d =>
        (d.setTag (dTag x) { d.tag (dTag x) with hint := dfld x 8 0 32, hinted := true, misses := 0 }).reject q x 0)) ∧
      (dfld x 12 0 1 = 0 → (s.dev.tag (dTag x)).overridden = true → exec (.powerHint q) s = .next (s.onDev fun d =>
        (d.setTag (dTag x) (d.tag (dTag x))).reject q x 0)))

/-- R403: with IMM = 1 a VERDICT_WRITE writes its word at once, with the quality of the position, and completes OK. -/
def Obligations.ImmediateVerdict : Prop :=
  ∀ (s : State) (q t : Nat) (x : Desc), s.headAt q 0x12 x = true → dfld x 20 0 1 = 1 →
    (s.dev.tbTo t).is (F.VP_BLOCK_EN (dfld x 16 0 10 / 64)) = true →
    (s.dev.tbTo t).rd (F.VP_BLOCK_CTX (dfld x 16 0 10 / 64)) = (s.dev.tbTo t).qctx q →
    exec (.verdictWrite q t) s = .next (s.onDev fun d =>
      ((((d.tbTo t).take q x).1.putWord (dfld x 16 0 10) (dfld x 18 0 12) (d.tbTo t).verdictQual).complete q ((d.tbTo t).take q x).2 0
        (d.tbTo t).posData))

/-- Position commands that are not yet due wait in the timebase (R251, R400, R403, R404, R406); a WAIT_POSITION that is already due completes
LATE. -/
def Obligations.PositionCommandsWait : Prop :=
  ∀ (s : State) (q t : Nat) (x : Desc),
    (reached (s.dev.tbTo t).tb.p (dfld x 8 0 64) = false →
      (s.headAt q 0x10 x = true → ∃ u, exec (.waitPosition q t) s = .next u ∧ fget u.dev.tb.waits q = some (dfld x 8 0 64) ∧ u.aon = s.aon) ∧
      (s.headAt q 0x11 x = true → ∃ u a, exec (.atPosition q t) s = .next u ∧ fget u.dev.tb.alarms (dfld x 16 0 6) = some a ∧
        a.pos = dfld x 8 0 64 ∧ a.sem = dfld x 18 0 12 ∧ a.value = dfld x 20 0 32 ∧ a.q = q) ∧
      (s.headAt q 0x12 x = true → dfld x 20 0 1 = 0 → (s.dev.tbTo t).is (F.VP_BLOCK_EN (dfld x 16 0 10 / 64)) = true →
        (s.dev.tbTo t).rd (F.VP_BLOCK_CTX (dfld x 16 0 10 / 64)) = (s.dev.tbTo t).qctx q → (s.dev.tbTo t).tb.verdicts.length < 256 →
        ∃ u e, exec (.verdictWrite q t) s = .next u ∧ u.dev.tb.verdicts = (s.dev.tbTo t).tb.verdicts ++ [e] ∧ e.pos = dfld x 8 0 64 ∧
          e.word = dfld x 16 0 10 ∧ e.value = dfld x 18 0 12 ∧ e.q = q) ∧
      (s.headAt q 0x13 x = true → (s.dev.tbTo t).is (F.TB_GATE_CFG_EN (dfld x 24 0 2)) = true →
        (s.dev.tbTo t).rd (F.TB_GATE_CFG_CTX (dfld x 24 0 2)) = (s.dev.tbTo t).qctx q → gateOffOk x = true →
        ((s.dev.tbTo t).gate (dfld x 24 0 2)).length < 16 →
        ∃ u e, exec (.gateArm q t) s = .next u ∧ u.dev.gate (dfld x 24 0 2) = (s.dev.tbTo t).gate (dfld x 24 0 2) ++ [e] ∧
          e.pos = dfld x 8 0 64 ∧ e.off = dfld x 16 0 64 ∧ e.active = false ∧ e.q = q)) ∧
    (reached (s.dev.tbTo t).tb.p (dfld x 8 0 64) = true → s.headAt q 0x10 x = true → exec (.waitPosition q t) s = .next (s.onDev fun d =>
      ((((d.tbTo t).take q x).1.countLate).complete q ((d.tbTo t).take q x).2 3 (d.tbTo t).posData)))

/-- What ends a descriptor in progress, where CORE runs (R241, R244, R246, R248, R250, R255, R259). A DMA goes as far as it can, and ends once
every element is written. -/
def Obligations.DescriptorsEnd : Prop :=
  ∀ (s : State) (q n : Nat) (x : Desc) (i : Issued) (l : List Desc), s.coreRuns = true →
    ((s.dev.queue q).fetched = x :: l → s.dev.issueBlock q x = 0 → s.dev.headStatus q x ≠ 0 → s.dev.outranked q = false →
      exec (.reservedOpcode q) s = .next (s.onDev fun d => d.reject q x (d.headStatus q x))) ∧
    (((s.dev.queue q).issued.find? fun i => dOp i.d == 5 && dfld i.d 16 0 32 != 0) = some i → s.dev.unpre q = true →
      exec (.waitTimeout q) s = .next (s.onDev fun d => d.complete q i 2 (d.rd (F.SEM_VAL_VALUE (dSem i.d))))) ∧
    (((s.dev.queue q).issued.find? fun i => dOp i.d == 3 && i.flushing) = some i →
      exec (.fenceFlushDone q) s = .next (s.onDev fun d => d.complete q i 0)) ∧
    (s.dev.issued q n = some i → dOp i.d = 1 → exec (.dmaComplete q n) s = .next (s.dmaGo q i.seq (4 * dTotal i.d + 4))) ∧
    (s.dev.issued q n = some i → s.dev.bySeq q i.seq = some i → dOp i.d = 1 → s.dev.moving q i = true → i.endAs = none →
      dTotal i.d ≤ i.progress → exec (.dmaComplete q n) s = .next (s.onDev fun d => Dev.done (d.endMover q i.seq 0
        (i.cnts.1 % 2 ^ 32 + i.cnts.2.1 % 2 ^ 32 * 2 ^ 32) (i.cnts.2.2 % 2 ^ 32)))) ∧
    ((s.dev.tile n).clearing = true → s.dev.is (F.CMD_TILE_LEASED n) = false → (s.dev.ctx (s.dev.tctx n)).revoking = false →
      ∃ t, exec (.tileClearDone n) s = .next t ∧ t.dev.rd (F.CMD_TILE_CTX n) = 0 ∧ t.dev.rd (F.CMD_TILE_QUEUE n) = 0 ∧ t.aon = s.aon)

/-! ### Power (chapter 16) -/

/-- Samples and models of the power manager, where PERI runs (see R364–R367, R374, R375, R377, R383). -/
def Obligations.PowerSamples : Prop :=
  ∀ (s : State) (p : PowerParts) (tags : List TagShare) (ctxs : List CtxShare) (rest : RestShare) (n temp k : Nat), s.periRuns = true →
    (∃ t, exec (.powerInterval tags ctxs rest) s = .next t ∧ t.dev.pwr.ivCnt = 0 ∧
      t.dev.pwr.running = tags.map fun (x : TagShare) => (x.tag, x.tiles)) ∧
    (∃ t, exec (.activityModelTick p) s = .next t ∧ t.dev.pwr.parts = p ∧
      t.dev.pwr.modelCnt = s.dev.pwr.modelCnt + 1 ∧ t.dev.pwr.ivCnt = s.dev.pwr.ivCnt + 1 ∧ t.aon = s.aon) ∧
    (∃ t, exec .edcTick s = .next t ∧ t.dev.pwr.edc ≤ max 64 s.dev.pwr.edc ∧
      (s.dev.rd F.PWR_EDC_EDC_LIM = 0 → t.dev.pwr.edc = max 8 (s.dev.pwr.edc - 8)) ∧ t.aon = s.aon) ∧
    (∃ t, exec .droopDetect s = .next t ∧ t.dev.pwr.droop = 16 ∧ t.dev.pwr.droopHeld = true ∧ t.aon = s.aon) ∧
    exec .droopHoldExpire s = .next (s.onDev fun d => { d with pwr := { d.pwr with droopHeld := false } }) ∧
    (n < 24 → ∃ t, exec (.sensorUpdate n temp false) s = .next t ∧ t.dev.rd (F.PWR_TEMP_FAIL n) = 0 ∧
      t.dev.rd (F.PWR_TEMP_TEMP n) = temp % 4096) ∧
    (n < 24 → ∃ t, exec (.sensorUpdate n temp true) s = .next t ∧ t.dev.rd (F.PWR_TEMP_FAIL n) = 1) ∧
    (s.dev.member n = true → exec (.offer n k) s = .next (s.onDev fun d => { d with pwr := { d.pwr with
      offers := fset d.pwr.offers n (k % 16), absent := d.pwr.absent.filter (· != n) } })) ∧
    (s.dev.member n = true → s.dev.pwr.absent.contains n = false → exec (.lsMemberLost n) s = .next (s.onDev fun d =>
      let r := { d with pwr := { d.pwr with offers := fdel d.pwr.offers n, absent := n :: d.pwr.absent } }.fresh
      r.2.postInfo 43 0x1604 r.1))

/-- Voltage and frequency steps, phases, shutters (R20, R362, R364, R376, R378). -/
def Obligations.PowerSteps : Prop :=
  ∀ (s : State) (req : Requester) (n k c : Nat),
    (s.periRuns = true → s.dev.pwr.step = .upSettle k c → ∃ t, exec .vsettleExpire s = .next t ∧ t.dev.rd F.PWR_STATUS_POINT = k % 16 ∧
      t.dev.pwr.step = .none ∧ t.aon = s.aon) ∧
    (s.periRuns = true → s.dev.pwr.step = .down c → ∃ t, exec .dvfsVoltageDown s = .next t ∧
      (t.aon = if s.voltageFree then s.aon.coreCommand c else s.aon) ∧ t.dev.pwr.step = .none) ∧
    (s.reaches req 0x800010 = true →
      (s.aon.lostPhases = [] → s.dev.pwr.pageBad = [] → ∃ t, exec (.phaseRestore req) s = .next t ∧ t.dev.rd F.PWR_STATUS_PH_LOST = 0 ∧
        t.dev.pwr.lost = [] ∧ t.aon = s.aon) ∧
      (s.aon.lostPhases ≠ [] ∨ s.dev.pwr.pageBad ≠ [] → exec (.phaseRestore req) s = .next s)) ∧
    (s.coreRuns = true → n < 16 → s.dev.rd F.PWR_CTRL_SHUT_IDLE ≠ 0 → s.dev.is (F.CMD_TILE_LEASED n) = false →
      (s.dev.tile n).clearing = false → (s.dev.tile n).shutter = .opened →
      exec (.shutterClose n) s = .next (s.onDev fun d => d.tileReset n .closed)) ∧
    (s.coreRuns = true → n < 16 → (s.dev.tile n).shutter = .closed → (s.dev.tile n).clearing = false → s.dev.wanted n = true →
      s.stepBusy = false →
      (s.dev.codesAt (n / 4) (s.dev.rd F.PWR_STATUS_POINT)).foldl max 0 ≠ 0 →
      (s.dev.codesAt (n / 4) (s.dev.rd F.PWR_STATUS_POINT)).foldl max 0 ≤ s.dev.rd F.PWR_STATUS_VCODE →
      exec (.shutterWakeStart n) s = .next (s.onDev fun d => d.setTile n { d.tile n with shutter := .waking })) ∧
    (s.coreRuns = true → (s.dev.tile n).shutter = .waking →
      ((s.dev.tileReset n .opened).is (F.CMD_TILE_LEASED n) = false →
        exec (.shutterWakeDone n) s = .next (s.onDev fun d => d.tileReset n .opened)) ∧
      ((s.dev.tileReset n .opened).is (F.CMD_TILE_LEASED n) = true →
        exec (.shutterWakeDone n) s = .next (s.onDev fun d => (d.tileReset n .opened).tryStart ((d.tileReset n .opened).tqueue n))))

/-! ### Tile sequencer (chapter 14) -/

/-- The scalar instructions: each writes its result to S[RD] and goes on, and a branch goes to its target (see R314–R321, R324). -/
def Obligations.ScalarInstructions : Prop :=
  ∀ (s : State) (n w : Nat),
    let t := s.dev.tile n
    let a := t.reg (tiRa w)
    let b := t.reg (tiRb w)
    let goes (i : Instr) (op : Nat) (t' : Tile) : Prop :=
      s.tileAt n op w = true → exec i s = .next (s.onDev fun _ => (s.fetched n).retire n t')
    let gives (i : Instr) (op : Nat) (v : Word64) : Prop := goes i op (t.setReg (tiRd w) v).step
    gives (.add n) 0x10 (a + b) ∧ gives (.sub n) 0x11 (a - b) ∧ gives (.and n) 0x12 (a &&& b) ∧ gives (.or n) 0x13 (a ||| b) ∧
    gives (.xor n) 0x14 (a ^^^ b) ∧ gives (.shl n) 0x15 (a <<< (b.toNat % 64)) ∧ gives (.shr n) 0x16 (a >>> (b.toNat % 64)) ∧
    gives (.sra n) 0x17 (a.sshiftRight (b.toNat % 64)) ∧ gives (.mul n) 0x18 (a * b) ∧
    gives (.min n) 0x19 (if b.slt a then b else a) ∧ gives (.max n) 0x1A (if a.slt b then b else a) ∧
    gives (.addi n) 0x1B (a + tiSext w) ∧ gives (.li n) 0x1C (tiSext w) ∧
    gives (.lih n) 0x1D (BitVec.ofNat 64 (tiImm w * 2 ^ 32 + (t.reg (tiRd w)).toNat % 2 ^ 32)) ∧
    goes (.tileNop n) 0x01 t.step ∧ goes (.br n) 0x02 (t.branch (t.target w)) ∧
    goes (.bcc n) 0x03 (if condOk (tiX w) a b then t.branch (t.target w) else t.step) ∧ goes (.jr n) 0x04 (t.branch a.toNat) ∧
    goes (.seta n) 0x30 ({ t with a := t.streamOf w } : Tile).step ∧ goes (.setb n) 0x31 ({ t with b := t.streamOf w } : Tile).step

/-- A scalar instruction changes its destination register, the PC, the loops and the wait of its own tile, the count of retired
instructions, and what the fetch of its word corrects (the ECC counts of R179); every other register, tile, byte of memory, context and queue
stays, and S0 reads zero. -/
def Obligations.ScalarFrame : Prop :=
  ∀ (s t : State) (n op w : Nat) (i : Instr), s.tileAt n op w = true →
    i ∈ [.add n, .sub n, .and n, .or n, .xor n, .shl n, .shr n, .sra n, .mul n, .min n, .max n, .addi n, .li n, .lih n, .tileNop n, .br n,
      .bcc n, .jr n] →
    exec i s = .next t →
      t.aon = s.aon ∧ t.dev.mem = s.dev.mem ∧ t.dev.out = s.dev.out ∧ t.dev.ctxs = s.dev.ctxs ∧ t.dev.queues = s.dev.queues ∧
      (∀ f : Fld, f.key ≠ (F.MT_SEQ_RETIRED_COUNT n).key → f.key ≠ F.MEM_ECC_STAT_SRAM_CE.key → f.key ≠ F.MEM_ECC_STAT_DRAM_CE.key →
        t.dev.rd f = s.dev.rd f) ∧
      (∀ k, k ≠ n → t.dev.tile k = s.dev.tile k) ∧
      (∀ r, r ≠ tiRd w → (t.dev.tile n).reg r = (s.dev.tile n).reg r) ∧
      (t.dev.tile n).reg 0 = 0 ∧
      (t.dev.tile n).vq = (s.dev.tile n).vq ∧ (t.dev.tile n).passes = (s.dev.tile n).passes ∧
      (t.dev.tile n).stores = (s.dev.tile n).stores ∧ (t.dev.tile n).live = (s.dev.tile n).live

/-- Loops, loads and stores, special registers, reservations (see R318–R320, R322, R323, R327, R333). -/
def Obligations.TileMemoryAndLoops : Prop :=
  ∀ (s : State) (n w key : Nat) (x : PStore) (xs : List PStore),
    let t := s.dev.tile n
    let d := s.fetched n
    let pa := lsPa n (t.lsAddr w) (lsSpace w)
    let ends (d' : Dev) : Host.Outcome State Fault Refusal := .next (s.onDev fun _ => d')
    let count := if tiRa w = 0 then tiImm w % 65536 else (t.reg (tiRa w)).toNat % 2 ^ 32
    let stop := t.pc + 8 + 8 * (tiImm w / 65536)
    (s.tileAt n 0x05 w = true → (∀ l, t.loops.getLast? = some l → l.start ≤ t.pc + 8 ∧ stop ≤ l.stop) →
      (count = 0 → exec (.loop n) s = ends (d.retire n (t.goStraight stop))) ∧
      (count ≠ 0 → t.loops.length ≠ 4 → exec (.loop n) s = ends (d.retire n
        { t with loops := t.loops ++ [{ start := t.pc + 8, stop := stop, count := count }], pc := t.pc + 8, wait := .none }))) ∧
    (s.tileAt n 0x20 w = true → lsBad (t.lsAddr w) (lsSize w) (lsSpace w) = false → t.stores = [] → t.vstPending = false →
      d.compute n pa (lsSize w) false = .ok key → d.badGran pa (lsSize w) = none →
      exec (.ld n) s = ends ((d.correct pa (lsSize w)).setRd n t w (BitVec.ofNat 64 (ofBytes (d.readMem key pa (lsSize w)))))) ∧
    (s.tileAt n 0x21 w = true → lsBad (t.lsAddr w) (lsSize w) (lsSpace w) = false → d.compute n pa (lsSize w) true = .ok key →
      exec (.st n) s = ends (d.retire n
        { t with stores := t.stores ++ [({ pa := pa, size := lsSize w, val := (t.reg (tiRb w)).toNat % 2 ^ (8 * lsSize w), key := key } : PStore)] }.step)) ∧
    (s.coreRuns = true → t.stores = x :: xs → s.dev.unitsRun n = true → ∃ u, exec (.storeComplete n) s = .next u ∧
      (u.dev.tile n).stores = xs ∧ u.dev.mem = (s.dev.writeMem x.key x.pa (toBytes x.size x.val) 2 (s.dev.tctx n)).mem ∧
      (x.key = 0 → ∀ a, (a < x.pa ∨ x.pa + x.size ≤ a) → u.dev.mem.get a = s.dev.mem.get a)) ∧
    (s.tileAt n 0x22 w = true → exec (.get n) s = ends
      ((d.special n t (tiImm w)).2.setRd n t w (BitVec.ofNat 64 (d.special n t (tiImm w)).1))) ∧
    (s.tileAt n 0x23 w = true →
      (specOff (tiImm w) = none → exec (.put n) s = ends (d.retire n { t with live := (t.reg (tiRa w)).toNat % 2 ^ 48 }.step)) ∧
      (∀ o, specOff (tiImm w) = some o → exec (.put n) s = ends
        (({ d with regs := writeFields d.regs ((t.reg (tiRa w)).toNat % 2 ^ 32) (fieldsAt (tileOff n o)) }).retire n t.step))) ∧
    (s.tileAt n 0x40 w = true → t.resv = none →
      (t.convFinal = false → exec (.rsv n) s = ends (d.retire n { t with resv := some (outBits (tiX w)) }.step)) ∧
      (t.convFinal = true → exec (.rsv n) s = ends (d.waits n .rsv))) ∧
    (t.wait = .rsv → t.resv = none → t.convFinal = false → s.dev.tileRuns n = true →
      (s.onDev fun d => d.waits n .none).tileAt n 0x40 w = true → exec (.rsvGrant n) s = ends
        (((s.onDev fun d => d.waits n .none).fetched n).retire n { t with wait := .none, resv := some (outBits (tiX w)) }.step))

/-- Passes, conversions, waits, barriers and the end of a program (see R269, R299, R300, R310, R313, R328–R332, R334, R339), where CORE runs. -/
def Obligations.TileUnits : Prop :=
  ∀ (s : State) (n w m : Nat) (p : Pass) (c : Conv), s.coreRuns = true →
    let t := s.dev.tile n
    let d := s.fetched n
    let ends (d' : Dev) : Host.Outcome State Fault Refusal := .next (s.onDev fun _ => d')
    let ended := d.retire n { t with running := false, resv := none, wait := .none }
    (s.tileAt n 0x00 w = true → t.allDone = false → exec (.tileEnd n) s = ends (d.waits n .ending)) ∧
    (s.tileAt n 0x00 w = true → t.allDone = true → exec (.tileEnd n) s = ends
      (if (maskList 16 t.gang).all (fun k => ended.tileIdle k) then ended.runEnd (ended.tqueue n) t.gang else ended)) ∧
    (s.tileAt n 0x41 w = true → t.resv ≠ none → (t.mmaOf w).maskIn t.gang = some m → m &&& t.gang = m → m.testBit n = true →
      (t.mmaOf w).badArith = false → t.streamsOk n m (t.mmaOf w) = true → t.stores = [] → t.vstPending = false →
      (t.conv.any fun c => !c.final) = false → t.meetsConv n m (t.mmaOf w) = false →
      exec (.mma n) s = ends (d.setTile n { t with wait := .mma, mma := some (t.mmaOf w) })) ∧
    (∀ op, t.mma = some op → op.maskIn t.gang = some m → s.dev.tileRuns n = true →
      (maskList 16 m).all s.dev.arrived = true →
      (maskList 16 m).all (fun k => match (s.dev.tile k).mma with | some x => x.agrees op | none => false) = true →
      s.dev.mullionBad m = none → s.dev.feedUe m op = none →
      exec (.mmaRendezvous n) s = ends ((maskList 16 t.gang).foldl
        (fun d' k => d'.wr (F.MT_PASS_SEQ_SEQ k) (s.dev.rd (F.MT_PASS_SEQ_SEQ n) + 1))
        ((maskList 16 m).foldl (Dev.startPass s.dev m (s.dev.rd (F.MT_PASS_SEQ_SEQ n))) (s.dev.feedCorrect m op)))) ∧
    (t.passes.head? = some p → (s.dev.unpre (s.dev.tqueue n) = true ∨ (s.dev.queue (s.dev.tqueue n)).pre = .stop) →
      s.dev.is (F.CMD_TILE_LEASED n) = true → s.dev.drainUe p.mask = none →
      exec (.passDrainComplete n) s = ends ((maskList 16 p.mask).foldl (fun d k => d.drainTile k) s.dev)) ∧
    (s.tileAt n 0x48 w = true → (t.stores ≠ [] ∨ t.vstPending = true ∨ t.conv ≠ none) → exec (.convert n) s = ends (d.waits n .other)) ∧
    (∀ r, s.tileAt n 0x48 w = true → t.stores = [] → t.vstPending = false → t.conv = none → t.resv = some r →
      let pb := (t.reg (tiRa w)).toNat
      let dst := (t.reg (tiRb w)).toNat
      let stride := bits (tiImm w) 0 24
      let b := d.mem.read (tileBase n + pb) 64
      let z := outBits (pbFmt b)
      let c : Conv := { pb := pb, mark := t.opseq, pblock := d.mem.read (tileBase n + pb) (pbSize b), dst := dst, rstride := stride,
                        final := tiX w == 1, started := false }
      pb % 64 = 0 → pb + 64 ≤ tileSize → pb + pbSize b ≤ tileSize → c.area.2 ≤ tileSize → pbOk b = true → z ≤ r →
      dst % max 1 (z / 8) = 0 → 64 * z ≤ stride * 8 → stride % max 1 (z / 8) = 0 → d.badGran (tileBase n + pb) 64 = none →
      d.badGran (tileBase n + pb) (pbSize b) = none →
      exec (.convert n) s = ends (((d.correct (tileBase n + pb) (pbSize b)).retire n
        { t with conv := some c, resv := if c.final then none else t.resv, opseq := t.opseq + 1 }.step).wr (F.MT_CONV_BUSY n) 1)) ∧
    (t.conv = some c → s.dev.unitsRun n = true → t.passes = [] → c.started = false → exec (.convertStart n) s =
      ends (s.dev.setTile n { t with conv := some { c with started := true } })) ∧
    (t.conv = some c → s.dev.unitsRun n = true → c.started = true → t.quireBad = none → exec (.convertComplete n) s = ends (
      let os := t.outputs c.pblock
      let e := s.dev.quireCorrect n
      let e := (e.setTile n { e.tile n with conv := none }).wr (F.MT_CONV_BUSY n) 0
      let e := (e.putRows n (e.tctx n) (pbFmt c.pblock) c.dst c.rstride os).putRmax n c.pblock os
      e.raiseFlags n (e.rd (F.MT_QSEQ_SEQ n)) (os.map fun o => (o.1, o.2.causes)))) ∧
    (s.tileAt n 0x60 w = true → t.unitsDone (tiX w) = true → exec (.twait n) s = ends (d.retire n t.step)) ∧
    (s.tileAt n 0x60 w = true → t.unitsDone (tiX w) = false → exec (.twait n) s = ends (d.waits n .twait)) ∧
    (t.wait = .twait → t.unitsDone (tiX w) = true → s.dev.tileRuns n = true → (s.onDev fun d => d.waits n .none).tileAt n 0x60 w = true →
      exec (.twaitSatisfied n) s = ends (((s.onDev fun d => d.waits n .none).fetched n).retire n { t with wait := .none }.step)) ∧
    (s.tileAt n 0x61 w = true → (if tiImm w = 0 then t.gang else tiImm w) = m → m &&& t.gang = m → m.testBit n = true →
      exec (.gbar n) s = ends (d.setTile n { t with wait := .gbar, bar := m })) ∧
    (t.wait = .gbar → s.dev.tileRuns n = true → s.dev.barFull t.bar = true → exec (.gbarRelease n) s = ends
      ((maskList 16 t.bar).foldl (fun d k => d.retire k { d.tile k with bar := 0 }.step) s.dev)) ∧
    (((maskList 16 t.gang).find? fun k => (s.dev.tile k).running) = some m → s.dev.tileRuns m = true →
      (maskList 16 t.gang).all (fun j => !(s.dev.tile j).running || s.dev.stuck j) = true →
      exec (.rendezvousDeadlock n) s = ends (s.dev.illegal m 0xC)) ∧
    (s.tileAt n 0x50 w = true → vopRefused (tiImm w) (t.reg (tiRa w)) (t.reg (tiRb w)) = false → t.stores = [] → t.vq.length < 8 →
      exec (.vop n) s = ends (d.retire n { t with
        vq := t.vq ++ [({ w := BitVec.ofNat 32 (tiImm w), ra := t.reg (tiRa w), rb := t.reg (tiRb w), rc := t.reg (tiRd w), seq := t.opseq,
                          n := t.vops } : VOp)],
        opseq := t.opseq + 1, vops := t.vops + 1 }.step))

/-! ### Vector unit (chapter 15) -/

/-- The vector operation at the front of a tile's queue: it ends, with its result in the lanes it selects and its causes raised
(see R340–R359). A VLD or VST that no CONVERT holds back moves its elements when the compute side may access them. -/
def Obligations.VectorOperations : Prop :=
  ∀ (s : State) (n : Nat) (o : VOp),
    let t := s.dev.tile n
    let w := o.w.toNat
    let z := vfSize (voF w)
    let es := t.elements n o
    let m := extremum true false ((t.lanes w).map fun l => t.lane (voD w) l)
    let lanes (i : Instr) (op : Nat) (f : Nat → VR) : Prop := s.vecAt n op o = true → exec i s = .next (s.onDev fun d =>
      d.vdone n (t.mapLanes w f).1 o (t.mapLanes w f).2)
    let two (i : Instr) (op : Nat) (f : Nat → Nat → VR) : Prop := lanes i op fun l => f (t.lane (voA w) l) (t.srcB o l)
    let sign (i : Instr) (aux : Nat) (g : Bool → Bool → Bool) : Prop := voAux w = aux → lanes i 0x10 fun l =>
      (t.lane (voA w) l % 2 ^ 31 + (if g ((t.lane (voA w) l).testBit 31) ((t.srcB o l).testBit 31) then 2 ^ 31 else 0), 0)
    let sf (i : Instr) (aux : Nat) : Prop := voAux w = aux → lanes i 0x14 fun l => Machine.special aux (t.lane (voA w) l) (t.srcB o l)
    let red (i : Instr) (aux : Nat) (f : List Nat → VR) : Prop := voAux w = aux → s.vecAt n 0x18 o = true →
      exec i s = .next (s.onDev fun d => d.vdone n (t.fill (voD w) (f ((t.lanes w).map fun l => t.lane (voA w) l)).1) o
        (if (f ((t.lanes w).map fun l => t.lane (voA w) l)).2 = 0 then [] else [(0, (f ((t.lanes w).map fun l => t.lane (voA w) l)).2)]))
    (s.vecAt n 0x00 o = true → exec (.vnop n) s = .next (s.onDev fun d => d.vdone n t o [])) ∧
    lanes (.vmov n) 0x03 (fun l => (t.srcB o l, 0)) ∧
    ((t.conv.any fun c => decide (c.mark < o.seq)) = false → lanes (.vgetr n) 0x04 fun l => (s.dev.rd (F.MT_RMAX_VALUE n l), 0)) ∧
    lanes (.vflags n) 0x05 (fun l => (if l = 0 then s.dev.rd (F.VU_FLAGS_CAUSES n) else 0, 0)) ∧
    two (.vadd n) 0x08 vadd ∧ two (.vsub n) 0x09 vsub ∧ two (.vmul n) 0x0A vmul ∧
    lanes (.vfma n) 0x0B (fun l => vfma (t.lane (voA w) l) (t.srcB o l) (t.lane (voD w) l)) ∧
    two (.vmax n) 0x0C (vmaxmin true false) ∧ two (.vmin n) 0x0D (vmaxmin false false) ∧ two (.vmaxnum n) 0x0E (vmaxmin true true) ∧
    two (.vminnum n) 0x0F (vmaxmin false true) ∧
    sign (.vsgnAbs n) 0 (fun _ _ => false) ∧ sign (.vsgnNeg n) 1 (fun a _ => !a) ∧ sign (.vsgnCopysign n) 2 (fun _ b => b) ∧
    (s.vecAt n 0x11 o = true → exec (.vcmp n) s = .next (s.onDev fun d =>
      let rs := (t.lanes w).map fun l => (l, vcmp (voAux w) (t.lane (voA w) l) (t.srcB o l))
      d.vdone n (rs.foldl (fun (t : Tile) r => t.setKbit (voD w % 8) r.1 r.2.1) t) o
        ((rs.map fun r => (r.1, r.2.2)).filter fun x => x.2 != 0))) ∧
    lanes (.vsel n) 0x12 (fun l => (if (t.kreg (voB w % 8)).testBit l then t.lane (voA w) l else t.lane (voD w) l, 0)) ∧
    sf (.exp n) 0 ∧ sf (.exp2 n) 1 ∧ sf (.log n) 2 ∧ sf (.log2 n) 3 ∧ sf (.rcp n) 4 ∧ sf (.rsqrt n) 5 ∧ sf (.sqrt n) 6 ∧ sf (.div n) 7 ∧
    sf (.tanh n) 8 ∧ sf (.sigmoid n) 9 ∧ sf (.erf n) 10 ∧ sf (.gelu n) 11 ∧
    red (.redSum n) 0 sumMany ∧ red (.redMax n) 1 (extremum true false) ∧ red (.redMin n) 2 (extremum false false) ∧
    red (.redMaxnum n) 3 (extremum true true) ∧ red (.redMinnum n) 4 (extremum false true) ∧
    (s.vecAt n 0x20 o = true → exec (.vsmx1 n) s = .next (s.onDev fun d =>
      let r := (t.lanes w).foldl (fun (x : Tile × List (Nat × Nat)) l =>
        let y := smx1 (t.lane (voD w) l) (t.lane (voD w + 1) l) (t.lane (voA w) l)
        ((x.1.setLane (voD w) l y.1).setLane (voD w + 1) l y.2.1, if y.2.2 = 0 then x.2 else x.2 ++ [(l, y.2.2)])) (t, [])
      d.vdone n r.1 o r.2)) ∧
    (s.vecAt n 0x21 o = true → veq m.1 negInf = true → exec (.vsmxm n) s = .next (s.onDev fun d =>
      d.vdone n ((t.fill (voD w) m.1).fill (voD w + 1) 0) o (if m.2 = 0 then [] else [(0, m.2)]))) ∧
    (s.vecAt n 0x21 o = true → veq m.1 negInf = false → exec (.vsmxm n) s = .next (s.onDev fun d =>
      let ps := ((t.lanes w).filter fun l => !veq (t.lane (voD w) l) negInf).map fun l =>
        let a := vsub (t.lane (voD w) l) m.1
        let e := Machine.special 0 a.1 0
        let p := vmul (t.lane (voD w + 1) l) e.1
        (p.1, a.2 ||| e.2 ||| p.2)
      let x := sumMany (ps.map (·.1))
      let c := ps.foldl (fun c p => c ||| p.2) (m.2 ||| x.2)
      d.vdone n ((t.fill (voD w) m.1).fill (voD w + 1) x.1) o (if c = 0 then [] else [(0, c)]))) ∧
    lanes (.vsmx2 n) 0x22 (fun l =>
      let a := vsub (t.lane (voA w) l) (t.lane (voB w) l)
      let e := Machine.special 0 a.1 0
      let r := vdiv e.1 (t.lane (voB w + 1) l)
      (r.1, a.2 ||| e.2 ||| r.2)) ∧
    (s.vecAt n 0x24 o = true → exec (.vwel1 n) s =
      .next (s.onDev fun d => d.groupOp n 0x24 fun t w l => wel1 (t.grp (voD w) l) (t.lane (voA w) l))) ∧
    (s.vecAt n 0x25 o = true → exec (.vwelc n) s =
      .next (s.onDev fun d => d.groupOp n 0x25 fun t w l => chan (t.grp (voD w) l) (t.grp (voB w) l))) ∧
    (s.vecAt n 0x26 o = true → exec (.vwelm n) s = .next (s.onDev fun d =>
      let gs : List Grp := (List.range 64).map fun l => if (t.kreg (voK w)).testBit l then t.grp (voD w) l else (0, 0, 0)
      let x := [32, 16, 8, 4, 2, 1].foldl (fun x k => chanLevel k x) (gs, 0)
      d.vdone n ((List.range 64).foldl (fun (t : Tile) l => t.setGrp (voD w) l (x.1.headD (0, 0, 0))) t) o
        (if x.2 = 0 then [] else [(0, x.2)]))) ∧
    (s.vecAt n 0x01 o = true → (t.conv.any fun c => es.any (elementMeets n z c.area)) = false → s.dev.elementBad n z false es = none →
      (es.findSome? fun e => s.dev.badGran e.2 z) = none → exec (.vld n) s = .next (s.onDev fun d =>
        let r := t.mapLanes w fun l =>
          let a := (es.lookup l).getD 0
          vload (voF w) (ofBytes (d.readMem (d.elementKey n a z false) a z))
        (es.foldl (fun d e => d.correct e.2 z) d).vdone n r.1 o r.2)) ∧
    (s.vecAt n 0x02 o = true →
      (t.conv.any fun c => es.any fun e => elementMeets n z c.area e || elementMeets n z (c.pb, c.pb + pbSize c.pblock) e) = false →
      s.dev.elementBad n z true es = none → exec (.vst n) s = .next (s.onDev fun d =>
        (d.putElements n z (voF w) (voA w) t es).vdone n
          { t with passes := t.passes.map fun p => es.foldl (fun p e => p.feed n e.2 z) p } o
          ((es.map fun e => (e.1, (vstore (voF w) (t.lane (voA w) e.1)).2)).filter fun x => x.2 != 0)))

/-! ### Timebase and verdict port (chapter 17) -/

/-- The events of the timebase and the verdict port (see R386–R409), where PERI runs: time goes on to the moment of the event, and then its effect. What R405
puts before a verdict write, an alarm or a WAIT_POSITION and is due has taken effect first.
The levels of the verdict port's balls change whether or not it runs. -/
def Obligations.TimebaseEvents : Prop :=
  ∀ (s : State) (t v slot q g : Nat) (req : Requester) (a : Alarm) (x : Nat) (up cs oe : Bool),
    let d' := s.dev.tbTo t
    let g' := d'.gatesDue
    let v' := g'.verdictsDue
    let w' := v'.alarmsDue
    let b (d : Dev) : State := { s with dev := d }
    (∃ u, exec (.vpReadCycle v cs oe) s = .next u ∧ u.dev.vp.a = v % 1024 ∧ u.dev.vp.csN = cs ∧ u.dev.vp.oeN = oe ∧
      u.dev.vp.capturing = s.periRuns ∧ u.dev.tb = s.dev.tb ∧ u.dev.regs = s.dev.regs ∧ u.aon = s.aon) ∧
    (s.periRuns = true →
      (s.dev.tbOn 0 = true → exec (.quadEdge t .up) s = .next (b (d'.edge 1)) ∧ exec (.quadEdge t .down) s = .next (b (d'.edge (-1))) ∧
        exec (.quadEdge t .illegal) s = .next (b d'.quadError)) ∧
      (s.dev.tbOn 1 = true → exec (.pulseEdge t) s = .next (b (d'.edge (s.dev.rd F.TB_PULSECNT_COUNTS)))) ∧
      (s.dev.tbOn 2 = true → (∀ e, d'.tb.edges.head? = some e → e + 15300000 ≤ d'.tb.now) →
        exec (.mainsEdge t) s = .next (b (d'.edge 65536))) ∧
      (s.dev.tbOn 0 = true ∨ s.dev.tbOn 1 = true → s.dev.is F.TB_CFG_RECOV_REF = true → d'.qual = 3 → d'.tb.awaitRef = true →
        exec (.indexEdge t) s = .next (b (d'.reference (nearestPos d'.tb.p (max 1 (d'.rd F.TB_ZPERIOD_PERIOD))
          (d'.rd F.TB_ZPHASE_PHASE % max 1 (d'.rd F.TB_ZPERIOD_PERIOD)))))) ∧
      (d'.canLose = true → d'.overdue = true → exec (.sourceLoss t) s = .next (b d'.tbLoss)) ∧
      (d'.qual = 1 → d'.tb.tHold + 1000000 * d'.rd F.TB_HOLD_HOLDOVER_MAX ≤ d'.tb.now → exec (.holdoverExpire t) s = .next (b d'.enterLost)) ∧
      (d'.tb.mode = .slew up → (if up then d'.target ≤ d'.tb.p else d'.tb.p ≤ d'.target) → exec (.slewComplete t) s = .next (b d'.tbLock)) ∧
      (d'.tb.mode = .hold → d'.tb.p ≤ d'.target → exec (.holdbackEnd t) s = .next (b d'.tbLock)) ∧
      (fget v'.tb.alarms slot = some a → reached v'.tb.p a.pos = true → v'.qual ≠ 2 → exec (.alarmFire t slot) s =
        .next (b (({ v' with tb := { v'.tb with alarms := fdel v'.tb.alarms slot } }).fireAlarm a 0))) ∧
      (g'.qual ≠ 2 → exec (.verdictUpdate t) s = .next (b (({ g' with tb := { g'.tb with
        verdicts := g'.tb.verdicts.filter fun v => !reached g'.tb.p v.pos } }).fireVerdicts
        (g'.tb.verdicts.filter fun v => reached g'.tb.p v.pos) g'.verdictQual 0))) ∧
      (d'.qual ≠ 2 → g < 4 → exec (.gateEdge t g) s = .next (b (d'.gateStep g))) ∧
      (fget w'.tb.waits q = some x → reached w'.tb.p x = true → w'.qual ≠ 2 → exec (.waitPositionReached t q) s = .next (b (w'.endWait q 0))) ∧
      exec (.tbPulseStart t) s = .next (b d'.pulse) ∧
      (∃ u, exec (.tbPulseEnd t) s = .next u ∧ (∀ e ∈ u.dev.tb.pulseEnds, u.dev.tb.now < e) ∧ u.dev.regs = d'.regs ∧ u.aon = s.aon) ∧
      (s.dev.vp.capturing = true → ∃ u, exec .vpCapture s = .next u ∧ u.dev.vp.word = s.dev.rd (F.VP_TABLE_WORD s.dev.vp.a) ∧
        u.dev.vp.capturing = false ∧ u.dev.regs = s.dev.regs)) ∧
    (s.reaches req 0x900000 = true → d'.is F.TB_CTRL_LOCK = false →
      (d'.is F.TB_CTRL_EN = false → v < 8 → v % 2 = 0 → exec (.tbEnWrite t req v) s = .next (b (d'.wr F.TB_CTRL_SRC (v / 2)))) ∧
      (d'.is F.TB_CTRL_EN = false → v < 8 → v % 2 = 1 → exec (.tbEnWrite t req v) s = .next (b (d'.wr F.TB_CTRL_SRC (v / 2)).tbEnable)) ∧
      (d'.is F.TB_CTRL_EN = true → v < 8 → v % 2 = 1 → exec (.tbEnWrite t req v) s = .next (b d')) ∧
      (d'.is F.TB_CTRL_EN = true → v < 8 → v % 2 = 0 → exec (.tbEnWrite t req v) s = .next (b
        (d'.wrs [(F.TB_CTRL_EN, 0), (F.TB_CTRL_SRC, d'.rd F.TB_CTRL_SRC), (F.TB_STATUS_ACQUIRED, 0)]).enterLost))) ∧
    (s.reaches req 0x900038 = true → d'.tbOn 3 = true → d'.is F.TB_CTRL_LOCK = false → v ≤ 2 ^ 63 →
      exec (.hostStep t req v) s = .next (b (d'.stepPos .host (d'.tb.p + v)))) ∧
    (s.reaches req 0x900100 = true → s.dev.is F.TB_CTRL_LOCK = false → ∃ u, exec (.verdictClear req) s = .next u ∧
      (∀ i, i < 1024 → u.dev.rd (F.VP_TABLE_WORD i) = 0) ∧ u.dev.tb = s.dev.tb ∧ u.aon = s.aon)

/-! ### Card slot, cartridge bus, media (chapters 18 to 20) -/

/-- The card slot (see R414–R435), where PERI runs: detection, supply, activation and T=1; and its commands, which act where the requester may use the
slot and its state allows them, and end REFUSED or BAD_STATE where not. -/
def Obligations.CardSlot : Prop :=
  ∀ (s : State) (req : Requester) (lv ok : Bool) (bs : List Byte),
    let on (op : Nat) : Dev := s.dev.wrs [(F.CRD_CMD_OP, op), (F.CRD_CMD_BUSY, 1)]
    let b (d : Dev) : Host.Outcome State Fault Refusal := .next { s with dev := d }
    let cmd (i : Instr) (op : Nat) : Prop := s.reaches req 0xA00044 = true → s.dev.is F.CRD_CMD_BUSY = false →
      (s.dev.owned req = true → exec i s = b ((on op).crdDone 12)) ∧
      (s.dev.owned req = false → s.dev.crdAllowed op = false → exec i s = b ((on op).crdDone 13)) ∧
      (s.dev.owned req = false → s.dev.crdAllowed op = true → (2 ≤ op → s.dev.t1Waiting = false ∧ s.dev.rd F.CBP_STATUS_STATE ≠ 1) →
        exec i s = b ((on op).crdRun op).kick)
    let n := bytesAt bs 2 1
    let inf := (bs.take (3 + n)).drop 3
    let whole : Prop := bs.length = 3 + n + (if s.dev.is F.CRD_PARAM2_EDC then 2 else 1) ∧
      bs.drop (3 + n) = s.dev.t1Edc (bs.take (3 + n)) ∧ bytesAt bs 0 1 = 0 ∧ n ≤ s.dev.rd F.CRD_T1_IFSD
    cmd (.activate req) 0 ∧ cmd (.deactivate req) 1 ∧ cmd (.warmReset req) 2 ∧ cmd (.exchange req) 3 ∧ cmd (.keyLoad req) 4 ∧
    cmd (.clockStop req) 5 ∧ cmd (.clockRestart req) 6 ∧
    (∃ t, exec (.cardDetEdge lv) s = .next t ∧ t.dev.card.det = lv ∧ t.aon = s.aon ∧
      (s.periRuns = true → s.crdOn = true → t.dev.rd F.CRD_STATUS_DET = if lv then 1 else 0)) ∧
    (s.periRuns = true →
      (s.crdOn = true → s.dev.detPresent s.dev.card.det = true → s.dev.is F.CRD_STATUS_PRESENT = false →
        exec .cardInserted s = b (
          let d := s.dev
          let d := (((d.onCard fun c => { c with debouncing := false }).wrs [(F.CRD_STATUS_PRESENT, 1), (F.CRD_STATUS_STATE, 1),
            (F.CRD_STATUS_DET, if d.card.det then 1 else 0)]).irq 71).postInfo 37 0x1800 0
          let d := if d.rd F.BOOT_STANDING_STATE = 3 then d.standBegin else d
          (if d.is F.CRD_CFG_AUTO && d.slot == 1 then d.beginAct else d).kick)) ∧
      (s.crdOn = true → s.dev.detPresent s.dev.card.det = false → s.dev.is F.CRD_STATUS_PRESENT = true →
        exec .cardRemoved s = b (((((s.dev.wr F.CRD_STATUS_PRESENT 0).sat F.CRD_CNT_REMOVALS).irq 71).postInfo 37 0x1801
          s.dev.slot).deact 2 2 false true).kick) ∧
      (s.crdOn = true → exec .cardOvercurrent s = b ((((s.dev.sat F.CRD_CNT_OC).wr F.CRD_STATUS_OC 1).postInfo 37 0x1802
        s.dev.slot).deact 8 4 true true).kick) ∧
      (s.dev.card.step = .setup → s.crdOn = true → ∃ t, exec .activationTimer s = .next t ∧ t.dev.card.vccEn = true ∧
        t.dev.card.step = .settle) ∧
      (s.dev.card.step = .settle → ∃ t, exec .activationTimer s = .next t ∧ t.dev.card.step = .vccCheck) ∧
      (s.dev.card.step = .clkStart → ∃ t, exec .activationTimer s = .next t ∧ t.dev.card.clk = true ∧ t.dev.card.step = .rstLow) ∧
      (s.dev.card.step = .rstLow → ∃ t, exec .activationTimer s = .next t ∧ t.dev.card.c2 = true ∧ t.dev.card.step = .awaitTs) ∧
      (s.dev.card.step = .awaitTs → exec .atrTimeout s = b (s.dev.attemptFail 3).kick ∧
        exec .atrCharacterTimeout s = b (s.dev.attemptFail 4).kick ∧ exec (.atrReceived bs ok) s = b (s.dev.atr bs ok).kick) ∧
      (s.dev.card.step = .pps → exec .ppsTimeout s = b s.dev.ppsFail ∧
        (bs = s.dev.card.t1.last → exec (.ppsResponse bs) s = b ((s.dev.fixParams (bytesAt bs 2 1)).wr F.CRD_STATUS_PPS_DONE 1).afterPps.kick) ∧
        (bs ≠ s.dev.card.t1.last → exec (.ppsResponse bs) s = b s.dev.ppsFail)) ∧
      (s.dev.t1Waiting = true → exec .t1Timeout s = b (s.dev.t1Bad 2).kick ∧ exec (.t1BlockReceived bs false) s = b (s.dev.t1Bad 1).kick ∧
        (whole → bytesAt bs 1 1 < 0x80 → exec (.t1BlockReceived bs true) s = b (s.dev.t1I (bytesAt bs 1 1) inf).kick) ∧
        (whole → 0x80 ≤ bytesAt bs 1 1 → bytesAt bs 1 1 < 0xC0 → n = 0 → exec (.t1BlockReceived bs true) s =
          b (s.dev.t1R (bytesAt bs 1 1)).kick) ∧
        (whole → 0xC0 ≤ bytesAt bs 1 1 → exec (.t1BlockReceived bs true) s = b (s.dev.t1S (bytesAt bs 1 1) inf).kick)) ∧
      (s.dev.card.clkStop = true → s.dev.slot = 3 → ∃ t, exec .clockStopped s = .next t ∧ t.dev.card.clkStop = false ∧
        t.dev.card.clk = (s.dev.rd F.CRD_PARAM2_XI == 2) ∧ t.dev.rd F.CRD_STATUS_STATE = 4 ∧ t.aon = s.aon))

/-- The cartridge bus (see R436–R455): its commands, where the requester may use the slot; and, where PERI runs, the switch to the wide bus, frames,
sleep and time-outs. CRD_DIR follows the owner of the bus (R440). -/
def Obligations.CartridgeBus : Prop :=
  ∀ (s : State) (req : Requester) (m pcb : Nat) (fr inf : List Byte),
    let on (op : Nat) : Dev := s.dev.wrs [(F.CBP_CMD_OP, op), (F.CBP_CMD_BUSY, 1)]
    let b (d : Dev) : Host.Outcome State Fault Refusal := .next { s with dev := d }
    (s.reaches req 0xA02014 = true → s.dev.is F.CBP_CMD_BUSY = false →
      (s.dev.owned req = true → exec (.enterWide req) s = b ((on 0).cbpDone 8) ∧ exec (.cbpSleep req) s = b ((on 1).cbpDone 8) ∧
        exec (.cbpWake req) s = b ((on 2).cbpDone 8) ∧ exec (.raw req) s = b ((on 3).cbpDone 8)) ∧
      (s.dev.owned req = false → (s.dev.slot = 3 ∨ s.dev.slot = 4) → s.dev.card.t1.job = .none → s.dev.rd F.CBP_STATUS_STATE = 0 →
        exec (.enterWide req) s = b ((on 0).wideRequest (s.dev.rd F.CBP_CFG_RATE))) ∧
      (s.dev.owned req = false → s.dev.slot = 5 → s.dev.cbpIdle = true → exec (.cbpSleep req) s = b ((on 1).hostOpStart 1) ∧
        exec (.raw req) s = b ((on 3).hostOpStart 3)) ∧
      (s.dev.owned req = false → s.dev.slot = 5 → s.dev.cbpIdle = false →
        exec (.cbpSleep req) s = b ((on 1).onCbp fun c => { c with hostOp := some 1 }) ∧
        exec (.raw req) s = b ((on 3).onCbp fun c => { c with hostOp := some 3 })) ∧
      (s.dev.owned req = false → s.dev.slot = 5 → s.dev.cbpIdle = true → s.dev.rd F.CBP_STATUS_STATE = 4 →
        exec (.cbpWake req) s = b (on 2).wakeStart)) ∧
    (s.periRuns = true →
      (s.dev.cbp.wideStep = 1 → ∃ t, exec .wideSwitchTimer s = .next t ∧ t.dev.cbp.wideStep = 2 ∧ t.dev.card.clk = false ∧
        t.dev.card.dir = false ∧ t.dev.card.data = 0xF ∧ t.aon = s.aon) ∧
      (s.dev.cbp.wideStep = 2 → ∃ t, exec .wideSwitchTimer s = .next t ∧ t.dev.cbp.wideStep = 3 ∧ t.dev.card.clk = true ∧
        t.dev.rd F.CBP_STATUS_RATE = s.dev.cbp.tryRate % 4) ∧
      (s.dev.cbpWaiting = true → parseFrame fr = some (pcb, inf) → pcb < 0x80 → exec (.iFrameReceived fr) s = b (s.dev.cbpIn.cbpI pcb inf).kick) ∧
      (s.dev.cbpWaiting = true → parseFrame fr = some (pcb, []) → pcb / 64 = 2 → exec (.rFrameReceived fr) s = b (s.dev.cbpIn.cbpR pcb).kick) ∧
      (s.dev.cbpWaiting = true → parseFrame fr = none → exec (.iFrameReceived fr) s = b (s.dev.cbpIn.frameBad 1).kick ∧
        exec (.rFrameReceived fr) s = b (s.dev.cbpIn.frameBad 1).kick) ∧
      (s.dev.cbpWaiting = true → 0 < m → m < 256 → s.dev.cbp.awaitResynch = false → ∃ t, exec (.wtxRequest m) s = .next t ∧
        t.dev.cbp.wtx = m ∧ t.dev.card.dir = true ∧ t.dev.out = s.dev.out ++ [.cbp (mkFrame 0xE3 [BitVec.ofNat 8 m])]) ∧
      (s.dev.cbpWaiting = true → exec .frameWaitTimeout s = b (s.dev.cbpIn.frameBad 2).kick) ∧
      (s.dev.cbp.awaitResynch = true → s.dev.cbp.wakeReq = false → s.dev.cbp.sleepReq = false → exec .resynchResponse s = b
        (((((s.dev.cbpIn.onCbp fun x => { x with awaitResynch := false, bad := 0 }).wrs [(F.CBP_STATUS_NS_TX, 0),
          (F.CBP_STATUS_NS_RX, 0)]).sat F.CBP_CNT_RESYNCH).postInfo 37 0x1811 s.dev.cbp.code).cbpResume).kick) ∧
      (s.dev.slot = 5 → s.dev.rd F.CBP_CFG_SLEEP_IDLE ≠ 0 → s.dev.rd F.CBP_STATUS_STATE = 2 → s.dev.cbpIdle = true →
        s.dev.cbp.hostOp = none → s.dev.med.job = .none → exec .sleepIdleExpire s = b (s.dev.hostOpStart 1)) ∧
      (s.dev.cbp.sleepReq = true → s.dev.cbp.awaitResynch = false → exec .sleepResponse s = b
        (((((s.dev.onCard fun c => { c with clk := false, dir := false, data := 0xF }).onCbp fun c => { c with sleepReq := false }).wr
          F.CBP_STATUS_STATE 4).cbpOk 1).kick)) ∧
      (s.dev.cbp.wakeReq = true → s.dev.cbp.awaitResynch = false → exec .wakeResponse s = b s.dev.cbpIn.awake.kick))

/-- The media engine (see R456–R475): its commands, where the requester may use the slot (R433); and, where PERI runs, page operations and upkeep.
CARD_READ issues where CORE runs. -/
def Obligations.MediaEngine : Prop :=
  ∀ (s : State) (req : Requester) (q blk p pg e1 e2 e3 : Nat) (x : Desc) (raw : List Byte) (r : FlashResult) (ps : List Nat),
    let on (op : Nat) : Dev := s.dev.wrs [(F.MED_CMD_OP, op), (F.MED_CMD_BUSY, 1)]
    let go (op : Nat) : Dev := (on op).onMed fun m => { m with cmd := some op }
    let b (d : Dev) : Host.Outcome State Fault Refusal := .next { s with dev := d }
    (s.headAt q 0x40 x = true → dfld x 8 0 2 = 0 → exec (.cardReadRecipe q) s = b
      ((s.dev.issueMover q x).onMed fun m => { m with clients := m.clients ++ [.recipe q s.dev.issueSeq 0] }).kick) ∧
    (s.headAt q 0x40 x = true → dfld x 8 0 2 = 1 → exec (.cardReadPartition q) s = b
      ((s.dev.issueMover q x).onMed fun m => { m with clients := m.clients ++ [.partition q s.dev.issueSeq 0] }).kick) ∧
    (s.reaches req 0xA0400C = true → s.dev.is F.MED_CMD_BUSY = false →
      (s.dev.owned req = true → exec (.mount req) s = b ((on 0).medDone 8) ∧ exec (.unmount req) s = b ((on 1).medDone 8)) ∧
      (s.dev.owned req = false → s.dev.rd F.MED_STATUS_STATE ≠ 1 → s.dev.rd F.MED_STATUS_STATE ≠ 2 →
        exec (.mount req) s = b (go 0).mountBegin.kick) ∧
      (s.dev.owned req = false → s.dev.rd F.MED_STATUS_STATE = 2 → exec (.mount req) s = b ((on 0).medDone 0) ∧
        exec (.unmount req) s = b (((go 1).onMed fun m => { m with mapDue := m.mapDue || s.dev.is F.MED_STATUS_UNSAVED }).kick)) ∧
      (s.dev.rd F.MED_STATUS_STATE = 2 → exec (.flush req) s = b (go 2).kick ∧ exec (.append req) s = b (go 3).kick) ∧
      (s.dev.rd F.MED_STATUS_STATE ≠ 2 → exec (.flush req) s = b ((on 2).medDone 9) ∧ exec (.append req) s = b ((on 3).medDone 9))) ∧
    (s.periRuns = true →
      (s.dev.opGoing 2 = true → raw.length = 18432 → exec (.mediaPageReadDone raw) s = .next
        (({ s with dev := (s.dev.opTake.pageIn (s.dev.rawOf raw)).1.kick }).regsPut (s.dev.opTake.pageIn (s.dev.rawOf raw)).2.2
          (s.dev.opTake.pageIn (s.dev.rawOf raw)).2.1)) ∧
      (s.dev.opGoing 3 = true → exec (.mediaProgramDone r) s = b
        ((s.dev.opTake.onMed fun m => { m with job := .none }).progEnd s.dev.med.job (s.dev.flashEnd 2 r)).kick) ∧
      (s.dev.opGoing 4 = true → exec (.mediaEraseDone r) s = b
        ((s.dev.opTake.onMed fun m => { m with job := .none }).eraseEnd s.dev.med.job (s.dev.flashEnd 3 r)).kick) ∧
      (s.dev.isMounted = true → s.dev.rd F.MED_CFG_PATROL_H ≠ 0 → exec .patrolRead s = b
        (s.dev.onMed fun m => { m with patrolDue := true }).kick) ∧
      (s.dev.med.due = p :: ps → s.dev.isMounted = true → s.dev.med.job = .none → s.dev.med.next = .none → s.dev.med.remap = none →
        exec .refresh s = b (s.dev.refreshStart p).kick) ∧
      (s.dev.rd F.MED_CFG_LOG_FLUSH ≠ 0 → s.dev.med.logRecs ≠ [] → exec .logFlushExpire s = b
        (s.dev.onMed fun m => { m with logDue := true }).kick) ∧
      (s.dev.isMounted = true → s.dev.is F.MED_STATUS_LOG_READY = false →
        exec (.logHeadSearch blk pg 0 e2 e3) s = b ((s.dev.onMed fun m =>
          { m with logBlk := m.hdr.logL, logPage := 256, logSeq := 0, logErases := 0, logNext := none }).wr F.MED_STATUS_LOG_READY 1).kick ∧
        (e1 ≠ 0 → e2 ≤ s.dev.cartTime → exec (.logHeadSearch blk pg e1 e2 e3) s = b ((s.dev.onMed fun m =>
          { m with logBlk := blk, logPage := pg + 1, logSeq := e1, logErases := e3, logNext := none }).wr F.MED_STATUS_LOG_READY 1).kick)))

/-! ### Clasp and pair (chapters 21 and 22) -/

/-- Ports, flits, requests and barriers of the clasp (see R205–R207, R476–R493), where PERI runs; a barrier issues where CORE runs. A link comes up
while VDD_CLS_A is armed. -/
def Obligations.ClaspEvents : Prop :=
  ∀ (s : State) (req : Requester) (p rt wd v q tag bar hop pa key : Nat) (x : Desc) (m : ClaspMsg) (r : CReq) (fl : BitVec 256),
    let e := s.dev.bar (dfld x 8 0 8)
    let b (d : Dev) : Host.Outcome State Fault Refusal := .next { s with dev := d }
    let stray (l : List (Nat × Nat)) : List (Nat × Nat) := l.filter fun a => (dfld x 10 0 16).testBit a.1
    let w := s.dev.winRead m
    let k := m.arg % 256
    let gen := m.arg.testBit 8
    (p < 4 → s.reaches req (0xB00100 + 0x20 * p) = true → exec (.clsPortEnWrite p v req) s = b (s.dev.portCfg p v)) ∧
    (s.headAt q 0x50 x = true → (dfld x 10 0 16).testBit s.dev.chip = true → e.wait = none → e.owner = none ∨ e.owner = some (s.dev.qctx q) →
      (((maskList 16 (dfld x 10 0 16)).filter (· != s.dev.chip)).any fun c => s.dev.portDown c) = false →
      exec (.claspBarrier q) s = b (
        let t := s.dev.take q x
        ((((t.1.barStray (dfld x 8 0 8) (t.1.bar (dfld x 8 0 8)) (dfld x 10 0 16)).setBar (dfld x 8 0 8) { e with
          owner := some (s.dev.qctx q), wait := some (q, t.2.seq, dfld x 10 0 16),
          arr0 := if e.gen then e.arr0 else stray e.arr0, arr1 := if e.gen then stray e.arr1 else e.arr1 }).barSend 0x10 (dfld x 8 0 8) e.gen
            (dfld x 10 0 16) (t.1.qctx q)).barEval (dfld x 8 0 8)))) ∧
    (s.periRuns = true →
      (p < 4 → s.aon.armed 8 = true → (s.dev.portState p = 1 ∨ s.dev.portState p = 3) → v < 16 → (v == s.dev.chip) = false →
        rt ≤ s.dev.rd (F.CLS_PORT_CFG_MAXRATE p) → wd ≤ 1 → s.dev.rd (F.CLS_PORT_CFG_MINWIDTH p) ≤ wd → exec (.linkUp p rt wd v) s = b (
          let d := s.dev.wrs [(F.CLS_PORT_STAT_STATE p, 2), (F.CLS_PORT_STAT_RATE p, rt), (F.CLS_PORT_STAT_WIDTH p, wd),
            (F.CLS_PORT_STAT_PEER p, v), (F.CLS_PORT_STAT_REASON p, 0)]
          let d := if s.dev.portState p = 1 then d.postInfo (38 + p) 0x1900 (v + rt * 16 + wd * 32)
            else d.postInfo (38 + p) 0x1902 (d.rd (F.CLS_PORT_CNT_RETRAINS p))
          let d := ((d.setPort p { d.port p with replays := 0 }).resendAll p).portKick p
          if p = 3 && d.isPair then d.pairUp else d)) ∧
      (p < 4 → (s.dev.portState p = 1 ∨ s.dev.portState p = 3) → exec (.linkFailed p v) s = b (s.dev.portFail p v)) ∧
      (p < 4 → s.dev.portState p = 2 →
        (bits fl.toNat 224 32 ≠ (crc32 (toBytes 28 fl.toNat)).toNat →
          exec (.flitReceived p fl) s = b ((s.dev.sat (F.CLS_PORT_CRC_COUNT p)).idleSend p true none)) ∧
        (bits fl.toNat 224 32 = (crc32 (toBytes 28 fl.toNat)).toNat → bits fl.toNat 24 1 = 0 →
          (flitVc fl = 3 → exec (.flitReceived p fl) s = b (((s.dev.acked p (bits fl.toNat 12 12)).credited p fl).portKick p)) ∧
          (flitVc fl ≠ 3 → fl.toNat % 4096 = ((s.dev.port p).lastIn + 1) % 4096 → exec (.flitReceived p fl) s = b (
            let d := s.dev.acked p (bits fl.toNat 12 12)
            ((d.setPort p { d.port p with lastIn := fl.toNat % 4096 }).idleSend p false (some (flitPool fl))).portKick p))) ∧
        exec (.replayTimeout p) s = b (s.dev.replay p)) ∧
      ((m.dst == s.dev.chip) = false → s.dev.route m.dst = some p →
        (hop < 3 → exec (.messageForward hop m) s = b ((s.dev.bump (F.CLS_PORT_FWD_COUNT p)).sendOn p (hop + 1) m)) ∧
        (3 ≤ hop → exec (.messageForward hop m) s = b (s.dev.discardReq m))) ∧
      (m.dst = s.dev.chip →
        (m.data.length < 64 → w.window m m.data.length true = .inl (pa, key) → exec (.write m) s = b
          ((w.writeMem key pa m.data 0 (w.rd (F.MMU_WIN_CTL_CTX (bits m.offset 30 6)))).reply m 3 0 [])) ∧
        (m.data.length = 64 → w.window m 64 true = .inl (pa, key) → exec (.write m) s = b
          ((w.writeMem key pa (enabled (w.readMem key pa 64) m.data m.arg) 0 (w.rd (F.MMU_WIN_CTL_CTX (bits m.offset 30 6)))).reply m 3 0 [])) ∧
        (w.window m (m.len + 1) false = .inl (pa, key) → w.badGran pa (m.len + 1) = none → exec (.read m) s = b
          ((w.correct pa (m.len + 1)).reply m 4 0 (w.readMem key pa (m.len + 1)))) ∧
        (w.window m m.data.length true = .inr v → exec (.write m) s = b (w.rejectMsg m v)) ∧
        (w.window m (m.len + 1) false = .inr v → exec (.read m) s = b (w.rejectMsg m v))) ∧
      (s.dev.reqOf m = some r →
        (r.read = false → exec (.wack m) s = b ((s.dev.reqDone m.tag).replied r.q r.idx [])) ∧
        (r.read = true → r.live = true → exec (.rdata m) s = b ((s.dev.reqDone m.tag).replied r.q r.idx [(r.elem, m.data)])) ∧
        (r.read = true → r.live = false → exec (.rdata m) s = b (s.dev.reqDone m.tag)) ∧
        exec (.reject m) s = b ((s.dev.reqDone m.tag).kill { c := r.ctx, cause := 0xA, addr := r.addr })) ∧
      (fget s.dev.cls.reqs tag = some r → exec (.reqTimeout tag) s = b
        ((s.dev.reqDone tag).kill { c := r.ctx, cause := 0x18, addr := r.addr })) ∧
      (m.dst = s.dev.chip →
        ((s.dev.bar k).wait = none → exec (.arrive m) s = b (s.dev.setBar k ((s.dev.bar k).arrive gen m.src (bits m.arg 16 16)))) ∧
        (∀ n i ms, (s.dev.bar k).wait = some (n, i, ms) → ((s.dev.bar k).gen == gen) = false ∨ ms.testBit m.src = true →
          exec (.arrive m) s = b ((s.dev.setBar k ((s.dev.bar k).arrive gen m.src (bits m.arg 16 16))).barEval k)) ∧
        ((s.dev.bar k).wait ≠ none → (s.dev.bar k).gen = gen → exec (.abandon m) s = b (s.dev.barEnd k 1 (s.dev.bar k).abandoned))) ∧
      (∀ n i ms, (s.dev.bar bar).wait = some (q, n, ms) → s.dev.bySeq q n = some i → dfld i.d 12 0 32 ≠ 0 →
        exec (.barrierTimeout bar) s = b (s.dev.barStop bar 2)))

/-- The pair (see R495–R511): messages, roles, commits, switchover and sleep, where PERI runs; MIRROR_COMMIT issues where CORE runs, and PAIR_CMD acts
where its access reaches it. -/
def Obligations.PairEvents : Prop :=
  ∀ (s : State) (req : Requester) (role id gen st rc oc t k q w v n : Nat) (ld : Bool) (x : Desc) (bs : List Byte) (c : Commit) (i : Issued),
    let b (d : Dev) : Host.Outcome State Fault Refusal := .next { s with dev := d }
    let cmd (op : Nat) : Dev := s.dev.wrs [(F.PAIR_CMD_OP, op), (F.PAIR_CMD_BUSY, 1)]
    let me : Ident := { gen := gen, step := st, recipe := rc, ocrc := oc, loaded := ld }
    let acked := (s.dev.onPair fun p => { p with commit := none, dirty := [] }).wr F.PAIR_COMMIT_SEQ k
    let lost := s.dev.onPair fun p => { p with commit := none }
    (s.headAt q 0x51 x = true → s.dev.qctx q = 0 → ((maskList 64 (dfld x 16 0 64)).any fun j => s.dev.qctx j != 0) = false →
      s.dev.role = 2 → s.dev.pair.peerRole = 3 → s.dev.pairLink = true → s.dev.pair.commit = none → exec (.mirrorCommit q t) s = b
        (((s.dev.tbTo t).take q x).1.ship q ((s.dev.tbTo t).take q x).2.seq ((s.dev.tbTo t).capture (dfld x 8 0 3) (dfld x 16 0 64)))) ∧
    (s.reaches req 0xC00014 = true → s.dev.is F.PAIR_CMD_BUSY = false → s.dev.isPair = true →
      (s.dev.role = 2 → s.dev.is F.PAIR_STATUS_ASLEEP = false → s.dev.pair.peerRole = 3 → exec (.switchover req) s = b
        (((cmd 0).holdQueues true).onPair fun p => { p with switching := 1 })) ∧
      (s.dev.role = 2 ∨ s.dev.role = 3 → s.dev.is F.PAIR_STATUS_ASLEEP = false → s.dev.portState 3 = 2 → exec (.pairSleep req) s = b
        ((cmd 1).pairSend 0x28 0 [])) ∧
      (s.dev.is F.PAIR_STATUS_ASLEEP = true → ∃ u, exec (.pairWake req) s = .next u ∧ u.dev.pair.wakePending = true ∧
        u.dev.rd F.PAIR_STATUS_ASLEEP = 0 ∧ u.dev.rd (F.CLS_PORT_STAT_STATE 3) = 3)) ∧
    (s.periRuns = true →
      (s.dev.isPair = true → s.dev.role ≠ 4 → exec (.hello role id gen st rc oc ld) s = b
        ((((s.dev.onPair fun p => { p with peer := some me }).wrs ((F.PAIR_STATUS_PARTNER_ID, id) ::
          (List.range 4).map fun j => (F.PAIR_PEER_DATA j, bytesAt me.bytes (4 * j) 4))).resolve role id me).wakeDone)) ∧
      (s.dev.isPair = true → s.dev.role = 3 → s.dev.is F.PAIR_STATUS_ASLEEP = false → s.dev.pair.wakePending = false →
        ∃ u, exec (.heartbeat role k) s = .next u ∧ u.dev.pair.peerRole = role ∧ u.dev.rd F.PAIR_STATUS_PARTNER_UP = 1 ∧
          u.dev.rd F.PAIR_STATUS_PARTNER_LOST = 0) ∧
      (s.dev.isPair = true → s.dev.role = 2 → s.dev.is F.PAIR_STATUS_ASLEEP = false → exec (.heartbeat 2 k) s = b
        ((s.dev.wrs [(F.PAIR_STATUS_PARTNER_UP, 1), (F.PAIR_STATUS_PARTNER_LOST, 0)]).split (s.dev.rd F.PAIR_STATUS_PARTNER_ID))) ∧
      (s.dev.pairLink = true → s.dev.role ≠ 4 → exec .heartbeatSend s = b
        (s.dev.pairSend 0x21 (s.dev.role + s.dev.rd F.PAIR_COMMIT_SEQ * 2 ^ 32) [])) ∧
      (s.dev.role = 3 → s.dev.is F.PAIR_CFG_AUTO = true → s.dev.is F.PAIR_STATUS_ASLEEP = false → ∃ u, exec (.takeover t) s = .next u ∧
        u.dev.pair.peerRole = 1 ∧ u.dev.rd F.PAIR_STATUS_ROLE = 2 ∧ u.aon = s.aon) ∧
      (s.dev.role = 2 → s.dev.is F.PAIR_STATUS_ASLEEP = false → s.dev.is F.PAIR_STATUS_PARTNER_LOST = false →
        ∃ u, exec .partnerLost s = .next u ∧ u.dev.pair.peerRole = 1 ∧ u.dev.rd F.PAIR_STATUS_PARTNER_LOST = 1) ∧
      (s.dev.role = 1 → (s.dev.rd F.BOOT_STATUS_STAGE = 7 ∨ s.dev.rd F.BOOT_STATUS_STAGE = 8) → s.dev.portState 3 ≠ 2 →
        exec .aloneExpire s = b (s.dev.setRole 2)) ∧
      (s.dev.role = 3 → exec (.mirror k q bs) s = b (s.dev.onPair fun p =>
        { p with stagedSeq := k, staged := fset (if p.stagedSeq = k then p.staged else []) q bs })) ∧
      (s.dev.role = 3 → s.dev.pair.stagedSeq ≠ k → exec (.mirrorEnd t k w (v + 1)) s = b
        (s.dev.onPair fun p => { p with staged := [], stagedSeq := 0 })) ∧
      (s.dev.role = 3 → s.dev.pair.stagedSeq = k → (∀ j, j < v → fget s.dev.pair.staged j ≠ none) →
        Commit.ofParts k w ((List.range v).map fun j => (fget s.dev.pair.staged j).getD []) = some c →
        exec (.mirrorEnd t k w v) s = b (
          let d := ((s.dev.onPair fun p => { p with staged := [], stagedSeq := 0 }).tbTo t).wrs (c.words.map fun y => (F.VP_TABLE_WORD y.1, y.2))
          let d := if w.testBit 0 then d.wrs ((List.range 16).map fun j => (F.VP_BLOCK_EN j, if c.blocks.testBit j then 1 else 0)) else d
          let old := (d.pair.applied.map (·.ptrs)).getD []
          let d := d.onPair fun p => { p with applied := some { c with ptrs := if w.testBit 2 then c.ptrs else old } }
          let d := if w.testBit 1 then (d.driftStep c.p (signed 64 c.v)).1 else d
          (d.wr F.PAIR_COMMIT_SEQ k).pairSend 0x24 k [])) ∧
      (s.dev.pair.commit = some (q, n, c) → c.seq = k →
        (q < 64 → s.dev.bySeq q n = some i → exec (.mirrorAck k) s = b (acked.complete q i 0)) ∧
        (q = 64 → exec (.mirrorAck k) s = b acked) ∧
        (q = 65 → exec (.mirrorAck k) s = b (((acked.setRole 3).onPair fun p => { p with switching := 0, peerRole := 2 }).wrs
          [(F.PAIR_CMD_BUSY, 0), (F.PAIR_CMD_RESULT, 0)]))) ∧
      (s.dev.pair.commit = some (q, n, c) →
        (q < 64 → s.dev.bySeq q n = some i → exec .mirrorAckTimeout s = b (lost.complete q i 0xE)) ∧
        (q = 64 → exec .mirrorAckTimeout s = b lost) ∧
        (q = 65 → exec .mirrorAckTimeout s = b (((({ lost with tb := { lost.tb with driving := true } } : Dev).holdQueues false).onPair
          fun p => { p with switching := 0 }).wrs [(F.PAIR_CMD_BUSY, 0), (F.PAIR_CMD_RESULT, 3)]))) ∧
      (s.dev.pairLink = true → exec (.posReq t) s = b (((s.dev.tbTo t).onPair fun p => { p with posDone := p.wakePending }).pairSend
        0x26 0 (toBytes 8 (twos 64 (s.dev.tbTo t).tb.p) ++ toBytes 4 (twos 32 (s.dev.tbTo t).vel)))) ∧
      (s.dev.role = 3 → s.dev.pair.wakePending = false → exec (.pos t k w v) s = b ((s.dev.tbTo t).wr F.PAIR_STATUS_LAT (k / 2))) ∧
      (s.dev.role = 3 → s.dev.pairLink = true → exec .posExchangeTimer s = b (s.dev.pairSend 0x25 0 [])) ∧
      (s.dev.pair.switching = 1 → (List.range 4).any (fun g => (s.dev.gate g).any (·.active)) = false → s.dev.pair.commit = none →
        ∃ u, exec (.switchoverCapture t) s = .next u ∧ u.dev.pair.switching = 2 ∧ u.dev.tb.driving = false ∧ u.aon = s.aon) ∧
      (s.dev.role = 3 → s.dev.pair.applied = some c → c.seq = k → exec (.release t k) s = b
        (((s.dev.tbTo t).setRole 2).onPair fun p => { p with peerRole := 3 }).releaseQueues) ∧
      (s.dev.pairLink = true → s.dev.role = 2 ∨ s.dev.role = 3 → exec (.sleepMessage false) s = b
        (((s.dev.pairSend 0x28 1 []).onPair fun p => { p with dirtySleep := [] }).wr F.PAIR_STATUS_ASLEEP 1)))
end

