-- ==== Sys2Proof/Laws/Maps.lean ====
section
/-! SUPPORT. Sparse maps and register fields: what a read gives after an update. -/

namespace Sys2Proof.Machine

/-- Removing a key leaves no entry of it. -/
theorem fget_fdel_same {α : Type} (m : FMap α) (k : Nat) : fget (fdel m k) k = none := by
  induction m with
  | nil => rfl
  | cons p m ih =>
    unfold fget fdel at *
    by_cases h : p.1 = k
    · simp [h, ih]
    · have hb : (k == p.1) = false := by simp [Ne.symm h]
      simp [h, List.lookup, hb, ih]

/-- Removing a key leaves every other key alone. -/
theorem fget_fdel_ne {α : Type} (m : FMap α) {k j : Nat} (h : j ≠ k) : fget (fdel m k) j = fget m j := by
  induction m with
  | nil => rfl
  | cons p m ih =>
    unfold fget fdel at *
    by_cases hp : p.1 = k
    · have hb : (j == k) = false := by simp [h]
      simp [hp, List.lookup, hb, ih]
    · by_cases hj : j = p.1
      · subst hj; simp [hp, List.lookup]
      · have hb : (j == p.1) = false := by simp [hj]
        simp [hp, List.lookup, hb, ih]

/-- A placed entry is found. -/
theorem fget_finsert_same {α : Type} (m : FMap α) (k : Nat) (v : α) (h : fget m k = none) : fget (finsert k v m) k = some v := by
  induction m with
  | nil => simp [fget, finsert]
  | cons p m ih =>
    have hp : k ≠ p.1 := by
      intro e
      simp [fget, List.lookup, e] at h
    have hb : (k == p.1) = false := by simp [hp]
    have h' : fget m k = none := by simpa [fget, List.lookup, hb] using h
    unfold finsert
    by_cases hk : k < p.1
    · simp [hk, fget]
    · simp only [hk, if_false]
      have := ih h'
      simpa [fget, List.lookup, hb] using this

/-- Placing an entry leaves every other key alone. -/
theorem fget_finsert_ne {α : Type} (m : FMap α) {k j : Nat} (v : α) (h : j ≠ k) : fget (finsert k v m) j = fget m j := by
  have hb : (j == k) = false := by simp [h]
  induction m with
  | nil => simp [fget, finsert, List.lookup, hb]
  | cons p m ih =>
    unfold finsert
    by_cases hk : k < p.1
    · simp [hk, fget, List.lookup, hb]
    · simp only [hk, if_false]
      unfold fget at *
      simp only [List.lookup]
      split
      · rfl
      · exact ih

/-- A set key reads as set. -/
@[simp] theorem fget_fset_same {α : Type} (m : FMap α) (k : Nat) (v : α) : fget (fset m k v) k = some v :=
  fget_finsert_same _ _ _ (fget_fdel_same m k)

/-- Setting a key leaves every other key alone. -/
theorem fget_fset_ne {α : Type} (m : FMap α) {k j : Nat} (v : α) (h : j ≠ k) : fget (fset m k v) j = fget m j := by
  rw [fset, fget_finsert_ne _ _ h, fget_fdel_ne _ h]

/-- A written field reads as the low bits that fit it. -/
theorem rd_wr_same (m : FMap Nat) (f : Fld) (v : Nat) : rd (wr m f v) f = v % 2 ^ f.len := by
  unfold rd wr
  split
  · rename_i h; rw [fget_fdel_same]; simp [h]
  · rw [fget_finsert_same _ _ _ (fget_fdel_same m f.key)]; rfl

/-- Writing a field leaves every field of another key alone. -/
theorem rd_wr_ne (m : FMap Nat) {f g : Fld} (v : Nat) (h : g.key ≠ f.key) : rd (wr m f v) g = rd m g := by
  unfold rd wr
  split
  · rw [fget_fdel_ne _ h]
  · rw [fget_finsert_ne _ _ h, fget_fdel_ne _ h]

/-- A field written outside the always-on domain reads as written. -/
@[simp] theorem Dev.rd_wr_same (d : Dev) (f : Fld) (v : Nat) : (d.wr f v).rd f = v % 2 ^ f.len := Machine.rd_wr_same _ _ _
/-- Other fields stay. -/
theorem Dev.rd_wr_ne (d : Dev) {f g : Fld} (v : Nat) (h : g.key ≠ f.key) : (d.wr f v).rd g = d.rd g := Machine.rd_wr_ne _ _ h
/-- A field of the always-on domain reads as written. -/
@[simp] theorem Aon.rd_wr_same (a : Aon) (f : Fld) (v : Nat) : (a.wr f v).rd f = v % 2 ^ f.len := Machine.rd_wr_same _ _ _
/-- Other fields stay. -/
theorem Aon.rd_wr_ne (a : Aon) {f g : Fld} (v : Nat) (h : g.key ≠ f.key) : (a.wr f v).rd g = a.rd g := Machine.rd_wr_ne _ _ h

end Sys2Proof.Machine
end

