-- ==== Sys2Proof/Laws/Front.lean ====
section
/-! SUPPORT. What the shared operations answer when the command finds what it runs at the front: a descriptor at the head of its queue, an
instruction at a tile's PC, an operation at the front of a vector queue, an instruction of the sequencer. -/

namespace Sys2Proof.Machine

/-- Where the PERI domain runs, its events take their course. -/
@[simp] theorem State.inPeri_of_runs {s : State} (h : s.periRuns = true) (r : Res) : s.inPeri r = r := by simp [State.inPeri, h]
/-- Where the CORE domain runs, its events take their course. -/
@[simp] theorem State.inCore_of_runs {s : State} (h : s.coreRuns = true) (r : Res) : s.inCore r = r := by simp [State.inCore, h]
/-- A change that PERI blocks make, where they run. -/
@[simp] theorem State.nextPeri_of_runs {s : State} (h : s.periRuns = true) (f : Dev → Dev) : s.nextPeri f = .next (s.onDev f) := by
  simp [State.nextPeri, State.nextDev, h]
/-- A change that CORE blocks make, where they run. -/
@[simp] theorem State.nextCore_of_runs {s : State} (h : s.coreRuns = true) (f : Dev → Dev) : s.nextCore f = .next (s.onDev f) := by
  simp [State.nextCore, State.nextDev, h]
/-- A change that an always-on event brings about in PERI blocks, where they run. -/
@[simp] theorem State.onPeri_of_runs {s : State} (h : s.periRuns = true) (f : Dev → Dev) : s.onPeri f = s.onDev f := by
  simp [State.onPeri, h]
/-- Where CORE runs, PERI runs. -/
theorem State.periRuns_of_core {s : State} (h : s.coreRuns = true) : s.periRuns = true := by
  simp only [State.coreRuns, Bool.and_eq_true] at h
  exact h.1.1

/-- A command that is a register write has its effect where its access reaches the register. -/
theorem State.atReg_of_reaches {s : State} {req : Requester} {off : Nat} (h : s.reaches req off = true) (r : Res) :
    s.atReg req off r = r := by
  simp only [State.reaches, Bool.and_eq_true, Bool.not_eq_true'] at h
  obtain ⟨⟨h1, h2⟩, h3⟩ := h
  simp [State.atReg, h1, h2, h3]
/-- The same for one that changes only the part outside the always-on domain. -/
theorem State.devReg_of_reaches {s : State} {req : Requester} {off : Nat} (h : s.reaches req off = true) (f : Dev → Dev) :
    s.devReg req off f = .next (s.onDev f) := State.atReg_of_reaches h _

/-- What `headAt` says of the head descriptor. -/
theorem State.headAt_iff (s : State) (q op : Nat) (x : Desc) : s.headAt q op x = true ↔
    s.coreRuns = true ∧ ∃ l, (s.dev.queue q).fetched = x :: l ∧ dOp x = op ∧ s.dev.issueBlock q x = 0 ∧ s.dev.headStatus q x = 0 ∧
      s.dev.outranked q = false := by
  unfold State.headAt
  rcases (s.dev.queue q).fetched with _ | ⟨y, l⟩
  · simp
  · simp only [List.head?_cons, Bool.and_eq_true, beq_iff_eq, Option.some.injEq, List.cons.injEq, Bool.not_eq_true']
    constructor
    · rintro ⟨⟨⟨⟨⟨hc, rfl⟩, h2⟩, h3⟩, h4⟩, h5⟩
      exact ⟨hc, l, ⟨rfl, rfl⟩, h2, h3, h4, h5⟩
    · rintro ⟨hc, l', ⟨rfl, rfl⟩, h2, h3, h4, h5⟩
      exact ⟨⟨⟨⟨⟨hc, rfl⟩, h2⟩, h3⟩, h4⟩, h5⟩

/-- A head descriptor that nothing keeps from issuing is handed to the operation. -/
theorem Dev.onHead_of_headAt {s : State} {q op : Nat} {x : Desc} (h : s.headAt q op x = true) (f : Dev → Desc → Dev) :
    s.dev.onHead q op f = f s.dev x := by
  obtain ⟨-, l, h1, h2, h3, -, h5⟩ := (State.headAt_iff s q op x).mp h
  simp [Dev.onHead, Dev.head, h1, h2, h3, h5]

/-- The same with the format check, which it passes. -/
theorem Dev.goHead_of_headAt {s : State} {q op : Nat} {x : Desc} (h : s.headAt q op x = true) (f : Dev → Desc → Dev) :
    s.dev.goHead q op f = f s.dev x := by
  obtain ⟨-, l, h1, h2, h3, h4, h5⟩ := (State.headAt_iff s q op x).mp h
  simp [Dev.goHead, Dev.onHead, Dev.head, h1, h2, h3, h4, h5]

/-- An instruction that a tile stands at and can issue is handed to the operation, with the tile and the word. -/
theorem Dev.issue_of_tileAt {s : State} {n op w : Nat} (h : s.tileAt n op w = true) (f : Dev → Tile → Nat → Dev) :
    s.dev.issue n op f = f (s.fetched n) (s.dev.tile n) w := by
  simp only [State.tileAt, Bool.and_eq_true, beq_iff_eq, decide_eq_true_eq, Option.isNone_iff_eq_none] at h
  obtain ⟨⟨⟨⟨⟨⟨⟨⟨-, h1⟩, h2⟩, h3⟩, h4⟩, h5⟩, h6⟩, h7⟩, h8⟩ := h
  simp [Dev.issue, State.fetched, h1, h2, h3, h5, h6, h7, h8, Nat.not_le.mpr h4]

/-- A command for another opcode than the one a tile stands at changes nothing but what the fetch corrects. -/
theorem Dev.issue_of_tileAt_ne {s : State} {n op op' w : Nat} (h : s.tileAt n op w = true) (hne : op' ≠ op)
    (f : Dev → Tile → Nat → Dev) : s.dev.issue n op' f = s.fetched n := by
  simp only [State.tileAt, Bool.and_eq_true, beq_iff_eq, decide_eq_true_eq, Option.isNone_iff_eq_none] at h
  obtain ⟨⟨⟨⟨⟨⟨⟨⟨-, h1⟩, h2⟩, h3⟩, h4⟩, h5⟩, h6⟩, h7⟩, h8⟩ := h
  simp [Dev.issue, State.fetched, h1, h2, h3, h5, h6, h7, h8, Nat.not_le.mpr h4, Ne.symm hne]

/-- An operation at the front of a vector queue is handed to the command for it. -/
theorem Dev.vop_of_vecAt {s : State} {n op : Nat} {o : VOp} (h : s.vecAt n op o = true) (p : Nat → Bool) (hp : p o.w.toNat = true)
    (f : Dev → Tile → VOp → Nat → Dev) : s.dev.vop n p f = f s.dev (s.dev.tile n) o o.w.toNat := by
  simp only [State.vecAt, Bool.and_eq_true, beq_iff_eq] at h
  obtain ⟨⟨⟨-, h1⟩, h2⟩, -⟩ := h
  unfold Dev.vop
  rcases hv : (s.dev.tile n).vq with _ | ⟨y, l⟩
  · simp [hv] at h2
  · simp [hv] at h2
    subst h2
    simp [hv, h1, hp]

/-- The VOPC of the operation at the front. -/
theorem State.voOp_of_vecAt {s : State} {n op : Nat} {o : VOp} (h : s.vecAt n op o = true) : voOp o.w.toNat = op := by
  simp only [State.vecAt, Bool.and_eq_true, beq_iff_eq] at h
  exact h.2

/-- What `instrAt` says of the instruction the sequencer can execute. -/
theorem State.instrAt_iff (s : State) (op w : Nat) : s.instrAt op w = true ↔ s.aon.instr = some w ∧ iOp w = op := by
  simp [State.instrAt]

end Sys2Proof.Machine
end

