-- ==== Sys2Proof/Laws/Memory.lean ====
section
/-! SUPPORT. Byte memory: every operation keeps the canonical form, and a read gives what was written. -/

namespace Sys2Proof.Machine

/-- A smaller lower bound. -/
theorem risingFrom_mono {lo lo' : Nat} (h : lo' ≤ lo) : ∀ {m : List Host.Cell}, risingFrom lo m = true → risingFrom lo' m = true
  | [], _ => rfl
  | c :: cs, hm => by
    simp only [risingFrom, Bool.and_eq_true, decide_eq_true_eq] at *
    exact ⟨by omega, hm.2⟩

/-- Removing entries keeps the order. -/
theorem risingFrom_filter (p : Host.Cell → Bool) : ∀ (lo : Nat) (m : List Host.Cell), risingFrom lo m = true → risingFrom lo (m.filter p) = true
  | _, [], _ => rfl
  | lo, c :: cs, hm => by
    simp only [risingFrom, Bool.and_eq_true, decide_eq_true_eq] at hm
    have ih := risingFrom_filter p (c.1 + 1) cs hm.2
    by_cases hp : p c
    · simp [List.filter, hp, risingFrom, hm.1, ih]
    · simp only [List.filter, hp]
      exact risingFrom_mono (by omega) ih

/-- Placing an entry of a key that no entry has keeps the order. -/
theorem risingFrom_finsert (k : Nat) (v : Byte) : ∀ (lo : Nat) (m : List Host.Cell), risingFrom lo m = true → lo ≤ k →
    (∀ c ∈ m, c.1 ≠ k) → risingFrom lo (finsert k v m) = true
  | lo, [], _, hk, _ => by simp [finsert, risingFrom, hk]
  | lo, c :: cs, hm, hk, hn => by
    simp only [risingFrom, Bool.and_eq_true, decide_eq_true_eq] at hm
    have hc : c.1 ≠ k := hn c (by simp)
    unfold finsert
    by_cases hlt : k < c.1
    · simp only [hlt, if_true, risingFrom, Bool.and_eq_true, decide_eq_true_eq]
      exact ⟨hk, by omega, hm.2⟩
    · simp only [hlt, if_false, risingFrom, Bool.and_eq_true, decide_eq_true_eq]
      exact ⟨hm.1, risingFrom_finsert k v (c.1 + 1) cs hm.2 (by omega) (fun x hx => hn x (by simp [hx]))⟩

/-- The entries after placing one. -/
theorem all_finsert (q : Host.Cell → Bool) (k : Nat) (v : Byte) : ∀ m : List Host.Cell, (finsert k v m).all q = (q (k, v) && m.all q)
  | [] => by simp [finsert]
  | c :: cs => by
    unfold finsert
    by_cases h : k < c.1
    · simp [h]
    · simp only [h, if_false, List.all_cons, all_finsert q k v cs]
      cases q c <;> cases q (k, v) <;> rfl

/-- The entries that stay. -/
theorem all_filter_of_all (q p : Host.Cell → Bool) (m : List Host.Cell) (h : m.all q = true) : (m.filter p).all q = true := by
  simp only [List.all_eq_true, List.mem_filter] at *
  exact fun x hx => h x hx.1

/-- The default of an address does not depend on the entries. -/
@[simp] theorem Memory.dflt_cells (m : Memory) (l : List Host.Cell) (a : Nat) : Memory.dflt { m with cells := l } a = m.dflt a := rfl

/-- The empty memory has the canonical form. -/
theorem Memory.wf_empty : ({} : Memory).wf = true := rfl

/-- A byte write keeps the canonical form. -/
theorem Memory.wf_set (m : Memory) (a : Nat) (v : Byte) (h : m.wf = true) : (m.set a v).wf = true := by
  unfold Memory.wf at h
  rw [Bool.and_eq_true] at h
  have hr := risingFrom_filter (fun p => p.1 != a) 0 m.cells h.1
  have ha := all_filter_of_all (fun c => c.2 != m.dflt c.1) (fun p => p.1 != a) m.cells h.2
  unfold Memory.set Memory.wf
  split
  · rw [Bool.and_eq_true]; exact ⟨hr, ha⟩
  · rename_i hv
    rw [Bool.and_eq_true]
    refine ⟨risingFrom_finsert a v 0 _ hr (by omega) ?_, ?_⟩
    · intro c hc
      unfold fdel at hc
      simpa using (List.mem_filter.mp hc).2
    · show (finsert a v (fdel m.cells a)).all (fun c => c.2 != m.dflt c.1) = true
      rw [all_finsert, Bool.and_eq_true]
      exact ⟨by simpa using hv, ha⟩

/-- A write keeps the canonical form. -/
theorem Memory.wf_write (m : Memory) (a : Nat) (bs : List Byte) (h : m.wf = true) : (m.write a bs).wf = true := by
  induction bs generalizing m a with
  | nil => exact h
  | cons b bs ih => exact ih _ _ (Memory.wf_set m a b h)

/-- A clear keeps the canonical form. -/
theorem Memory.wf_clear (m : Memory) (lo hi : Nat) (h : m.wf = true) : (m.clear lo hi).wf = true := by
  unfold Memory.wf at *
  rw [Bool.and_eq_true] at *
  exact ⟨risingFrom_filter _ 0 m.cells h.1, all_filter_of_all (fun c => c.2 != m.dflt c.1) _ m.cells h.2⟩

/-- An encrypted write keeps the canonical form. -/
theorem encBlocks_wf (k : List (List Byte) × List (List Byte)) : ∀ (n : Nat) (m : Memory) (b : Nat) (bs : List Byte), m.wf = true →
    (encBlocks k m b n bs).wf = true
  | 0, _, _, _, h => h
  | n + 1, m, _, _, h => encBlocks_wf k n _ _ _ (Memory.wf_write m _ _ h)

/-- Capturing an error leaves memory alone. -/
@[simp] theorem Dev.logUe_mem (d : Dev) (addr source ctx : Nat) : (d.logUe addr source ctx).mem = d.mem := by
  unfold Dev.logUe
  split <;> rfl

/-- Counting leaves memory alone. -/
@[simp] theorem Dev.sat_mem (d : Dev) (f : Fld) (n : Nat) : (d.sat f n).mem = d.mem := rfl

/-- A fold of steps that each leave memory alone leaves it alone. -/
theorem Dev.foldl_mem {α : Type} (f : Dev → α → Dev) (hf : ∀ d a, (f d a).mem = d.mem) (l : List α) (d : Dev) :
    (l.foldl f d).mem = d.mem := by
  induction l generalizing d with
  | nil => rfl
  | cons a l ih => exact (ih _).trans (hf d a)

/-- Correcting what a read-modify-write reads leaves the bytes alone. -/
@[simp] theorem Dev.correctPart_mem (d : Dev) (p n : Nat) : (d.correctPart p n).mem = d.mem := by
  refine Dev.foldl_mem _ (fun d e => ?_) _ d
  split <;> rfl

/-- Correcting what a read meets leaves the bytes alone. -/
@[simp] theorem Dev.correct_mem (d : Dev) (p n : Nat) : (d.correct p n).mem = d.mem := by
  unfold Dev.correct
  dsimp only
  split <;> rfl

/-- The write queue leaves the bytes alone. -/
@[simp] theorem Dev.queueWrite_mem (d : Dev) (p : Nat) : (d.queueWrite p).mem = d.mem := rfl

/-- An upset marks a granule and leaves the bytes alone. -/
@[simp] theorem Dev.upsetMem_mem (d : Dev) (p : Nat) (two : Bool) : (d.upsetMem p two).mem = d.mem := rfl

/-- What a device write does to memory: the canonical form stays. -/
theorem Dev.writeMem_wf (d : Dev) (s p : Nat) (bs : List Byte) (source ctx : Nat) (h : d.mem.wf = true) :
    (d.writeMem s p bs source ctx).mem.wf = true := by
  have e : ∀ d' : Dev, d'.mem = d.mem → (if p < 2 ^ 36 then (d'.correctPart p bs.length).queueWrite p
      else d'.correctPart p bs.length).mem.wf = true := by
    intro d' hd
    split <;> simpa [hd] using h
  unfold Dev.writeMem
  dsimp only
  split
  · apply Memory.wf_write
    apply e
    split <;> simp
  · apply encBlocks_wf
    apply e
    split <;> simp

/-- A byte read after it was written. -/
@[simp] theorem Memory.get_set_same (m : Memory) (a : Nat) (v : Byte) : (m.set a v).get a = v := by
  unfold Memory.get Memory.set
  split
  · rename_i h; rw [fget_fdel_same]; simp [h]
  · rw [fget_fset_same]; rfl

/-- A byte write leaves every other byte alone. -/
theorem Memory.get_set_ne (m : Memory) {a b : Nat} (v : Byte) (h : b ≠ a) : (m.set a v).get b = m.get b := by
  unfold Memory.get Memory.set
  split
  · rw [fget_fdel_ne _ h, Memory.dflt_cells]
  · rw [fget_fset_ne _ _ h, Memory.dflt_cells]

/-- A write leaves the bytes below it alone. -/
theorem Memory.get_write_below (m : Memory) (a : Nat) (bs : List Byte) (b : Nat) (h : b < a) : (m.write a bs).get b = m.get b := by
  induction bs generalizing m a with
  | nil => rfl
  | cons x bs ih => exact (ih (m.set a x) (a + 1) (by omega)).trans (Memory.get_set_ne m x (by omega))

/-- A clear makes its bytes read as nothing had written them. -/
theorem fget_filter_false {α : Type} (m : FMap α) (k : Nat) (p : Nat × α → Bool) (h : ∀ v, p (k, v) = false) : fget (m.filter p) k = none := by
  induction m with
  | nil => rfl
  | cons c m ih =>
    unfold fget at *
    by_cases hc : c.1 = k
    · have : p c = false := by have := h c.2; rw [← hc] at this; exact this
      simp [this, ih]
    · by_cases hp : p c
      · have hb : (k == c.1) = false := by simp [Ne.symm hc]
        simp [hp, List.lookup, hb, ih]
      · simp [hp, ih]

end Sys2Proof.Machine
end

