-- ==== Sys2Proof/Laws/State.lean ====
section
/-! SUPPORT. What each update of the state leaves: one equation for each field and update, so that no proof unfolds a record update, and
what each numbered file (contexts, queues, tiles, key slots) answers after it is set. -/

namespace Sys2Proof.Machine

/-! ### The halves of the state -/

@[simp] theorem State.onDev_pending (s : State) (f : Dev → Dev) : (s.onDev f).pending = s.pending := rfl
@[simp] theorem State.onDev_strap (s : State) (f : Dev → Dev) : (s.onDev f).strap = s.strap := rfl
@[simp] theorem State.onDev_aon (s : State) (f : Dev → Dev) : (s.onDev f).aon = s.aon := rfl
@[simp] theorem State.onDev_dev (s : State) (f : Dev → Dev) : (s.onDev f).dev = f s.dev := rfl
@[simp] theorem State.onAon_pending (s : State) (f : Aon → Aon) : (s.onAon f).pending = s.pending := rfl
@[simp] theorem State.onAon_strap (s : State) (f : Aon → Aon) : (s.onAon f).strap = s.strap := rfl
@[simp] theorem State.onAon_aon (s : State) (f : Aon → Aon) : (s.onAon f).aon = f s.aon := rfl
@[simp] theorem State.onAon_dev (s : State) (f : Aon → Aon) : (s.onAon f).dev = s.dev := rfl

/-! ### Updates outside the always-on domain -/

@[simp] theorem Dev.wr_held32 (d : Dev) (f : Fld) (v : Nat) : (d.wr f v).held32 = d.held32 := rfl
@[simp] theorem Dev.wr_capt32 (d : Dev) (f : Fld) (v : Nat) : (d.wr f v).capt32 = d.capt32 := rfl
@[simp] theorem Dev.wr_boot (d : Dev) (f : Fld) (v : Nat) : (d.wr f v).boot = d.boot := rfl
@[simp] theorem Dev.wr_pci (d : Dev) (f : Fld) (v : Nat) : (d.wr f v).pci = d.pci := rfl
@[simp] theorem Dev.wr_out (d : Dev) (f : Fld) (v : Nat) : (d.wr f v).out = d.out := rfl
@[simp] theorem Dev.wr_mem (d : Dev) (f : Fld) (v : Nat) : (d.wr f v).mem = d.mem := rfl
@[simp] theorem Dev.wr_keys (d : Dev) (f : Fld) (v : Nat) : (d.wr f v).keys = d.keys := rfl
@[simp] theorem Dev.wr_ctxs (d : Dev) (f : Fld) (v : Nat) : (d.wr f v).ctxs = d.ctxs := rfl
@[simp] theorem Dev.wr_queues (d : Dev) (f : Fld) (v : Nat) : (d.wr f v).queues = d.queues := rfl
@[simp] theorem Dev.wr_issueSeq (d : Dev) (f : Fld) (v : Nat) : (d.wr f v).issueSeq = d.issueSeq := rfl
@[simp] theorem Dev.wr_lastIssue (d : Dev) (f : Fld) (v : Nat) : (d.wr f v).lastIssue = d.lastIssue := rfl
@[simp] theorem Dev.wr_prgs (d : Dev) (f : Fld) (v : Nat) : (d.wr f v).prgs = d.prgs := rfl
@[simp] theorem Dev.wr_prgWait (d : Dev) (f : Fld) (v : Nat) : (d.wr f v).prgWait = d.prgWait := rfl
@[simp] theorem Dev.wr_invals (d : Dev) (f : Fld) (v : Nat) : (d.wr f v).invals = d.invals := rfl
@[simp] theorem Dev.wr_evt (d : Dev) (f : Fld) (v : Nat) : (d.wr f v).evt = d.evt := rfl
@[simp] theorem Dev.wr_tiles (d : Dev) (f : Fld) (v : Nat) : (d.wr f v).tiles = d.tiles := rfl
@[simp] theorem Dev.wr_saved (d : Dev) (f : Fld) (v : Nat) : (d.wr f v).saved = d.saved := rfl
@[simp] theorem Dev.wr_ecc (d : Dev) (f : Fld) (v : Nat) : (d.wr f v).ecc = d.ecc := rfl
@[simp] theorem Dev.wr_writeQ (d : Dev) (f : Fld) (v : Nat) : (d.wr f v).writeQ = d.writeQ := rfl
@[simp] theorem Dev.wr_atsOut (d : Dev) (f : Fld) (v : Nat) : (d.wr f v).atsOut = d.atsOut := rfl
@[simp] theorem Dev.wr_atsWait (d : Dev) (f : Fld) (v : Nat) : (d.wr f v).atsWait = d.atsWait := rfl
@[simp] theorem Dev.wr_waitCount (d : Dev) (f : Fld) (v : Nat) : (d.wr f v).waitCount = d.waitCount := rfl
@[simp] theorem Dev.wr_preQ (d : Dev) (f : Fld) (v : Nat) : (d.wr f v).preQ = d.preQ := rfl
@[simp] theorem Dev.wr_pwr (d : Dev) (f : Fld) (v : Nat) : (d.wr f v).pwr = d.pwr := rfl
@[simp] theorem Dev.wr_tb (d : Dev) (f : Fld) (v : Nat) : (d.wr f v).tb = d.tb := rfl
@[simp] theorem Dev.wr_vp (d : Dev) (f : Fld) (v : Nat) : (d.wr f v).vp = d.vp := rfl
@[simp] theorem Dev.wr_card (d : Dev) (f : Fld) (v : Nat) : (d.wr f v).card = d.card := rfl
@[simp] theorem Dev.wr_cbp (d : Dev) (f : Fld) (v : Nat) : (d.wr f v).cbp = d.cbp := rfl
@[simp] theorem Dev.wr_med (d : Dev) (f : Fld) (v : Nat) : (d.wr f v).med = d.med := rfl
@[simp] theorem Dev.wr_cls (d : Dev) (f : Fld) (v : Nat) : (d.wr f v).cls = d.cls := rfl
@[simp] theorem Dev.wr_pair (d : Dev) (f : Fld) (v : Nat) : (d.wr f v).pair = d.pair := rfl
@[simp] theorem Dev.wr_strap (d : Dev) (f : Fld) (v : Nat) : (d.wr f v).strap = d.strap := rfl
@[simp] theorem Dev.wr_sramReady (d : Dev) (f : Fld) (v : Nat) : (d.wr f v).sramReady = d.sramReady := rfl
@[simp] theorem Dev.wr_free (d : Dev) (f : Fld) (v : Nat) : (d.wr f v).free = d.free := rfl
@[simp] theorem Dev.wr_uptime (d : Dev) (f : Fld) (v : Nat) : (d.wr f v).uptime = d.uptime := rfl
@[simp] theorem Dev.send_regs (d : Dev) (o : Out) : (d.send o).regs = d.regs := rfl
@[simp] theorem Dev.send_held32 (d : Dev) (o : Out) : (d.send o).held32 = d.held32 := rfl
@[simp] theorem Dev.send_capt32 (d : Dev) (o : Out) : (d.send o).capt32 = d.capt32 := rfl
@[simp] theorem Dev.send_boot (d : Dev) (o : Out) : (d.send o).boot = d.boot := rfl
@[simp] theorem Dev.send_pci (d : Dev) (o : Out) : (d.send o).pci = d.pci := rfl
@[simp] theorem Dev.send_mem (d : Dev) (o : Out) : (d.send o).mem = d.mem := rfl
@[simp] theorem Dev.send_keys (d : Dev) (o : Out) : (d.send o).keys = d.keys := rfl
@[simp] theorem Dev.send_ctxs (d : Dev) (o : Out) : (d.send o).ctxs = d.ctxs := rfl
@[simp] theorem Dev.send_queues (d : Dev) (o : Out) : (d.send o).queues = d.queues := rfl
@[simp] theorem Dev.send_issueSeq (d : Dev) (o : Out) : (d.send o).issueSeq = d.issueSeq := rfl
@[simp] theorem Dev.send_lastIssue (d : Dev) (o : Out) : (d.send o).lastIssue = d.lastIssue := rfl
@[simp] theorem Dev.send_prgs (d : Dev) (o : Out) : (d.send o).prgs = d.prgs := rfl
@[simp] theorem Dev.send_prgWait (d : Dev) (o : Out) : (d.send o).prgWait = d.prgWait := rfl
@[simp] theorem Dev.send_invals (d : Dev) (o : Out) : (d.send o).invals = d.invals := rfl
@[simp] theorem Dev.send_evt (d : Dev) (o : Out) : (d.send o).evt = d.evt := rfl
@[simp] theorem Dev.send_tiles (d : Dev) (o : Out) : (d.send o).tiles = d.tiles := rfl
@[simp] theorem Dev.send_saved (d : Dev) (o : Out) : (d.send o).saved = d.saved := rfl
@[simp] theorem Dev.send_ecc (d : Dev) (o : Out) : (d.send o).ecc = d.ecc := rfl
@[simp] theorem Dev.send_writeQ (d : Dev) (o : Out) : (d.send o).writeQ = d.writeQ := rfl
@[simp] theorem Dev.send_atsOut (d : Dev) (o : Out) : (d.send o).atsOut = d.atsOut := rfl
@[simp] theorem Dev.send_atsWait (d : Dev) (o : Out) : (d.send o).atsWait = d.atsWait := rfl
@[simp] theorem Dev.send_waitCount (d : Dev) (o : Out) : (d.send o).waitCount = d.waitCount := rfl
@[simp] theorem Dev.send_preQ (d : Dev) (o : Out) : (d.send o).preQ = d.preQ := rfl
@[simp] theorem Dev.send_pwr (d : Dev) (o : Out) : (d.send o).pwr = d.pwr := rfl
@[simp] theorem Dev.send_tb (d : Dev) (o : Out) : (d.send o).tb = d.tb := rfl
@[simp] theorem Dev.send_vp (d : Dev) (o : Out) : (d.send o).vp = d.vp := rfl
@[simp] theorem Dev.send_card (d : Dev) (o : Out) : (d.send o).card = d.card := rfl
@[simp] theorem Dev.send_cbp (d : Dev) (o : Out) : (d.send o).cbp = d.cbp := rfl
@[simp] theorem Dev.send_med (d : Dev) (o : Out) : (d.send o).med = d.med := rfl
@[simp] theorem Dev.send_cls (d : Dev) (o : Out) : (d.send o).cls = d.cls := rfl
@[simp] theorem Dev.send_pair (d : Dev) (o : Out) : (d.send o).pair = d.pair := rfl
@[simp] theorem Dev.send_strap (d : Dev) (o : Out) : (d.send o).strap = d.strap := rfl
@[simp] theorem Dev.send_sramReady (d : Dev) (o : Out) : (d.send o).sramReady = d.sramReady := rfl
@[simp] theorem Dev.send_free (d : Dev) (o : Out) : (d.send o).free = d.free := rfl
@[simp] theorem Dev.send_uptime (d : Dev) (o : Out) : (d.send o).uptime = d.uptime := rfl
@[simp] theorem Dev.send_rd (d : Dev) (o : Out) (g : Fld) : (d.send o).rd g = d.rd g := rfl
@[simp] theorem Dev.setTile_regs (d : Dev) (n : Nat) (t : Tile) : (d.setTile n t).regs = d.regs := rfl
@[simp] theorem Dev.setTile_held32 (d : Dev) (n : Nat) (t : Tile) : (d.setTile n t).held32 = d.held32 := rfl
@[simp] theorem Dev.setTile_capt32 (d : Dev) (n : Nat) (t : Tile) : (d.setTile n t).capt32 = d.capt32 := rfl
@[simp] theorem Dev.setTile_boot (d : Dev) (n : Nat) (t : Tile) : (d.setTile n t).boot = d.boot := rfl
@[simp] theorem Dev.setTile_pci (d : Dev) (n : Nat) (t : Tile) : (d.setTile n t).pci = d.pci := rfl
@[simp] theorem Dev.setTile_out (d : Dev) (n : Nat) (t : Tile) : (d.setTile n t).out = d.out := rfl
@[simp] theorem Dev.setTile_mem (d : Dev) (n : Nat) (t : Tile) : (d.setTile n t).mem = d.mem := rfl
@[simp] theorem Dev.setTile_keys (d : Dev) (n : Nat) (t : Tile) : (d.setTile n t).keys = d.keys := rfl
@[simp] theorem Dev.setTile_ctxs (d : Dev) (n : Nat) (t : Tile) : (d.setTile n t).ctxs = d.ctxs := rfl
@[simp] theorem Dev.setTile_queues (d : Dev) (n : Nat) (t : Tile) : (d.setTile n t).queues = d.queues := rfl
@[simp] theorem Dev.setTile_issueSeq (d : Dev) (n : Nat) (t : Tile) : (d.setTile n t).issueSeq = d.issueSeq := rfl
@[simp] theorem Dev.setTile_lastIssue (d : Dev) (n : Nat) (t : Tile) : (d.setTile n t).lastIssue = d.lastIssue := rfl
@[simp] theorem Dev.setTile_prgs (d : Dev) (n : Nat) (t : Tile) : (d.setTile n t).prgs = d.prgs := rfl
@[simp] theorem Dev.setTile_prgWait (d : Dev) (n : Nat) (t : Tile) : (d.setTile n t).prgWait = d.prgWait := rfl
@[simp] theorem Dev.setTile_invals (d : Dev) (n : Nat) (t : Tile) : (d.setTile n t).invals = d.invals := rfl
@[simp] theorem Dev.setTile_evt (d : Dev) (n : Nat) (t : Tile) : (d.setTile n t).evt = d.evt := rfl
@[simp] theorem Dev.setTile_saved (d : Dev) (n : Nat) (t : Tile) : (d.setTile n t).saved = d.saved := rfl
@[simp] theorem Dev.setTile_ecc (d : Dev) (n : Nat) (t : Tile) : (d.setTile n t).ecc = d.ecc := rfl
@[simp] theorem Dev.setTile_writeQ (d : Dev) (n : Nat) (t : Tile) : (d.setTile n t).writeQ = d.writeQ := rfl
@[simp] theorem Dev.setTile_atsOut (d : Dev) (n : Nat) (t : Tile) : (d.setTile n t).atsOut = d.atsOut := rfl
@[simp] theorem Dev.setTile_atsWait (d : Dev) (n : Nat) (t : Tile) : (d.setTile n t).atsWait = d.atsWait := rfl
@[simp] theorem Dev.setTile_waitCount (d : Dev) (n : Nat) (t : Tile) : (d.setTile n t).waitCount = d.waitCount := rfl
@[simp] theorem Dev.setTile_preQ (d : Dev) (n : Nat) (t : Tile) : (d.setTile n t).preQ = d.preQ := rfl
@[simp] theorem Dev.setTile_pwr (d : Dev) (n : Nat) (t : Tile) : (d.setTile n t).pwr = d.pwr := rfl
@[simp] theorem Dev.setTile_tb (d : Dev) (n : Nat) (t : Tile) : (d.setTile n t).tb = d.tb := rfl
@[simp] theorem Dev.setTile_vp (d : Dev) (n : Nat) (t : Tile) : (d.setTile n t).vp = d.vp := rfl
@[simp] theorem Dev.setTile_card (d : Dev) (n : Nat) (t : Tile) : (d.setTile n t).card = d.card := rfl
@[simp] theorem Dev.setTile_cbp (d : Dev) (n : Nat) (t : Tile) : (d.setTile n t).cbp = d.cbp := rfl
@[simp] theorem Dev.setTile_med (d : Dev) (n : Nat) (t : Tile) : (d.setTile n t).med = d.med := rfl
@[simp] theorem Dev.setTile_cls (d : Dev) (n : Nat) (t : Tile) : (d.setTile n t).cls = d.cls := rfl
@[simp] theorem Dev.setTile_pair (d : Dev) (n : Nat) (t : Tile) : (d.setTile n t).pair = d.pair := rfl
@[simp] theorem Dev.setTile_strap (d : Dev) (n : Nat) (t : Tile) : (d.setTile n t).strap = d.strap := rfl
@[simp] theorem Dev.setTile_sramReady (d : Dev) (n : Nat) (t : Tile) : (d.setTile n t).sramReady = d.sramReady := rfl
@[simp] theorem Dev.setTile_free (d : Dev) (n : Nat) (t : Tile) : (d.setTile n t).free = d.free := rfl
@[simp] theorem Dev.setTile_uptime (d : Dev) (n : Nat) (t : Tile) : (d.setTile n t).uptime = d.uptime := rfl
@[simp] theorem Dev.setTile_rd (d : Dev) (n : Nat) (t : Tile) (g : Fld) : (d.setTile n t).rd g = d.rd g := rfl
@[simp] theorem Dev.setQueue_regs (d : Dev) (q : Nat) (x : Queue) : (d.setQueue q x).regs = d.regs := rfl
@[simp] theorem Dev.setQueue_held32 (d : Dev) (q : Nat) (x : Queue) : (d.setQueue q x).held32 = d.held32 := rfl
@[simp] theorem Dev.setQueue_capt32 (d : Dev) (q : Nat) (x : Queue) : (d.setQueue q x).capt32 = d.capt32 := rfl
@[simp] theorem Dev.setQueue_boot (d : Dev) (q : Nat) (x : Queue) : (d.setQueue q x).boot = d.boot := rfl
@[simp] theorem Dev.setQueue_pci (d : Dev) (q : Nat) (x : Queue) : (d.setQueue q x).pci = d.pci := rfl
@[simp] theorem Dev.setQueue_out (d : Dev) (q : Nat) (x : Queue) : (d.setQueue q x).out = d.out := rfl
@[simp] theorem Dev.setQueue_mem (d : Dev) (q : Nat) (x : Queue) : (d.setQueue q x).mem = d.mem := rfl
@[simp] theorem Dev.setQueue_keys (d : Dev) (q : Nat) (x : Queue) : (d.setQueue q x).keys = d.keys := rfl
@[simp] theorem Dev.setQueue_ctxs (d : Dev) (q : Nat) (x : Queue) : (d.setQueue q x).ctxs = d.ctxs := rfl
@[simp] theorem Dev.setQueue_issueSeq (d : Dev) (q : Nat) (x : Queue) : (d.setQueue q x).issueSeq = d.issueSeq := rfl
@[simp] theorem Dev.setQueue_lastIssue (d : Dev) (q : Nat) (x : Queue) : (d.setQueue q x).lastIssue = d.lastIssue := rfl
@[simp] theorem Dev.setQueue_prgs (d : Dev) (q : Nat) (x : Queue) : (d.setQueue q x).prgs = d.prgs := rfl
@[simp] theorem Dev.setQueue_prgWait (d : Dev) (q : Nat) (x : Queue) : (d.setQueue q x).prgWait = d.prgWait := rfl
@[simp] theorem Dev.setQueue_invals (d : Dev) (q : Nat) (x : Queue) : (d.setQueue q x).invals = d.invals := rfl
@[simp] theorem Dev.setQueue_evt (d : Dev) (q : Nat) (x : Queue) : (d.setQueue q x).evt = d.evt := rfl
@[simp] theorem Dev.setQueue_tiles (d : Dev) (q : Nat) (x : Queue) : (d.setQueue q x).tiles = d.tiles := rfl
@[simp] theorem Dev.setQueue_saved (d : Dev) (q : Nat) (x : Queue) : (d.setQueue q x).saved = d.saved := rfl
@[simp] theorem Dev.setQueue_ecc (d : Dev) (q : Nat) (x : Queue) : (d.setQueue q x).ecc = d.ecc := rfl
@[simp] theorem Dev.setQueue_writeQ (d : Dev) (q : Nat) (x : Queue) : (d.setQueue q x).writeQ = d.writeQ := rfl
@[simp] theorem Dev.setQueue_atsOut (d : Dev) (q : Nat) (x : Queue) : (d.setQueue q x).atsOut = d.atsOut := rfl
@[simp] theorem Dev.setQueue_atsWait (d : Dev) (q : Nat) (x : Queue) : (d.setQueue q x).atsWait = d.atsWait := rfl
@[simp] theorem Dev.setQueue_waitCount (d : Dev) (q : Nat) (x : Queue) : (d.setQueue q x).waitCount = d.waitCount := rfl
@[simp] theorem Dev.setQueue_preQ (d : Dev) (q : Nat) (x : Queue) : (d.setQueue q x).preQ = d.preQ := rfl
@[simp] theorem Dev.setQueue_pwr (d : Dev) (q : Nat) (x : Queue) : (d.setQueue q x).pwr = d.pwr := rfl
@[simp] theorem Dev.setQueue_tb (d : Dev) (q : Nat) (x : Queue) : (d.setQueue q x).tb = d.tb := rfl
@[simp] theorem Dev.setQueue_vp (d : Dev) (q : Nat) (x : Queue) : (d.setQueue q x).vp = d.vp := rfl
@[simp] theorem Dev.setQueue_card (d : Dev) (q : Nat) (x : Queue) : (d.setQueue q x).card = d.card := rfl
@[simp] theorem Dev.setQueue_cbp (d : Dev) (q : Nat) (x : Queue) : (d.setQueue q x).cbp = d.cbp := rfl
@[simp] theorem Dev.setQueue_med (d : Dev) (q : Nat) (x : Queue) : (d.setQueue q x).med = d.med := rfl
@[simp] theorem Dev.setQueue_cls (d : Dev) (q : Nat) (x : Queue) : (d.setQueue q x).cls = d.cls := rfl
@[simp] theorem Dev.setQueue_pair (d : Dev) (q : Nat) (x : Queue) : (d.setQueue q x).pair = d.pair := rfl
@[simp] theorem Dev.setQueue_strap (d : Dev) (q : Nat) (x : Queue) : (d.setQueue q x).strap = d.strap := rfl
@[simp] theorem Dev.setQueue_sramReady (d : Dev) (q : Nat) (x : Queue) : (d.setQueue q x).sramReady = d.sramReady := rfl
@[simp] theorem Dev.setQueue_free (d : Dev) (q : Nat) (x : Queue) : (d.setQueue q x).free = d.free := rfl
@[simp] theorem Dev.setQueue_uptime (d : Dev) (q : Nat) (x : Queue) : (d.setQueue q x).uptime = d.uptime := rfl
@[simp] theorem Dev.setQueue_rd (d : Dev) (q : Nat) (x : Queue) (g : Fld) : (d.setQueue q x).rd g = d.rd g := rfl
@[simp] theorem Dev.setCtx_regs (d : Dev) (c : Nat) (x : Ctx) : (d.setCtx c x).regs = d.regs := rfl
@[simp] theorem Dev.setCtx_held32 (d : Dev) (c : Nat) (x : Ctx) : (d.setCtx c x).held32 = d.held32 := rfl
@[simp] theorem Dev.setCtx_capt32 (d : Dev) (c : Nat) (x : Ctx) : (d.setCtx c x).capt32 = d.capt32 := rfl
@[simp] theorem Dev.setCtx_boot (d : Dev) (c : Nat) (x : Ctx) : (d.setCtx c x).boot = d.boot := rfl
@[simp] theorem Dev.setCtx_pci (d : Dev) (c : Nat) (x : Ctx) : (d.setCtx c x).pci = d.pci := rfl
@[simp] theorem Dev.setCtx_out (d : Dev) (c : Nat) (x : Ctx) : (d.setCtx c x).out = d.out := rfl
@[simp] theorem Dev.setCtx_mem (d : Dev) (c : Nat) (x : Ctx) : (d.setCtx c x).mem = d.mem := rfl
@[simp] theorem Dev.setCtx_keys (d : Dev) (c : Nat) (x : Ctx) : (d.setCtx c x).keys = d.keys := rfl
@[simp] theorem Dev.setCtx_queues (d : Dev) (c : Nat) (x : Ctx) : (d.setCtx c x).queues = d.queues := rfl
@[simp] theorem Dev.setCtx_issueSeq (d : Dev) (c : Nat) (x : Ctx) : (d.setCtx c x).issueSeq = d.issueSeq := rfl
@[simp] theorem Dev.setCtx_lastIssue (d : Dev) (c : Nat) (x : Ctx) : (d.setCtx c x).lastIssue = d.lastIssue := rfl
@[simp] theorem Dev.setCtx_prgs (d : Dev) (c : Nat) (x : Ctx) : (d.setCtx c x).prgs = d.prgs := rfl
@[simp] theorem Dev.setCtx_prgWait (d : Dev) (c : Nat) (x : Ctx) : (d.setCtx c x).prgWait = d.prgWait := rfl
@[simp] theorem Dev.setCtx_invals (d : Dev) (c : Nat) (x : Ctx) : (d.setCtx c x).invals = d.invals := rfl
@[simp] theorem Dev.setCtx_evt (d : Dev) (c : Nat) (x : Ctx) : (d.setCtx c x).evt = d.evt := rfl
@[simp] theorem Dev.setCtx_tiles (d : Dev) (c : Nat) (x : Ctx) : (d.setCtx c x).tiles = d.tiles := rfl
@[simp] theorem Dev.setCtx_saved (d : Dev) (c : Nat) (x : Ctx) : (d.setCtx c x).saved = d.saved := rfl
@[simp] theorem Dev.setCtx_ecc (d : Dev) (c : Nat) (x : Ctx) : (d.setCtx c x).ecc = d.ecc := rfl
@[simp] theorem Dev.setCtx_writeQ (d : Dev) (c : Nat) (x : Ctx) : (d.setCtx c x).writeQ = d.writeQ := rfl
@[simp] theorem Dev.setCtx_atsOut (d : Dev) (c : Nat) (x : Ctx) : (d.setCtx c x).atsOut = d.atsOut := rfl
@[simp] theorem Dev.setCtx_atsWait (d : Dev) (c : Nat) (x : Ctx) : (d.setCtx c x).atsWait = d.atsWait := rfl
@[simp] theorem Dev.setCtx_waitCount (d : Dev) (c : Nat) (x : Ctx) : (d.setCtx c x).waitCount = d.waitCount := rfl
@[simp] theorem Dev.setCtx_preQ (d : Dev) (c : Nat) (x : Ctx) : (d.setCtx c x).preQ = d.preQ := rfl
@[simp] theorem Dev.setCtx_pwr (d : Dev) (c : Nat) (x : Ctx) : (d.setCtx c x).pwr = d.pwr := rfl
@[simp] theorem Dev.setCtx_tb (d : Dev) (c : Nat) (x : Ctx) : (d.setCtx c x).tb = d.tb := rfl
@[simp] theorem Dev.setCtx_vp (d : Dev) (c : Nat) (x : Ctx) : (d.setCtx c x).vp = d.vp := rfl
@[simp] theorem Dev.setCtx_card (d : Dev) (c : Nat) (x : Ctx) : (d.setCtx c x).card = d.card := rfl
@[simp] theorem Dev.setCtx_cbp (d : Dev) (c : Nat) (x : Ctx) : (d.setCtx c x).cbp = d.cbp := rfl
@[simp] theorem Dev.setCtx_med (d : Dev) (c : Nat) (x : Ctx) : (d.setCtx c x).med = d.med := rfl
@[simp] theorem Dev.setCtx_cls (d : Dev) (c : Nat) (x : Ctx) : (d.setCtx c x).cls = d.cls := rfl
@[simp] theorem Dev.setCtx_pair (d : Dev) (c : Nat) (x : Ctx) : (d.setCtx c x).pair = d.pair := rfl
@[simp] theorem Dev.setCtx_strap (d : Dev) (c : Nat) (x : Ctx) : (d.setCtx c x).strap = d.strap := rfl
@[simp] theorem Dev.setCtx_sramReady (d : Dev) (c : Nat) (x : Ctx) : (d.setCtx c x).sramReady = d.sramReady := rfl
@[simp] theorem Dev.setCtx_free (d : Dev) (c : Nat) (x : Ctx) : (d.setCtx c x).free = d.free := rfl
@[simp] theorem Dev.setCtx_uptime (d : Dev) (c : Nat) (x : Ctx) : (d.setCtx c x).uptime = d.uptime := rfl
@[simp] theorem Dev.setCtx_rd (d : Dev) (c : Nat) (x : Ctx) (g : Fld) : (d.setCtx c x).rd g = d.rd g := rfl
@[simp] theorem Dev.setKey_regs (d : Dev) (k : Nat) (x : KeySlot) : (d.setKey k x).regs = d.regs := rfl
@[simp] theorem Dev.setKey_held32 (d : Dev) (k : Nat) (x : KeySlot) : (d.setKey k x).held32 = d.held32 := rfl
@[simp] theorem Dev.setKey_capt32 (d : Dev) (k : Nat) (x : KeySlot) : (d.setKey k x).capt32 = d.capt32 := rfl
@[simp] theorem Dev.setKey_boot (d : Dev) (k : Nat) (x : KeySlot) : (d.setKey k x).boot = d.boot := rfl
@[simp] theorem Dev.setKey_pci (d : Dev) (k : Nat) (x : KeySlot) : (d.setKey k x).pci = d.pci := rfl
@[simp] theorem Dev.setKey_out (d : Dev) (k : Nat) (x : KeySlot) : (d.setKey k x).out = d.out := rfl
@[simp] theorem Dev.setKey_mem (d : Dev) (k : Nat) (x : KeySlot) : (d.setKey k x).mem = d.mem := rfl
@[simp] theorem Dev.setKey_ctxs (d : Dev) (k : Nat) (x : KeySlot) : (d.setKey k x).ctxs = d.ctxs := rfl
@[simp] theorem Dev.setKey_queues (d : Dev) (k : Nat) (x : KeySlot) : (d.setKey k x).queues = d.queues := rfl
@[simp] theorem Dev.setKey_issueSeq (d : Dev) (k : Nat) (x : KeySlot) : (d.setKey k x).issueSeq = d.issueSeq := rfl
@[simp] theorem Dev.setKey_lastIssue (d : Dev) (k : Nat) (x : KeySlot) : (d.setKey k x).lastIssue = d.lastIssue := rfl
@[simp] theorem Dev.setKey_prgs (d : Dev) (k : Nat) (x : KeySlot) : (d.setKey k x).prgs = d.prgs := rfl
@[simp] theorem Dev.setKey_prgWait (d : Dev) (k : Nat) (x : KeySlot) : (d.setKey k x).prgWait = d.prgWait := rfl
@[simp] theorem Dev.setKey_invals (d : Dev) (k : Nat) (x : KeySlot) : (d.setKey k x).invals = d.invals := rfl
@[simp] theorem Dev.setKey_evt (d : Dev) (k : Nat) (x : KeySlot) : (d.setKey k x).evt = d.evt := rfl
@[simp] theorem Dev.setKey_tiles (d : Dev) (k : Nat) (x : KeySlot) : (d.setKey k x).tiles = d.tiles := rfl
@[simp] theorem Dev.setKey_saved (d : Dev) (k : Nat) (x : KeySlot) : (d.setKey k x).saved = d.saved := rfl
@[simp] theorem Dev.setKey_ecc (d : Dev) (k : Nat) (x : KeySlot) : (d.setKey k x).ecc = d.ecc := rfl
@[simp] theorem Dev.setKey_writeQ (d : Dev) (k : Nat) (x : KeySlot) : (d.setKey k x).writeQ = d.writeQ := rfl
@[simp] theorem Dev.setKey_atsOut (d : Dev) (k : Nat) (x : KeySlot) : (d.setKey k x).atsOut = d.atsOut := rfl
@[simp] theorem Dev.setKey_atsWait (d : Dev) (k : Nat) (x : KeySlot) : (d.setKey k x).atsWait = d.atsWait := rfl
@[simp] theorem Dev.setKey_waitCount (d : Dev) (k : Nat) (x : KeySlot) : (d.setKey k x).waitCount = d.waitCount := rfl
@[simp] theorem Dev.setKey_preQ (d : Dev) (k : Nat) (x : KeySlot) : (d.setKey k x).preQ = d.preQ := rfl
@[simp] theorem Dev.setKey_pwr (d : Dev) (k : Nat) (x : KeySlot) : (d.setKey k x).pwr = d.pwr := rfl
@[simp] theorem Dev.setKey_tb (d : Dev) (k : Nat) (x : KeySlot) : (d.setKey k x).tb = d.tb := rfl
@[simp] theorem Dev.setKey_vp (d : Dev) (k : Nat) (x : KeySlot) : (d.setKey k x).vp = d.vp := rfl
@[simp] theorem Dev.setKey_card (d : Dev) (k : Nat) (x : KeySlot) : (d.setKey k x).card = d.card := rfl
@[simp] theorem Dev.setKey_cbp (d : Dev) (k : Nat) (x : KeySlot) : (d.setKey k x).cbp = d.cbp := rfl
@[simp] theorem Dev.setKey_med (d : Dev) (k : Nat) (x : KeySlot) : (d.setKey k x).med = d.med := rfl
@[simp] theorem Dev.setKey_cls (d : Dev) (k : Nat) (x : KeySlot) : (d.setKey k x).cls = d.cls := rfl
@[simp] theorem Dev.setKey_pair (d : Dev) (k : Nat) (x : KeySlot) : (d.setKey k x).pair = d.pair := rfl
@[simp] theorem Dev.setKey_strap (d : Dev) (k : Nat) (x : KeySlot) : (d.setKey k x).strap = d.strap := rfl
@[simp] theorem Dev.setKey_sramReady (d : Dev) (k : Nat) (x : KeySlot) : (d.setKey k x).sramReady = d.sramReady := rfl
@[simp] theorem Dev.setKey_free (d : Dev) (k : Nat) (x : KeySlot) : (d.setKey k x).free = d.free := rfl
@[simp] theorem Dev.setKey_uptime (d : Dev) (k : Nat) (x : KeySlot) : (d.setKey k x).uptime = d.uptime := rfl
@[simp] theorem Dev.setKey_rd (d : Dev) (k : Nat) (x : KeySlot) (g : Fld) : (d.setKey k x).rd g = d.rd g := rfl

/-- Setting fields changes the fields alone. -/
@[simp] theorem Dev.wrs_held32 (d : Dev) (l : List (Fld × Nat)) : (d.wrs l).held32 = d.held32 := by
  induction l generalizing d with
  | nil => rfl
  | cons p ps ih => exact ih _
@[simp] theorem Dev.wrs_capt32 (d : Dev) (l : List (Fld × Nat)) : (d.wrs l).capt32 = d.capt32 := by
  induction l generalizing d with
  | nil => rfl
  | cons p ps ih => exact ih _
@[simp] theorem Dev.wrs_boot (d : Dev) (l : List (Fld × Nat)) : (d.wrs l).boot = d.boot := by
  induction l generalizing d with
  | nil => rfl
  | cons p ps ih => exact ih _
@[simp] theorem Dev.wrs_pci (d : Dev) (l : List (Fld × Nat)) : (d.wrs l).pci = d.pci := by
  induction l generalizing d with
  | nil => rfl
  | cons p ps ih => exact ih _
@[simp] theorem Dev.wrs_out (d : Dev) (l : List (Fld × Nat)) : (d.wrs l).out = d.out := by
  induction l generalizing d with
  | nil => rfl
  | cons p ps ih => exact ih _
@[simp] theorem Dev.wrs_mem (d : Dev) (l : List (Fld × Nat)) : (d.wrs l).mem = d.mem := by
  induction l generalizing d with
  | nil => rfl
  | cons p ps ih => exact ih _
@[simp] theorem Dev.wrs_keys (d : Dev) (l : List (Fld × Nat)) : (d.wrs l).keys = d.keys := by
  induction l generalizing d with
  | nil => rfl
  | cons p ps ih => exact ih _
@[simp] theorem Dev.wrs_ctxs (d : Dev) (l : List (Fld × Nat)) : (d.wrs l).ctxs = d.ctxs := by
  induction l generalizing d with
  | nil => rfl
  | cons p ps ih => exact ih _
@[simp] theorem Dev.wrs_queues (d : Dev) (l : List (Fld × Nat)) : (d.wrs l).queues = d.queues := by
  induction l generalizing d with
  | nil => rfl
  | cons p ps ih => exact ih _
@[simp] theorem Dev.wrs_issueSeq (d : Dev) (l : List (Fld × Nat)) : (d.wrs l).issueSeq = d.issueSeq := by
  induction l generalizing d with
  | nil => rfl
  | cons p ps ih => exact ih _
@[simp] theorem Dev.wrs_lastIssue (d : Dev) (l : List (Fld × Nat)) : (d.wrs l).lastIssue = d.lastIssue := by
  induction l generalizing d with
  | nil => rfl
  | cons p ps ih => exact ih _
@[simp] theorem Dev.wrs_prgs (d : Dev) (l : List (Fld × Nat)) : (d.wrs l).prgs = d.prgs := by
  induction l generalizing d with
  | nil => rfl
  | cons p ps ih => exact ih _
@[simp] theorem Dev.wrs_prgWait (d : Dev) (l : List (Fld × Nat)) : (d.wrs l).prgWait = d.prgWait := by
  induction l generalizing d with
  | nil => rfl
  | cons p ps ih => exact ih _
@[simp] theorem Dev.wrs_invals (d : Dev) (l : List (Fld × Nat)) : (d.wrs l).invals = d.invals := by
  induction l generalizing d with
  | nil => rfl
  | cons p ps ih => exact ih _
@[simp] theorem Dev.wrs_evt (d : Dev) (l : List (Fld × Nat)) : (d.wrs l).evt = d.evt := by
  induction l generalizing d with
  | nil => rfl
  | cons p ps ih => exact ih _
@[simp] theorem Dev.wrs_tiles (d : Dev) (l : List (Fld × Nat)) : (d.wrs l).tiles = d.tiles := by
  induction l generalizing d with
  | nil => rfl
  | cons p ps ih => exact ih _
@[simp] theorem Dev.wrs_saved (d : Dev) (l : List (Fld × Nat)) : (d.wrs l).saved = d.saved := by
  induction l generalizing d with
  | nil => rfl
  | cons p ps ih => exact ih _
@[simp] theorem Dev.wrs_ecc (d : Dev) (l : List (Fld × Nat)) : (d.wrs l).ecc = d.ecc := by
  induction l generalizing d with
  | nil => rfl
  | cons p ps ih => exact ih _
@[simp] theorem Dev.wrs_writeQ (d : Dev) (l : List (Fld × Nat)) : (d.wrs l).writeQ = d.writeQ := by
  induction l generalizing d with
  | nil => rfl
  | cons p ps ih => exact ih _
@[simp] theorem Dev.wrs_atsOut (d : Dev) (l : List (Fld × Nat)) : (d.wrs l).atsOut = d.atsOut := by
  induction l generalizing d with
  | nil => rfl
  | cons p ps ih => exact ih _
@[simp] theorem Dev.wrs_atsWait (d : Dev) (l : List (Fld × Nat)) : (d.wrs l).atsWait = d.atsWait := by
  induction l generalizing d with
  | nil => rfl
  | cons p ps ih => exact ih _
@[simp] theorem Dev.wrs_waitCount (d : Dev) (l : List (Fld × Nat)) : (d.wrs l).waitCount = d.waitCount := by
  induction l generalizing d with
  | nil => rfl
  | cons p ps ih => exact ih _
@[simp] theorem Dev.wrs_preQ (d : Dev) (l : List (Fld × Nat)) : (d.wrs l).preQ = d.preQ := by
  induction l generalizing d with
  | nil => rfl
  | cons p ps ih => exact ih _
@[simp] theorem Dev.wrs_pwr (d : Dev) (l : List (Fld × Nat)) : (d.wrs l).pwr = d.pwr := by
  induction l generalizing d with
  | nil => rfl
  | cons p ps ih => exact ih _
@[simp] theorem Dev.wrs_tb (d : Dev) (l : List (Fld × Nat)) : (d.wrs l).tb = d.tb := by
  induction l generalizing d with
  | nil => rfl
  | cons p ps ih => exact ih _
@[simp] theorem Dev.wrs_vp (d : Dev) (l : List (Fld × Nat)) : (d.wrs l).vp = d.vp := by
  induction l generalizing d with
  | nil => rfl
  | cons p ps ih => exact ih _
@[simp] theorem Dev.wrs_card (d : Dev) (l : List (Fld × Nat)) : (d.wrs l).card = d.card := by
  induction l generalizing d with
  | nil => rfl
  | cons p ps ih => exact ih _
@[simp] theorem Dev.wrs_cbp (d : Dev) (l : List (Fld × Nat)) : (d.wrs l).cbp = d.cbp := by
  induction l generalizing d with
  | nil => rfl
  | cons p ps ih => exact ih _
@[simp] theorem Dev.wrs_med (d : Dev) (l : List (Fld × Nat)) : (d.wrs l).med = d.med := by
  induction l generalizing d with
  | nil => rfl
  | cons p ps ih => exact ih _
@[simp] theorem Dev.wrs_cls (d : Dev) (l : List (Fld × Nat)) : (d.wrs l).cls = d.cls := by
  induction l generalizing d with
  | nil => rfl
  | cons p ps ih => exact ih _
@[simp] theorem Dev.wrs_pair (d : Dev) (l : List (Fld × Nat)) : (d.wrs l).pair = d.pair := by
  induction l generalizing d with
  | nil => rfl
  | cons p ps ih => exact ih _
@[simp] theorem Dev.wrs_strap (d : Dev) (l : List (Fld × Nat)) : (d.wrs l).strap = d.strap := by
  induction l generalizing d with
  | nil => rfl
  | cons p ps ih => exact ih _
@[simp] theorem Dev.wrs_sramReady (d : Dev) (l : List (Fld × Nat)) : (d.wrs l).sramReady = d.sramReady := by
  induction l generalizing d with
  | nil => rfl
  | cons p ps ih => exact ih _
@[simp] theorem Dev.wrs_free (d : Dev) (l : List (Fld × Nat)) : (d.wrs l).free = d.free := by
  induction l generalizing d with
  | nil => rfl
  | cons p ps ih => exact ih _
@[simp] theorem Dev.wrs_uptime (d : Dev) (l : List (Fld × Nat)) : (d.wrs l).uptime = d.uptime := by
  induction l generalizing d with
  | nil => rfl
  | cons p ps ih => exact ih _

/-- A field that no write of a list names keeps its value. -/
theorem Dev.rd_wrs_ne (d : Dev) (l : List (Fld × Nat)) (g : Fld) (h : ∀ p ∈ l, g.key ≠ p.1.key) : (d.wrs l).rd g = d.rd g := by
  induction l generalizing d with
  | nil => rfl
  | cons p ps ih =>
    rw [show d.wrs (p :: ps) = (d.wr p.1 p.2).wrs ps from rfl, ih _ fun x hx => h x (List.mem_cons_of_mem _ hx)]
    exact Machine.rd_wr_ne _ _ (h p List.mem_cons_self)

/-! ### Updates of the always-on domain -/

@[simp] theorem Aon.wr_ref25 (x : Aon) (f : Fld) (v : Nat) : (x.wr f v).ref25 = x.ref25 := rfl
@[simp] theorem Aon.wr_resetN (x : Aon) (f : Fld) (v : Nat) : (x.wr f v).resetN = x.resetN := rfl
@[simp] theorem Aon.wr_perstN (x : Aon) (f : Fld) (v : Nat) : (x.wr f v).perstN = x.perstN := rfl
@[simp] theorem Aon.wr_testEn (x : Aon) (f : Fld) (v : Nat) : (x.wr f v).testEn = x.testEn := rfl
@[simp] theorem Aon.wr_supplyOk (x : Aon) (f : Fld) (v : Nat) : (x.wr f v).supplyOk = x.supplyOk := rfl
@[simp] theorem Aon.wr_tap (x : Aon) (f : Fld) (v : Nat) : (x.wr f v).tap = x.tap := rfl
@[simp] theorem Aon.wr_tapOut (x : Aon) (f : Fld) (v : Nat) : (x.wr f v).tapOut = x.tapOut := rfl
@[simp] theorem Aon.wr_strapped (x : Aon) (f : Fld) (v : Nat) : (x.wr f v).strapped = x.strapped := rfl
@[simp] theorem Aon.wr_sfdp (x : Aon) (f : Fld) (v : Nat) : (x.wr f v).sfdp = x.sfdp := rfl
@[simp] theorem Aon.wr_cells (x : Aon) (f : Fld) (v : Nat) : (x.wr f v).cells = x.cells := rfl
@[simp] theorem Aon.wr_captured (x : Aon) (f : Fld) (v : Nat) : (x.wr f v).captured = x.captured := rfl
@[simp] theorem Aon.wr_sent (x : Aon) (f : Fld) (v : Nat) : (x.wr f v).sent = x.sent := rfl
@[simp] theorem Aon.wr_adcNext (x : Aon) (f : Fld) (v : Nat) : (x.wr f v).adcNext = x.adcNext := rfl
@[simp] theorem Aon.wr_scanNo (x : Aon) (f : Fld) (v : Nat) : (x.wr f v).scanNo = x.scanNo := rfl
@[simp] theorem Aon.wr_adcRaised (x : Aon) (f : Fld) (v : Nat) : (x.wr f v).adcRaised = x.adcRaised := rfl
@[simp] theorem Aon.wr_coreCode (x : Aon) (f : Fld) (v : Nat) : (x.wr f v).coreCode = x.coreCode := rfl
@[simp] theorem Aon.wr_ballsReleased (x : Aon) (f : Fld) (v : Nat) : (x.wr f v).ballsReleased = x.ballsReleased := rfl
@[simp] theorem Aon.wr_src (x : Aon) (f : Fld) (v : Nat) : (x.wr f v).src = x.src := rfl
@[simp] theorem Aon.wr_progLen (x : Aon) (f : Fld) (v : Nat) : (x.wr f v).progLen = x.progLen := rfl
@[simp] theorem Aon.wr_past (x : Aon) (f : Fld) (v : Nat) : (x.wr f v).past = x.past := rfl
@[simp] theorem Aon.wr_wait (x : Aon) (f : Fld) (v : Nat) : (x.wr f v).wait = x.wait := rfl
@[simp] theorem Aon.wr_heldState (x : Aon) (f : Fld) (v : Nat) : (x.wr f v).heldState = x.heldState := rfl
@[simp] theorem Aon.wr_rails (x : Aon) (f : Fld) (v : Nat) : (x.wr f v).rails = x.rails := rfl
@[simp] theorem Aon.wr_enOrder (x : Aon) (f : Fld) (v : Nat) : (x.wr f v).enOrder = x.enOrder := rfl
@[simp] theorem Aon.wr_reacting (x : Aon) (f : Fld) (v : Nat) : (x.wr f v).reacting = x.reacting := rfl
@[simp] theorem Aon.wr_reactQ (x : Aon) (f : Fld) (v : Nat) : (x.wr f v).reactQ = x.reactQ := rfl
@[simp] theorem Aon.wr_faultN (x : Aon) (f : Fld) (v : Nat) : (x.wr f v).faultN = x.faultN := rfl
@[simp] theorem Aon.wr_pmb0 (x : Aon) (f : Fld) (v : Nat) : (x.wr f v).pmb0 = x.pmb0 := rfl
@[simp] theorem Aon.wr_pmb1 (x : Aon) (f : Fld) (v : Nat) : (x.wr f v).pmb1 = x.pmb1 := rfl
@[simp] theorem Aon.wr_locket (x : Aon) (f : Fld) (v : Nat) : (x.wr f v).locket = x.locket := rfl
@[simp] theorem Aon.wr_brown (x : Aon) (f : Fld) (v : Nat) : (x.wr f v).brown = x.brown := rfl
@[simp] theorem Aon.wr_therm (x : Aon) (f : Fld) (v : Nat) : (x.wr f v).therm = x.therm := rfl
@[simp] theorem Aon.wr_held32 (x : Aon) (f : Fld) (v : Nat) : (x.wr f v).held32 = x.held32 := rfl
@[simp] theorem Aon.wr_capt32 (x : Aon) (f : Fld) (v : Nat) : (x.wr f v).capt32 = x.capt32 := rfl
@[simp] theorem Aon.setRail_regs (x : Aon) (n : Nat) (r : Rail) : (x.setRail n r).regs = x.regs := rfl
@[simp] theorem Aon.setRail_ref25 (x : Aon) (n : Nat) (r : Rail) : (x.setRail n r).ref25 = x.ref25 := rfl
@[simp] theorem Aon.setRail_resetN (x : Aon) (n : Nat) (r : Rail) : (x.setRail n r).resetN = x.resetN := rfl
@[simp] theorem Aon.setRail_perstN (x : Aon) (n : Nat) (r : Rail) : (x.setRail n r).perstN = x.perstN := rfl
@[simp] theorem Aon.setRail_testEn (x : Aon) (n : Nat) (r : Rail) : (x.setRail n r).testEn = x.testEn := rfl
@[simp] theorem Aon.setRail_supplyOk (x : Aon) (n : Nat) (r : Rail) : (x.setRail n r).supplyOk = x.supplyOk := rfl
@[simp] theorem Aon.setRail_tap (x : Aon) (n : Nat) (r : Rail) : (x.setRail n r).tap = x.tap := rfl
@[simp] theorem Aon.setRail_tapOut (x : Aon) (n : Nat) (r : Rail) : (x.setRail n r).tapOut = x.tapOut := rfl
@[simp] theorem Aon.setRail_strapped (x : Aon) (n : Nat) (r : Rail) : (x.setRail n r).strapped = x.strapped := rfl
@[simp] theorem Aon.setRail_sfdp (x : Aon) (n : Nat) (r : Rail) : (x.setRail n r).sfdp = x.sfdp := rfl
@[simp] theorem Aon.setRail_cells (x : Aon) (n : Nat) (r : Rail) : (x.setRail n r).cells = x.cells := rfl
@[simp] theorem Aon.setRail_captured (x : Aon) (n : Nat) (r : Rail) : (x.setRail n r).captured = x.captured := rfl
@[simp] theorem Aon.setRail_sent (x : Aon) (n : Nat) (r : Rail) : (x.setRail n r).sent = x.sent := rfl
@[simp] theorem Aon.setRail_adcNext (x : Aon) (n : Nat) (r : Rail) : (x.setRail n r).adcNext = x.adcNext := rfl
@[simp] theorem Aon.setRail_scanNo (x : Aon) (n : Nat) (r : Rail) : (x.setRail n r).scanNo = x.scanNo := rfl
@[simp] theorem Aon.setRail_adcRaised (x : Aon) (n : Nat) (r : Rail) : (x.setRail n r).adcRaised = x.adcRaised := rfl
@[simp] theorem Aon.setRail_coreCode (x : Aon) (n : Nat) (r : Rail) : (x.setRail n r).coreCode = x.coreCode := rfl
@[simp] theorem Aon.setRail_ballsReleased (x : Aon) (n : Nat) (r : Rail) : (x.setRail n r).ballsReleased = x.ballsReleased := rfl
@[simp] theorem Aon.setRail_src (x : Aon) (n : Nat) (r : Rail) : (x.setRail n r).src = x.src := rfl
@[simp] theorem Aon.setRail_progLen (x : Aon) (n : Nat) (r : Rail) : (x.setRail n r).progLen = x.progLen := rfl
@[simp] theorem Aon.setRail_past (x : Aon) (n : Nat) (r : Rail) : (x.setRail n r).past = x.past := rfl
@[simp] theorem Aon.setRail_wait (x : Aon) (n : Nat) (r : Rail) : (x.setRail n r).wait = x.wait := rfl
@[simp] theorem Aon.setRail_heldState (x : Aon) (n : Nat) (r : Rail) : (x.setRail n r).heldState = x.heldState := rfl
@[simp] theorem Aon.setRail_enOrder (x : Aon) (n : Nat) (r : Rail) : (x.setRail n r).enOrder = x.enOrder := rfl
@[simp] theorem Aon.setRail_reacting (x : Aon) (n : Nat) (r : Rail) : (x.setRail n r).reacting = x.reacting := rfl
@[simp] theorem Aon.setRail_reactQ (x : Aon) (n : Nat) (r : Rail) : (x.setRail n r).reactQ = x.reactQ := rfl
@[simp] theorem Aon.setRail_faultN (x : Aon) (n : Nat) (r : Rail) : (x.setRail n r).faultN = x.faultN := rfl
@[simp] theorem Aon.setRail_pmb0 (x : Aon) (n : Nat) (r : Rail) : (x.setRail n r).pmb0 = x.pmb0 := rfl
@[simp] theorem Aon.setRail_pmb1 (x : Aon) (n : Nat) (r : Rail) : (x.setRail n r).pmb1 = x.pmb1 := rfl
@[simp] theorem Aon.setRail_locket (x : Aon) (n : Nat) (r : Rail) : (x.setRail n r).locket = x.locket := rfl
@[simp] theorem Aon.setRail_brown (x : Aon) (n : Nat) (r : Rail) : (x.setRail n r).brown = x.brown := rfl
@[simp] theorem Aon.setRail_therm (x : Aon) (n : Nat) (r : Rail) : (x.setRail n r).therm = x.therm := rfl
@[simp] theorem Aon.setRail_held32 (x : Aon) (n : Nat) (r : Rail) : (x.setRail n r).held32 = x.held32 := rfl
@[simp] theorem Aon.setRail_capt32 (x : Aon) (n : Nat) (r : Rail) : (x.setRail n r).capt32 = x.capt32 := rfl
@[simp] theorem Aon.setRail_rd (x : Aon) (n : Nat) (r : Rail) (g : Fld) : (x.setRail n r).rd g = x.rd g := rfl

/-! ### Numbered files -/

/-- What is set is read back. -/
@[simp] theorem Dev.tile_setTile_same (d : Dev) (n : Nat) (x : Tile) : (d.setTile n x).tile n = x := by
  unfold Dev.tile Dev.setTile
  by_cases h : x = {}
  · simp [h, fget_fdel_same]
  · simp [h]

/-- Setting one leaves the others. -/
theorem Dev.tile_setTile_ne (d : Dev) {n k : Nat} (x : Tile) (h : k ≠ n) : (d.setTile n x).tile k = d.tile k := by
  unfold Dev.tile Dev.setTile
  by_cases hx : x = {}
  · simp [hx, fget_fdel_ne _ h]
  · simp [hx, fget_fset_ne _ _ h]

/-- What is set is read back. -/
@[simp] theorem Dev.queue_setQueue_same (d : Dev) (n : Nat) (x : Queue) : (d.setQueue n x).queue n = x := by
  unfold Dev.queue Dev.setQueue
  by_cases h : x = {}
  · simp [h, fget_fdel_same]
  · simp [h]

/-- Setting one leaves the others. -/
theorem Dev.queue_setQueue_ne (d : Dev) {n k : Nat} (x : Queue) (h : k ≠ n) : (d.setQueue n x).queue k = d.queue k := by
  unfold Dev.queue Dev.setQueue
  by_cases hx : x = {}
  · simp [hx, fget_fdel_ne _ h]
  · simp [hx, fget_fset_ne _ _ h]

/-- What is set is read back. -/
@[simp] theorem Dev.ctx_setCtx_same (d : Dev) (n : Nat) (x : Ctx) : (d.setCtx n x).ctx n = x := by
  unfold Dev.ctx Dev.setCtx
  by_cases h : x = {}
  · simp [h, fget_fdel_same]
  · simp [h]

/-- Setting one leaves the others. -/
theorem Dev.ctx_setCtx_ne (d : Dev) {n k : Nat} (x : Ctx) (h : k ≠ n) : (d.setCtx n x).ctx k = d.ctx k := by
  unfold Dev.ctx Dev.setCtx
  by_cases hx : x = {}
  · simp [hx, fget_fdel_ne _ h]
  · simp [hx, fget_fset_ne _ _ h]

end Sys2Proof.Machine
end

