-- ==== Sys2Proof/WellFormed.lean ====
section
/-! DEFINITION. Which commands are well formed: the ranges that the spec gives identifiers and operands (R7, R15 and the chapter of
each command). A meaning does not rest on them: outside them a command finds nothing to act on. -/

namespace Sys2Proof

/-- A requester whose context is in the range of R15. -/
def Requester.wf (r : Requester) : Bool :=
  match r with
  | .host rid => decide (rid < 2 ^ 16)
  | .mover c => decide (c < 4096)

/-- A clasp message whose chips are in the range of R15 and whose fields fit R482. -/
def ClaspMsg.wf (m : ClaspMsg) : Bool :=
  decide (m.mtype < 256) && decide (m.src < 16) && decide (m.dst < 16) && decide (m.tag < 4096) && decide (m.sctx < 4096) &&
    decide (m.offset < 2 ^ 36)

/-- Whether a command is well formed. -/
def Instr.WellFormed (i : Instr) : Bool :=
  match i with
  | .regWrite req off width _ => req.wf && decide (off < 2 ^ 26) && (width == 1 || width == 2 || width == 4 || width == 8)
  | .misalignedAccess off rid => decide (off < 2 ^ 26) && decide (rid < 2 ^ 16)
  | .reg64LowRead off req => req.wf && decide (off < 2 ^ 26)
  | .reg64LowWrite req off _ => req.wf && decide (off < 2 ^ 26)
  | .reg64HighWrite req off _ => req.wf && decide (off < 2 ^ 26)
  | .domainOffAccess off rid => decide (off < 2 ^ 26) && decide (rid < 2 ^ 16)
  | .powerOnReset => true
  | .aonSupplyDrop => true
  | .strapSample _ => true
  | .testEnHigh => true
  | .resetNAssert => true
  | .resetNRelease => true
  | .perstAssert => true
  | .perstDeassert => true
  | .flr => true
  | .d3hotEntry => true
  | .d3hotToD0 => true
  | .configRequest _ => true
  | .jtagBypass => true
  | .jtagIdcode => true
  | .jtagSamplePreload _ _ => true
  | .jtagExtest => true
  | .romPreamble => true
  | .seqEnd => true
  | .seqEnable => true
  | .seqDisable => true
  | .seqWait => true
  | .seqWaitExpire => true
  | .seqWaitpg => true
  | .waitpgSatisfied => true
  | .waitpgTimeout => true
  | .seqCheck => true
  | .seqJump => true
  | .seqJumpif => true
  | .seqMargin => true
  | .marginDone _ => true
  | .seqLog => true
  | .progTimeout => true
  | .armTimerExpire ch => decide (ch < 24)
  | .seqPgRise ch => decide (ch < 24)
  | .seqPgFall ch => decide (ch < 24)
  | .pgLost ch => decide (ch < 24)
  | .adcConversion input code => decide (input < 32) && decide (code < 4096)
  | .retryRail ch => decide (ch < 24)
  | .retryBackoffExpire ch => decide (ch < 24)
  | .retryPgTimeout ch => decide (ch < 24)
  | .retryHealthyExpire ch => decide (ch < 24)
  | .groupShutdown g => decide (g < 8)
  | .groupOffdlyExpire => true
  | .systemReset => true
  | .sysresetOffStep => true
  | .sysresetWaitExpire => true
  | .rstCountClear => true
  | .swreset req => req.wf
  | .hostMargin ch _ req => req.wf && decide (ch < 24)
  | .faultnRelease => true
  | .faultnReleaseCheck _ => true
  | .faultnExt => true
  | .faultnGuardExpire => true
  | .faultnStuck => true
  | .pmbPoll ch _ _ _ _ => decide (ch < 24)
  | .pmbAlert bus ch _ => decide (bus < 2) && decide (ch < 24)
  | .pmbTransactionDone bus _ => decide (bus < 2)
  | .pmbStuck bus => decide (bus < 2)
  | .pmbRecoveryTimer bus _ => decide (bus < 2)
  | .locketNorOpDone _ => true
  | .locketEraseDone _ => true
  | .locketOpTimeout => true
  | .locketStartupScan => true
  | .locketRead idx req => req.wf && decide (idx < 4096)
  | .locketReadDone => true
  | .gaugeTick => true
  | .vinSenseTrip _ => true
  | .brownoutRailOff => true
  | .brownoutRestart => true
  | .thermalTrip _ _ => true
  | .thermtripRailOff => true
  | .sfdpDiscovery _ => true
  | .norReadTimeout _ => true
  | .bootHeaderReadDone bytes => (bytes.length == 64)
  | .bootImageReadDone _ => true
  | .bootVerifyDone => true
  | .bootConfig => true
  | .dramWorkStart => true
  | .dramTrainingDone _ => true
  | .dramInitDone => true
  | .standaloneStart => true
  | .standaloneLoad => true
  | .standingGo req => req.wf
  | .wdtKick _ req => req.wf
  | .watchdogExpire => true
  | .bar2Resize k => decide (k ≤ 16)
  | .bar2Read _ _ rid => decide (rid < 2 ^ 16)
  | .bar2Write _ rid _ => decide (rid < 2 ^ 16)
  | .p2pWrite rid _ _ => decide (rid < 2 ^ 16)
  | .apertureEnable k req => req.wf && decide (k < 8)
  | .msixTableWrite _ _ _ req => req.wf
  | .moverCompletion q _ _ _ _ => decide (q < 64)
  | .sharedSramClear => true
  | .scrubRead _ _ _ => true
  | .keySlotLoad slot req => req.wf && decide (slot < 256)
  | .zeroize slot req => req.wf && decide (slot < 256)
  | .keySlotQuery slot req => req.wf && decide (slot < 256)
  | .create req => req.wf
  | .destroy req => req.wf
  | .bind req => req.wf
  | .unbind req => req.wf
  | .setRoot req => req.wf
  | .pin req => req.wf
  | .unpin req => req.wf
  | .unpinComplete ctx _ => decide (ctx < 4096)
  | .ctxQuery req => req.wf
  | .pageWalkDone q _ _ _ => decide (q < 64)
  | .killRevocationDone ctx => decide (ctx < 4096)
  | .atsCompletion q _ _ _ _ _ _ _ => decide (q < 64)
  | .priResponse _ _ => true
  | .priTimeout _ => true
  | .atsInvalidate _ _ _ _ => true
  | .invalidateReadsDrained => true
  | .graceExpire q => decide (q < 64)
  | .preempt req => req.wf
  | .preemptStopDone q => decide (q < 64)
  | .preemptSaveDone q => decide (q < 64)
  | .preemptClearDone q _ => decide (q < 64)
  | .restoreStart q => decide (q < 64)
  | .restoreDone q _ => decide (q < 64)
  | .resume req => req.wf
  | .kill req => req.wf
  | .setSpill req => req.wf
  | .clearSpill req => req.wf
  | .preemptQuery req => req.wf
  | .evtRingEnable _ req => req.wf
  | .evtHeadWrite head req => req.wf && decide (head < 2 ^ 16)
  | .savePoolWrite _ req => req.wf
  | .doorbell req q tail => req.wf && decide (q < 64) && decide (tail < 2 ^ 16)
  | .queueEnable req q _ => req.wf && decide (q < 64)
  | .queueDisable req q => req.wf && decide (q < 64)
  | .queueResume req q => req.wf && decide (q < 64)
  | .semValWrite req sem _ => req.wf && decide (sem < 4096)
  | .semCfgWrite req sem _ => req.wf && decide (sem < 4096)
  | .descriptorFetch q _ _ => decide (q < 64)
  | .reservedOpcode q => decide (q < 64)
  | .nop q => decide (q < 64)
  | .dma q => decide (q < 64)
  | .dmaComplete q _ => decide (q < 64)
  | .dispatchAcquire q => decide (q < 64)
  | .dispatchRun q => decide (q < 64)
  | .dispatchRelease q => decide (q < 64)
  | .leaseGrant q => decide (q < 64)
  | .tileClearDone n => decide (n < 16)
  | .fence q => decide (q < 64)
  | .fenceFlushDone q => decide (q < 64)
  | .signalAdd q => decide (q < 64)
  | .signalSet q => decide (q < 64)
  | .wait q => decide (q < 64)
  | .waitTimeout q => decide (q < 64)
  | .waitPosition q _ => decide (q < 64)
  | .atPosition q _ => decide (q < 64)
  | .verdictWrite q _ => decide (q < 64)
  | .gateArm q _ => decide (q < 64)
  | .prefetch q => decide (q < 64)
  | .advise q => decide (q < 64)
  | .tableUpdate q => decide (q < 64)
  | .powerHint q => decide (q < 64)
  | .cardReadRecipe q => decide (q < 64)
  | .cardReadPartition q => decide (q < 64)
  | .claspBarrier q => decide (q < 64)
  | .mirrorCommit q _ => decide (q < 64)
  | .shutterClose n => decide (n < 16)
  | .shutterWakeStart n => decide (n < 16)
  | .shutterWakeDone n => decide (n < 16)
  | .tileEnd n => decide (n < 16)
  | .tileNop n => decide (n < 16)
  | .br n => decide (n < 16)
  | .bcc n => decide (n < 16)
  | .jr n => decide (n < 16)
  | .loop n => decide (n < 16)
  | .add n => decide (n < 16)
  | .sub n => decide (n < 16)
  | .and n => decide (n < 16)
  | .or n => decide (n < 16)
  | .xor n => decide (n < 16)
  | .shl n => decide (n < 16)
  | .shr n => decide (n < 16)
  | .sra n => decide (n < 16)
  | .mul n => decide (n < 16)
  | .min n => decide (n < 16)
  | .max n => decide (n < 16)
  | .addi n => decide (n < 16)
  | .li n => decide (n < 16)
  | .lih n => decide (n < 16)
  | .ld n => decide (n < 16)
  | .st n => decide (n < 16)
  | .storeComplete n => decide (n < 16)
  | .get n => decide (n < 16)
  | .put n => decide (n < 16)
  | .seta n => decide (n < 16)
  | .setb n => decide (n < 16)
  | .rsv n => decide (n < 16)
  | .rsvGrant n => decide (n < 16)
  | .mma n => decide (n < 16)
  | .mmaRendezvous n => decide (n < 16)
  | .passDrainComplete n => decide (n < 16)
  | .convert n => decide (n < 16)
  | .convertStart n => decide (n < 16)
  | .convertComplete n => decide (n < 16)
  | .vop n => decide (n < 16)
  | .twait n => decide (n < 16)
  | .twaitSatisfied n => decide (n < 16)
  | .gbar n => decide (n < 16)
  | .gbarRelease n => decide (n < 16)
  | .rendezvousDeadlock n => decide (n < 16)
  | .vnop n => decide (n < 16)
  | .vld n => decide (n < 16)
  | .vst n => decide (n < 16)
  | .vmov n => decide (n < 16)
  | .vgetr n => decide (n < 16)
  | .vflags n => decide (n < 16)
  | .vadd n => decide (n < 16)
  | .vsub n => decide (n < 16)
  | .vmul n => decide (n < 16)
  | .vfma n => decide (n < 16)
  | .vmax n => decide (n < 16)
  | .vmin n => decide (n < 16)
  | .vmaxnum n => decide (n < 16)
  | .vminnum n => decide (n < 16)
  | .vsgnAbs n => decide (n < 16)
  | .vsgnNeg n => decide (n < 16)
  | .vsgnCopysign n => decide (n < 16)
  | .vcmp n => decide (n < 16)
  | .vsel n => decide (n < 16)
  | .exp n => decide (n < 16)
  | .exp2 n => decide (n < 16)
  | .log n => decide (n < 16)
  | .log2 n => decide (n < 16)
  | .rcp n => decide (n < 16)
  | .rsqrt n => decide (n < 16)
  | .sqrt n => decide (n < 16)
  | .div n => decide (n < 16)
  | .tanh n => decide (n < 16)
  | .sigmoid n => decide (n < 16)
  | .erf n => decide (n < 16)
  | .gelu n => decide (n < 16)
  | .redSum n => decide (n < 16)
  | .redMax n => decide (n < 16)
  | .redMin n => decide (n < 16)
  | .redMaxnum n => decide (n < 16)
  | .redMinnum n => decide (n < 16)
  | .vsmx1 n => decide (n < 16)
  | .vsmxm n => decide (n < 16)
  | .vsmx2 n => decide (n < 16)
  | .vwel1 n => decide (n < 16)
  | .vwelc n => decide (n < 16)
  | .vwelm n => decide (n < 16)
  | .powerInterval _ _ _ => true
  | .activityModelTick _ => true
  | .edcTick => true
  | .droopDetect => true
  | .droopHoldExpire => true
  | .sensorUpdate _ _ _ => true
  | .vsettleExpire => true
  | .dvfsVoltageDown => true
  | .phaseRestore req => req.wf
  | .offer _ _ => true
  | .lsMemberLost _ => true
  | .quadEdge _ _ => true
  | .pulseEdge _ => true
  | .mainsEdge _ => true
  | .indexEdge _ => true
  | .sourceLoss _ => true
  | .holdoverExpire _ => true
  | .slewComplete _ => true
  | .holdbackEnd _ => true
  | .tbEnWrite _ req _ => req.wf
  | .hostStep _ req _ => req.wf
  | .alarmFire _ slot => decide (slot < 64)
  | .verdictUpdate _ => true
  | .gateEdge _ g => decide (g < 4)
  | .waitPositionReached _ q => decide (q < 64)
  | .tbPulseStart _ => true
  | .tbPulseEnd _ => true
  | .verdictClear req => req.wf
  | .vpReadCycle a _ _ => decide (a < 1024)
  | .vpCapture => true
  | .cardDetEdge _ => true
  | .cardInserted => true
  | .cardRemoved => true
  | .cardOvercurrent => true
  | .activate req => req.wf
  | .activationTimer => true
  | .atrTimeout => true
  | .atrReceived _ _ => true
  | .ppsResponse _ => true
  | .ppsTimeout => true
  | .t1BlockReceived _ _ => true
  | .t1Timeout => true
  | .deactivate req => req.wf
  | .warmReset req => req.wf
  | .exchange req => req.wf
  | .keyLoad req => req.wf
  | .clockStop req => req.wf
  | .clockStopped => true
  | .clockRestart req => req.wf
  | .enterWide req => req.wf
  | .wideSwitchTimer => true
  | .cbpSleep req => req.wf
  | .cbpWake req => req.wf
  | .sleepIdleExpire => true
  | .raw req => req.wf
  | .iFrameReceived _ => true
  | .rFrameReceived _ => true
  | .wtxRequest _ => true
  | .resynchResponse => true
  | .sleepResponse => true
  | .wakeResponse => true
  | .frameWaitTimeout => true
  | .mount req => req.wf
  | .unmount req => req.wf
  | .flush req => req.wf
  | .append req => req.wf
  | .mediaPageReadDone bytes => (bytes.length == 18432)
  | .mediaProgramDone _ => true
  | .mediaEraseDone _ => true
  | .patrolRead => true
  | .refresh => true
  | .logFlushExpire => true
  | .logHeadSearch _ _ _ _ _ => true
  | .clsPortEnWrite p _ req => req.wf && decide (p < 4)
  | .linkUp p _ _ _ => decide (p < 4)
  | .linkFailed p _ => decide (p < 4)
  | .flitReceived p _ => decide (p < 4)
  | .replayTimeout p => decide (p < 4)
  | .messageForward _ m => m.wf
  | .write m => m.wf
  | .read m => m.wf
  | .wack m => m.wf
  | .rdata m => m.wf
  | .reject m => m.wf
  | .reqTimeout _ => true
  | .arrive m => m.wf
  | .abandon m => m.wf
  | .barrierTimeout b => decide (b < 256)
  | .hello _ _ _ _ _ _ _ => true
  | .heartbeat _ _ => true
  | .heartbeatSend => true
  | .takeover _ => true
  | .partnerLost => true
  | .aloneExpire => true
  | .mirror _ _ _ => true
  | .mirrorEnd _ _ _ _ => true
  | .mirrorAck _ => true
  | .mirrorAckTimeout => true
  | .posReq _ => true
  | .pos _ _ _ _ => true
  | .posExchangeTimer => true
  | .switchover req => req.wf
  | .switchoverCapture _ => true
  | .release _ _ => true
  | .pairSleep req => req.wf
  | .sleepMessage _ => true
  | .pairWake req => req.wf
  | .completionTimeout q _ => decide (q < 64)
  | .hostCreditsReturned _ => true
  | .pcieLinkUp _ _ _ => true
  | .ref25Loss => true
  | .ref25Return => true
  | .retryAttemptSuccess ch => decide (ch < 24)
  | .atrCharacterTimeout => true

end Sys2Proof
end

