-- ==== Sys2Proof/Tests/Slice0.lean ====
section
/-! SUPPORT. Tests: ill-formed commands that the check refuses, worked examples of the spec, and for each statement with hypotheses a
state and operands that meet them (one conjunct for each of its clauses). -/

set_option Elab.async false

namespace Sys2Proof.Tests

open Sys2Proof Sys2Proof.Machine

/-! ### Helper states -/

/-- Reset with every domain running: VDD_PERI and VDD_CORE armed, shared SRAM cleared, the straps sampled. -/
def run : State :=
  { State.reset with
    aon := { State.reset.aon.wrs [(F.SEQ_RAIL_STAT_ARMED 0, 1), (F.SEQ_RAIL_STAT_ARMED 6, 1)] with strapped := true },
    dev := { State.reset.dev with sramReady := true } }
/-- That state with the always-on domain changed. -/
def aonSt (f : Aon → Aon) : State := { run with aon := f run.aon }
/-- That state with the rest changed. -/
def devSt (f : Dev → Dev) : State := { run with dev := f run.dev }
/-- That state with fields of the always-on domain set. -/
def aonRg (l : List (Fld × Nat)) : State := aonSt fun a => a.wrs l
/-- That state with fields outside it set. -/
def devRg (l : List (Fld × Nat)) : State := devSt fun d => d.wrs l

theorem test_run : run.periRuns = true ∧ run.coreRuns = true ∧ State.reset.periRuns = false := by decide +kernel

/-! ### Ill-formed commands -/

/-- A term outside its range for each kind of check of WellFormed. -/
theorem test_ill_formed : ∀ i ∈ ([.regWrite (.mover 4096) 0 4 0, .regWrite (.host 65536) 0 4 0, .regWrite (.host 0) (2 ^ 26) 4 0,
    .regWrite (.host 0) 0 3 0, .misalignedAccess 1 65536, .armTimerExpire 24, .adcConversion 32 0, .adcConversion 0 4096, .groupShutdown 8,
    .pmbStuck 2, .locketRead 4096 (.host 0), .swreset (.mover 4096), .bootHeaderReadDone [], .bar2Resize 17, .apertureEnable 8 (.host 0),
    .keySlotLoad 256 (.host 0), .unpinComplete 4096 0, .nop 64, .doorbell (.host 0) 0 65536, .semValWrite (.host 0) 4096 0,
    .tileNop 16, .alarmFire 0 64, .gateEdge 0 4, .vpReadCycle 1024 true true, .barrierTimeout 256, .bar2Read 0 1 65536,
    .write { mtype := 256, src := 0, dst := 0, tag := 0, sctx := 0, offset := 0, arg := 0, data := [] },
    .write { mtype := 1, src := 16, dst := 0, tag := 0, sctx := 0, offset := 0, arg := 0, data := [] }] : List Instr),
    i.WellFormed = false := by decide +kernel

/-- Their like, in range, are well formed. -/
theorem test_well_formed : ∀ i ∈ ([.regWrite (.mover 4095) (2 ^ 26 - 1) 4 0, .regWrite (.host 65535) 0 8 0, .adcConversion 31 4095,
    .groupShutdown 7, .locketRead 4095 (.host 0), .bar2Resize 16, .nop 63, .doorbell (.host 0) 63 65535, .tileNop 15, .alarmFire 0 63,
    .gateEdge 0 3, .vpReadCycle 1023 true true, .barrierTimeout 255] : List Instr), i.WellFormed = true := by decide +kernel

/-! ### The whole machine -/

/-- R56 and the reset state: memory in its canonical form, no command waiting. -/
theorem test_reset : State.reset.dev.mem.wf = true ∧ State.reset.pending = [] := by decide +kernel
theorem wit_StepRunsFrontCommand : ({ run with pending := [.flr] } : State).pending = .flr :: [] ∧ run.pending = [] ∧ run.periRuns = true ∧
    State.reset.pending = [] ∧ State.reset.periRuns = false := by decide +kernel
theorem wit_StepShortensQueueByOne : ∃ t, step { run with pending := [.flr] } = .next t := ⟨_, rfl⟩
theorem wit_StrapsHoldUntilPowerOn : ∃ t, step { run with pending := [.flr], strap := 5 } = .next t ∧
    (∀ c, [Instr.flr].head? = some c → samplesStraps c = false) := ⟨_, rfl, by rintro c ⟨⟩; rfl⟩
theorem wit_HostSideLeavesAlwaysOn : touchesAon .d3hotEntry = false ∧ ∃ t, exec .d3hotEntry run = .next t := ⟨rfl, _, rfl⟩
theorem wit_SequencerLeavesHostSide : onlyAon .ref25Loss = true ∧ ∃ t, exec .ref25Loss run = .next t := ⟨rfl, _, rfl⟩
theorem wit_MemoryReadsBack : ((5 < 8 : Prop) ∨ 8 + 2 ≤ 5) ∧ ((10 < 8 : Prop) ∨ 8 + 2 ≤ 10) := by decide
theorem wit_MemoryFormKept : run.memForm ∧ (∃ t, exec .sharedSramClear run = .next t) ∧
    (∃ t, exec (.storeComplete 0) run = .next t) ∧ (∃ t, exec (.shutterClose 0) run = .next t) ∧
    (∃ t, exec (.tileClearDone 0) run = .next t) ∧ (∃ t, exec .powerOnReset run = .next t) ∧
    ∃ t, exec .systemReset run = .next t := ⟨(by decide : run.dev.mem.wf = true), ⟨_, rfl⟩, ⟨_, rfl⟩, ⟨_, rfl⟩, ⟨_, rfl⟩, ⟨_, rfl⟩, ⟨_, rfl⟩⟩

/-! ### Registers -/

theorem wit_RegisterWrite32 : State.reset.periRuns = false ∧ run.periRuns = true ∧
    (isHost (.host 0) && (devRg [(F.PCI_STATUS_D3, 1)]).dev.is F.PCI_STATUS_D3) = true ∧ (isHost (.host 0) && run.dev.is F.PCI_STATUS_D3) = false ∧
    inR 0x308000 0x310000 0x308000 = true ∧ inR 0x308000 0x310000 0x30FFFF = true ∧ inR 0x308000 0x310000 0x310000 = false ∧
    inR 0x310000 0x310100 0x3100FC = true ∧ (0x3100FC : Nat) % 4 = 0 ∧
    (inR 0x308000 0x310000 0x100000 = false ∧ inR 0x310000 0x310100 0x100000 = false) ∧
    (let s := aonRg [(F.SEQ_RAIL_STAT_ARMED 6, 0)]
     s.periRuns = true ∧ s.domainOff 0x600000 = true) ∧
    run.domainOff 0x3FFFFFC = false ∧ hitAt 0x3FFFFFC = none ∧
    run.domainOff 0x100000 = false ∧ ((hitAt 0x100000).any fun h => !h.reg.wide) = true ∧
    run.domainOff 8 = false ∧ (wideAt 8).isSome = true ∧ wideAt 0x100000 = none := by decide +kernel
theorem wit_Register64Halves : run.reaches (.host 0) 8 = true ∧
    ((hitAt 8).any fun h => h.reg.wide && !h.high) = true ∧ (run.setHeld 8 (some 1)).held 8 = some 1 ∧ isTileOff 8 = false ∧
    (run.setHeld 8 (some 1)).domainOff 12 = false ∧ ((hitAt 12).any fun h => h.reg.wide && h.high) = true := by decide +kernel
theorem wit_RefusedAccessesAreRecorded : run.periRuns = true ∧ run.dev.is F.PCI_STATUS_D3 = false ∧
    run.dev.rd F.PCI_ERR_FIRST = 0xFF ∧ (devRg [(F.PCI_ERR_FIRST, 3)]).dev.rd F.PCI_ERR_FIRST ≠ 0xFF ∧
    (let s := aonRg [(F.SEQ_RAIL_STAT_ARMED 6, 0)]
     s.periRuns = true ∧ s.dev.is F.PCI_STATUS_D3 = false ∧ s.domainOff 0x600000 = true) := by decide +kernel
theorem wit_LockedRegistersStay : (aonRg [(F.SEQ_CTRL_LOCK, 1)]).aon.is F.SEQ_CTRL_LOCK = true ∧ seqLocked 0x100000 = true ∧
    seqLocked 0x10015C = true := by decide +kernel

/-! ### Resets, balls, test port -/

theorem wit_PowerOnAndStraps : State.reset.aon.strapped = false ∧ State.reset.aon.supplyOk = true := by decide +kernel
theorem wit_ResetNResetsHostSide : run.aon.ballsReleased = false ∧ run.aon.resetN = true ∧
    (let s := aonSt fun a => { a with resetN := false }.setEngine stDone
     s.aon.ballsReleased = false ∧ s.aon.resetN = false ∧ s.aon.engine ≠ stLatchoff ∧ s.aon.bootReleased = true ∧ s.aon.armed 0 = true) ∧
    (let s := aonSt fun a => { a with resetN := false }.setEngine stLatchoff
     s.aon.resetN = false ∧ s.aon.engine = stLatchoff) := by decide +kernel
theorem wit_HostLinkResets : run.periRuns = true ∧ run.aon.ballsReleased = false ∧
    (devRg [(F.PCI_STATUS_D3, 1)]).periRuns = true ∧ (devRg [(F.PCI_STATUS_D3, 1)]).dev.is F.PCI_STATUS_D3 = true := by decide +kernel
theorem wit_ExtestNeedsResetLow : run.aon.supplyOk = true ∧ (∃ t, exec .jtagExtest run = .next t) ∧ run.aon.resetN = true ∧
    (aonSt fun a => { a with resetN := false }).aon.resetN = false ∧ run.aon.ballsReleased = false ∧ run.aon.testEn = false ∧
    (scanBalls.any fun b => run.aon.padOk (ballBank b) && ballIsOutput b && ballInChain b) = true :=
  ⟨rfl, ⟨_, rfl⟩, by decide +kernel, rfl, rfl, rfl, by decide +kernel⟩
theorem wit_TestPortAndPins : run.aon.supplyOk = true ∧
    (scanBalls.any fun b => (aonSt fun a => { a with testEn := true }).aon.padOk (ballBank b)) = true := by decide +kernel

/-! ### Rail sequencer -/

/-- The engine stands at index 0 of a program whose first word is `w`. -/
def seqSt (w : Nat) : State := aonSt fun a =>
  { a.wrs [(F.SEQ_STATUS_STATE, 1), (F.SEQ_PROG_WORD 0, w)] with src := .image, progLen := 4 }

theorem wit_SequencerInstructions : (∀ p ∈ [(0, 0), (1, 0x10000001), (2, 0x20FFFFFF), (3, 0x30000001), (4, 0x40000001), (5, 0x50000000),
    (6, 0x60000003), (7, 0x71000003), (8, 0x80000005), (9, 0x90FFFFFF)], (seqSt p.2).instrAt p.1 p.2 = true) ∧
    bits 0x30000001 0 16 ≠ 0 ∧ (seqSt 0x90FFFFFF).aon.locket.queue.length < 8 ∧
    8 ≤ ((seqSt 0x90FFFFFF).onAon fun a => { a with locket := { a.locket with queue := List.replicate 8 { type := 1 } } }).aon.locket.queue.length ∧
    (let s := aonSt fun a => { a.wr F.SEQ_STATUS_STATE 1 with src := .image, past := true }
     s.aon.engine = stRun ∧ s.aon.src = .image ∧ s.aon.past = true) := by decide +kernel
theorem wit_SequencerWaits :
    (run.aon.engine = stPreamble ∧ run.aon.strapped = true ∧ run.aon.pc = 0 ∧ run.aon.wait = .none ∧ run.aon.testEn = false) ∧
    (let s := aonSt fun a => { a with wait := .time }
     s.aon.wait = .time ∧ s.aon.running = true ∧ s.aon.preambleEnd = false) ∧
    (aonSt fun a => { a.wr F.SEQ_STATUS_PC 2 with wait := .time }).aon.preambleEnd = true ∧
    (let s := aonSt fun a => { (a.setRail 23 { pg := true }) with wait := .pg [23] }
     s.aon.wait = .pg [23] ∧ s.aon.running = true ∧ [23].all (fun n => (s.aon.rail n).pg) = true) ∧
    (let s := aonSt fun a => { a with wait := .pg [0] }
     s.aon.wait = .pg [0] ∧ s.aon.running = true ∧ [0].all (fun n => (s.aon.rail n).pg) = false) := by decide +kernel
theorem wit_PowerGoodAndArming :
    (let s := aonSt fun a => (a.wr (F.SEQ_RAIL_STAT_ON 23) 1).setRail 23 { armTimer := true }
     s.aon.on 23 = true ∧ (s.aon.rail 23).armTimer = true) ∧
    (let s := aonRg [(F.SEQ_RAIL_STAT_ARMED 0, 1), (F.SEQ_RAIL_CFG_PG_EN 0, 1)]
     s.aon.armed 0 = true ∧ s.aon.is (F.SEQ_RAIL_CFG_PG_EN 0) = true ∧ (s.aon.rail 0).pg = false ∧ (s.aon.rail 0).pgReported = false) := by
  decide +kernel
/-- A reaction of a channel or of none that is the next. -/
def reactSt (r : React) (ch : Option Nat) (g : Nat) : State := aonSt fun a =>
  { a.wr F.SEQ_STATUS_STATE 3 with reactQ := [{ react := r, cause := 2, ch := ch, group := g }] }
theorem wit_RailReactions :
    (reactSt .retryRail (some 5) 1).aon.nextReact = some { react := .retryRail, cause := 2, ch := some 5, group := 1 } ∧
    (reactSt .groupShutdown none 7).aon.nextReact = some { react := .groupShutdown, cause := 2, ch := none, group := 7 } ∧
    (aonSt fun a => { a.setRail 5 { retry := .backoff } with reacting := .retry 5 }).aon.retrying 5 .backoff = true ∧
    (let s := aonSt fun a => { (a.wr (F.SEQ_RAIL_CFG_PG_EN 5) 1).setRail 5 { retry := .waitPg } with reacting := .retry 5 }
     s.aon.retrying 5 .waitPg = true ∧ s.aon.is (F.SEQ_RAIL_CFG_PG_EN 5) = true) ∧
    (aonSt fun a => { a.setRail 5 { retry := .verify 0 } with reacting := .retry 5 }).aon.retrying 5 (.verify 0) = true ∧
    (let s := aonSt fun a => (a.wr (F.SEQ_RAIL_STAT_ARMED 23) 1).setRail 23 { pg := true }
     s.aon.armed 23 = true ∧ s.aon.isHealthy 23 = true ∧ (s.aon.rail 23).retry = .idle) ∧
    (aonSt fun a => { a with reacting := .group 7 [1, 2] }).aon.reacting = .group 7 (1 :: [2]) ∧
    (aonSt fun a => { a with reacting := .group 7 [1] }).aon.reacting = .group 7 [1] := by decide +kernel
theorem wit_SystemResetSteps :
    (reactSt .systemReset none 0).aon.nextReact = some { react := .systemReset, cause := 2, ch := none, group := 0 } ∧
    (aonSt fun a => { a with reacting := .sysOff [1, 2] true false }).aon.reacting = .sysOff (1 :: [2]) true false ∧
    (aonSt fun a => { a with reacting := .sysOff [1] true false }).aon.reacting = .sysOff [1] true false ∧
    (∀ b ∈ [true, false], let s := aonSt fun a => { a with reacting := .sysWait false, faultN := { a.faultN with guardWait := b } }
     s.aon.reacting = .sysWait false ∧ s.aon.faultN.guardWait = b) ∧
    (aonRg [(F.SEQ_STATUS_STATE, 3)]).aon.engine = stDone ∧ run.reaches (.host 0) 0x100000 = true ∧ run.aon.is F.SEQ_CTRL_LOCK = false ∧
    run.aon.engine ≠ stLatchoff := by decide +kernel
theorem wit_MarginsAndFaultN :
    (∀ b ∈ [0, 1], let s := aonRg [(F.SEQ_CTRL_LOCK, b)]
     s.reaches (.host 0) 0x100018 = true ∧ s.aon.is F.SEQ_CTRL_LOCK = (b == 1) ∧ s.aon.is F.SEQ_MARGIN_BUSY = false) ∧
    (aonSt fun a => { a with wait := .margin 6 20 }).aon.marginOf = some (6, 20, false) ∧
    (let s := aonRg [(F.SEQ_STATUS_FAULTN_DRIVE, 1)]
     s.aon.is F.SEQ_STATUS_FAULTN_DRIVE = true ∧ s.aon.switching = false ∧ s.aon.engine ≠ stLatchoff ∧ s.aon.therm.trip = false ∧
     s.aon.brown.tripped = false) ∧
    (let s := aonSt fun a => { a with faultN := { a.faultN with releaseCheck := true } }
     s.aon.faultN.releaseCheck = true ∧ s.aon.is F.SEQ_STATUS_FAULTN_DRIVE = false ∧ s.aon.supplyOk = true) ∧
    (∀ r ∈ [Reacting.sysGuard, .brownGuard, .latchGuard], (aonSt fun a => { a with reacting := r }).aon.reacting = r) ∧
    (aonRg [(F.SEQ_STATUS_FAULTN_LOW, 1)]).aon.is F.SEQ_STATUS_FAULTN_LOW = true := by decide +kernel
theorem wit_AdcAndPmbus :
    (run.aon.supplyOk = true ∧ run.aon.strapped = true ∧ 0 = run.aon.adcNext) ∧
    (31 = (aonSt fun a => { a with adcNext := 31 }).aon.adcNext) ∧
    (let s := aonRg [(F.SEQ_RAIL_PMB_EN 23, 1), (F.SEQ_RAIL_PMB_BUS 23, 1)]
     s.aon.is (F.SEQ_RAIL_PMB_EN 23) = true ∧ (s.aon.bus (s.aon.busOf 23)).has (PmbTxn.isPoll 23) = false ∧ (s.aon.bus 1).has PmbTxn.isAlert = false) ∧
    (let s := aonSt fun a => a.setBus 1 { txn := some (.alert 23 0) }
     (s.aon.bus 1).txn = some (.alert 23 0) ∧ (s.aon.bus 1).recovery = 0 ∧ s.aon.txnAble (.alert 23 0) = true) ∧
    (∀ b ∈ [true, false], let s := aonSt fun a => (a.wr F.SEQ_PMB_CTRL_PEC_EN 1).setBus 1 { txn := some (.alert 23 0), pecRetried := b }
     s.aon.is F.SEQ_PMB_CTRL_PEC_EN = true ∧ s.aon.txnAble (.alert 23 0) = true ∧ (s.aon.bus 1).pecRetried = b) ∧
    run.aon.degraded 1 = false ∧ (run.aon.bus 1).recovery = 0 ∧
    (∀ k ∈ [1, 2, 3], ((aonSt fun a => a.setBus 1 { recovery := k }).aon.bus 1).recovery = k) ∧
    (let s := aonSt fun a => (a.wrs [(F.SEQ_RAIL_STAT_ON 5, 1), (F.SEQ_RAIL_CFG_ESSENTIAL 5, 0)]).setBus 1 { recovery := 1, last := 5 }
     s.aon.is (F.SEQ_RAIL_CFG_ESSENTIAL 5) = false ∧ s.aon.on 5 = true) := by decide +kernel

/-! ### Locket, brown-out -/

/-- The locket changed. -/
def lktSt (f : Locket → Locket) : State := aonSt fun a => { a with locket := f a.locket }
theorem wit_LocketOperations :
    (let s := lktSt fun l => { l with prog := .body 4095 1 }
     s.aon.locket.prog = .body 4095 1 ∧ s.aon.lktYields = false ∧ s.aon.locket.prog ≠ .none) ∧
    (lktSt fun l => { l with prog := .head 0 1 }).aon.locket.prog = .head 0 1 ∧
    (let s := lktSt fun l => { l with erasing := some 63 }
     s.aon.locket.erasing ≠ none ∧ s.aon.locket.prog = .none) ∧
    (let s := aonSt fun a => { a with sfdp := some ⟨0, true, 24, true, true⟩ }
     s.aon.sfdp.isSome = true ∧ s.aon.is F.LKT_STATUS_READY = false ∧ s.aon.is F.LKT_STATUS_NOR_FAIL = false ∧ s.dev.reading = false) ∧
    run.reaches (.host 0) 0x108018 = true ∧ run.aon.rd F.LKT_RD_IDX_STATE ≠ 1 ∧ run.aon.supplyOk = true ∧
    (let s := lktSt fun l => { l with reading := some 4095 }
     s.aon.locket.reading = some 4095 ∧ s.aon.locket.newestFirst[4095]? = none) := by decide +kernel
/-- A ring with one record reads it back as record 0. -/
theorem wit_LocketOperations' :
    (lktSt fun l => { l with slots := [(63, mkRecord { type := 1, mid := 0 } 0 7 2)] }).aon.locket.newestFirst[0]? = some 63 := by decide +kernel
theorem wit_BrownoutAndThermalTrip : run.aon.supplyOk = true ∧
    (let s := aonSt fun a => { a with brown := { tripped := true, offs := [3] } }
     s.aon.brown.tripped = true ∧ s.aon.brown.offs = 3 :: []) ∧
    (let s := aonSt fun a => { a with brown := { tripped := true } }
     s.aon.brownOver = true ∧ s.aon.engine ≠ stLatchoff ∧ s.aon.therm.trip = false) ∧
    (let s := aonSt fun a => { a.setEngine stLatchoff with brown := { tripped := true } }
     s.aon.brownOver = true ∧ s.aon.engine = stLatchoff) ∧
    (let s := aonSt fun a => { a with therm := { trip := true, offs := [3, 4] } }
     s.aon.therm.trip = true ∧ s.aon.therm.recorded = false ∧ s.aon.therm.offs = 3 :: [4]) := by decide +kernel

/-! ### Boot -/

/-- The header and the CRC of a copy of no sections. -/
def imgHdr : List Byte :=
  let h := toBytes 4 0x49435A47 ++ toBytes 2 1 ++ toBytes 2 64 ++ toBytes 4 64 ++ toBytes 8 0 ++ toBytes 2 0x4816 ++ toBytes 38 2
  h ++ toBytes 4 (crc32 h).toNat
def imgAll : List Byte := imgHdr ++ toBytes 4 (crc32 imgHdr).toNat
/-- Stage `n` with what has been read of the copy; the NOR is known and the boot controller is released. -/
def bootSt (n retries : Nat) : State :=
  { aonSt (fun a => { a with sfdp := some ⟨0, true, 24, true, true⟩ }) with dev := (devSt fun d =>
    { (d.wr F.BOOT_STATUS_STAGE n) with boot := { d.boot with
      released := true, header := imgHdr, bytes := imgAll, retryAt := 5, retries := retries, copy := 1 } }).dev }
theorem wit_BootReadsImage :
    (run.aon.strapped = true ∧ run.aon.sfdp = none ∧ run.aon.is F.LKT_STATUS_NOR_FAIL = false) ∧
    (∀ n ∈ [1, 2], (bootSt n 0).norReads = true ∧ (bootSt n 0).dev.rd F.BOOT_STATUS_STAGE = n) ∧
    (bootSt 1 2).dev.boot.retries < 3 ∧ (bootSt 1 3).dev.boot.retries = 3 ∧ (bootSt 1 3).dev.boot.retryAt = 5 ∧
    imgHdr.length = 64 ∧ hdrCode imgHdr = 0 ∧ (imgHdr.set 0 0).length = 64 ∧ hdrCode (imgHdr.set 0 0) ≠ 0 ∧
    (let s := bootSt 2 0
     imgAll.length = imgLen s.dev.boot.header + s.aon.readTail s.dev.boot.header ∧
     bytesAt imgAll (imgLen s.dev.boot.header) 4 = (crc32 (imgAll.take (imgLen s.dev.boot.header))).toNat ∧
     bytesAt (imgAll.set 0 0) (imgLen s.dev.boot.header) 4 ≠ (crc32 ((imgAll.set 0 0).take (imgLen s.dev.boot.header))).toNat) ∧
    (let s := bootSt 3 0
     s.periRuns = true ∧ s.dev.rd F.BOOT_STATUS_STAGE = 3 ∧ s.aon.imageOf s.dev.boot.header s.dev.boot.bytes = .inr {} ∧ s.aon.wait ≠ .boot) := by
  decide +kernel
/-- A DRAM section of eight channels with ECC. -/
def drm : DramSec := { channels := 0xFF, rate := 8533, density := 0, ecc := true, skipInit := false }
/-- Training results of those channels, of which channel 7 fails as `ok` says. -/
def trn (ok : Bool) : List (Nat × Nat × Bool) := (List.range 8).map fun k => (k, if k = 7 && !ok then 3 else 1, k != 7 || ok)
def dramSt (training initing : Bool) : State := devSt fun d =>
  { d with boot := { d.boot with image := { d.boot.image with dram := some drm }, training := training, initing := initing } }
theorem wit_BootConfiguresAndTrainsDram :
    (let s : State := { aonRg [(F.SEQ_STATUS_STATE, 3)] with dev := (devRg [(F.BOOT_STATUS_STAGE, 4)]).dev }
     s.periRuns = true ∧ s.dev.rd F.BOOT_STATUS_STAGE = 4 ∧ s.aon.engine = stDone ∧ s.dev.boot.image = {}) ∧
    (let s : State := { dramSt false false with aon := (aonRg ((List.range 24).map fun n => (F.SEQ_RAIL_STAT_ARMED n, 1))).aon }
     s.dev.boot.image.dram = some drm ∧ s.dev.boot.dramArmed = false ∧ s.aon.group1On = true) ∧
    (dramSt true false).dev.boot.training = true ∧ drm.trained (trn true) = true ∧ (trn true).all (·.2.2) = true ∧
    drm.trained (trn false) = true ∧ (trn false).all (·.2.2) = false ∧ (dramSt false true).dev.boot.initing = true ∧
    drm.skipInit = false := by decide +kernel
/-- The worked example of chapter 07: 16 GiB with ECC on 32 channels is 15.5 GiB. -/
theorem test_visible_dram : ({ drm with channels := 0xFFFFFFFF } : DramSec).size = 0x3E0000000 := by decide +kernel
theorem wit_VisibleDramSize : drm.ecc = true ∧ ({ drm with ecc := false } : DramSec).ecc = false := by decide
def stnd : Standing := { recipe := 1, base := 0, max := 4096, retry := false, hostGo := false, key := 0, queues := [] }
/-- The image has a STANDING section. -/
def standSt (l : List (Fld × Nat)) : State :=
  { aonRg [(F.SEQ_RAIL_STAT_ARMED 9, 1), (F.SEQ_RAIL_STAT_ARMED 10, 1)] with
    dev := (devSt fun d => { d.wrs l with boot := { d.boot with image := { d.boot.image with standing := some stnd } } }).dev }
theorem wit_StandaloneStartAndWatchdog :
    (∀ f ∈ [0, 1], let s := standSt [(F.BOOT_STATUS_DRAM_FAIL, f)]
     s.periRuns = true ∧ s.strapBoot ≠ 2 ∧ s.dev.boot.image.standing = some stnd ∧ s.crdOn = true ∧ s.dev.rd F.BOOT_STANDING_STATE = 0 ∧
     s.dev.is F.BOOT_STATUS_DRAM_FAIL = (f == 1)) ∧
    (let s := standSt [(F.BOOT_STANDING_STATE, 1), (F.MED_STATUS_STATE, 2), (F.BOOT_STATUS_DRAM_READY, 1)]
     s.dev.boot.image.standing = some stnd ∧ s.dev.rd F.BOOT_STANDING_STATE = 1 ∧ s.dev.rd F.MED_STATUS_STATE = 2 ∧
     s.dev.is F.BOOT_STATUS_DRAM_READY = true ∧ s.dev.is F.BOOT_STATUS_DRAM_FAIL = false ∧ s.dev.keyOk stnd.key = true) ∧
    (let s := devRg [(F.BOOT_STANDING_STATE, 4)]
     s.reaches (.host 0) 0x200014 = true ∧ s.reaches (.host 0) 0x20001C = true ∧ s.dev.rd F.BOOT_STANDING_STATE = 4) ∧
    (let s := devSt fun d => { d.wr F.BOOT_WDT_PERIOD 1 with boot := { d.boot with wdtRun := true } }
     s.periRuns = true ∧ s.dev.boot.wdtRun = true ∧ s.dev.rd F.BOOT_WDT_PERIOD ≠ 0) := by decide +kernel

/-! ### Host interface -/

theorem wit_HostAccesses : (devRg [(F.BOOT_STATUS_STAGE, 6)]).periRuns = true ∧ (devRg [(F.BOOT_STATUS_STAGE, 6)]).dev.cfgReady = true ∧
    run.dev.cfgReady = false ∧ (∀ f, CfgReq.setMemEnable true ≠ .read f) ∧
    run.dev.pci.memEnable = false ∧ (devSt fun d => { d with pci := { d.pci with memEnable := true } }).dev.pci.memEnable = true ∧
    (devRg [(F.PCI_STATUS_D3, 1)]).dev.is F.PCI_STATUS_D3 = true ∧
    (let s := devRg [(F.PCI_BAR2_CTRL_EN, 1), (F.PCI_BAR2_BASE_BASE, sramBase / 2 ^ 20)]
     s.dev.is F.PCI_STATUS_D3 = false ∧ s.dev.bar2Ok (s.dev.bar2Target 0) 4 = true ∧ s.dev.badGran (s.dev.bar2Target 0) 4 = none ∧
     s.dev.apMatch 0 = [] ∧ lastOn [none, some 1] ≠ 0 ∧ lastOn [none] = 0 ∧
     (let t := s.onDev fun d => { d with ecc := [(s.dev.bar2Target 0, .poison)] }
      t.dev.bar2Ok (t.dev.bar2Target 0) 4 = true ∧ t.dev.badGran (t.dev.bar2Target 0) 4 = some (t.dev.bar2Target 0))) ∧
    run.dev.is F.PCI_STATUS_D3 = false ∧ run.dev.bar2Ok (run.dev.bar2Target 0) 4 = false ∧
    (∀ e ∈ [0, 1], let s := devRg [(F.PCI_BAR2_CTRL_EN, e), (F.PCI_BAR2_BASE_BASE, sramBase / 2 ^ 20), (F.PCI_AP_CTL_EN 7, 1),
       (F.PCI_AP_BASE_ADDR 7, sramBase), (F.PCI_AP_LIMIT_ADDR 7, sramBase + 4095)]
     let p := s.dev.bar2Target 0
     s.dev.apMatch 0 = [7] ∧ s.dev.inAp 7 (spanOn p [some 1]).1 (spanOn p [some 1]).2 = true ∧ s.dev.bar2Takes p [some 1] = (e == 1) ∧
     s.dev.inAp 7 (spanOn (p + 4096) [some 1]).1 (spanOn (p + 4096) [some 1]).2 = false) ∧
    (let s := aonSt fun a => { a.wr (F.SEQ_RAIL_STAT_ARMED 7) 1 with perstN := true }
     s.aon.perstN = true ∧ s.aon.armed 7 = true) := ⟨by decide +kernel, by decide +kernel, by decide +kernel, by rintro f ⟨⟩, by decide +kernel⟩
/-- The read of descriptor 5 of queue 63 that waits for its completion, of a descriptor that lives or not. -/
def hrd (l : Bool) : HRead := { q := 63, idx := 5, seq := 0, elem := 0, va := 2 ^ 47, src := { addr := 4096 }, len := 4, live := l }
/-- Queue 63 has issued a descriptor, and its read is out. -/
def rdSt (l : Bool) : State := devSt fun d =>
  { d.setQueue 63 { issued := [{ idx := 5, d := 1, seq := 0 }] } with pci := { d.pci with reads := [hrd l] } }
theorem wit_HostChannels :
    (run.reaches (.host 0) (0x300444 + 32 * 7) = true ∧ run.dev.is (F.PCI_AP_CTL_EN 7) = false) ∧ run.reaches (.host 0) 0x308000 = true ∧
    (∀ l ∈ [true, false], (rdSt l).coreRuns = true ∧
      ((rdSt l).dev.pci.reads.find? fun x => x.q == 63 && x.idx == 5 && x.src.addr == 4096) = some (hrd l) ∧
      ((rdSt l).dev.pci.reads.find? fun x => x.q == 63 && x.idx == 5) = some (hrd l) ∧ (hrd l).live = l) ∧
    ((rdSt true).dev.readDone (hrd true)).bySeq 63 0 = some { idx := 5, d := 1, seq := 0 } ∧
    (run.periRuns = true ∧ (run.dev.collect fun _ i => i.endAs.isSome) = [] ∧ run.dev.invals = [] ∧ run.dev.pci.stalled = []) ∧
    (devSt fun d => { d with pci := { d.pci with stalled := [{ out := .unsupported }] } }).dev.pci.stalled = [{ out := .unsupported }] := by
  decide +kernel

/-! ### Memory, keys, contexts -/

theorem wit_SramAndScrub :
    (let s := devSt fun d => { d with sramReady := false }
     s.periRuns = true ∧ s.aon.armed 6 = true ∧ s.dev.sramReady = false) ∧
    (let s := devRg [(F.MEM_SCRUB_PERIOD, 1), (F.MEM_CFG_ECC, 1), (F.MEM_SIZE_BYTES, 0x1000000)]
     s.dev.rd F.MEM_SCRUB_PERIOD ≠ 0 ∧ s.dev.is F.MEM_CFG_ECC = true ∧ 0xFFFFFF < s.dev.memSize ∧
     s.dev.badGran (0xFFFFFF / 64 * 64) 64 = none ∧ s.dev.is F.CMD_EVT_CTRL_EN = false ∧ s.dev.is F.MEM_ECC_STAT_UE = false) ∧
    (devRg [(F.MEM_SCRUB_PERIOD, 0)]).dev.rd F.MEM_SCRUB_PERIOD = 0 ∧
    (([Upset.mem 0 true].foldl State.upset (devRg [(F.MEM_CFG_ECC, 0)])).dev.is F.MEM_CFG_ECC = false) := by decide +kernel
theorem wit_KeyCommands : run.reaches (.host 0) 0x400040 = true ∧ (devRg [(F.GLB_FUSE_ENC_EN, 1)]).reaches (.host 0) 0x400040 = true ∧
    (devRg [(F.GLB_FUSE_ENC_EN, 1)]).dev.keyResult 0 255 = 0 ∧ run.dev.keyResult 1 1 = 0 ∧ run.dev.keyResult 2 255 = 0 ∧
    (devRg [(F.GLB_FUSE_ENC_EN, 0)]).dev.keyResult 0 255 ≠ 0 := by decide +kernel

/-- Context `c` is `x` and selected. -/
def ctxSt (c : Nat) (x : Ctx) (l : List (Fld × Nat)) : State := devSt fun d =>
  (d.wrs ((F.MMU_CTX_SEL_CTX, c) :: (F.CMD_PRE_SEL_CTX, c) :: l)).setCtx c x
theorem wit_ContextOperations :
    (let s := ctxSt 4095 {} [(F.MEM_SIZE_BYTES, 0x1000000), (F.CMD_SAVE_POOL_SIZE, 1)]
     s.reaches (.host 0) 0x500014 = true ∧ s.dev.is F.MMU_CTX_CMD_BUSY = false ∧ s.dev.sel = 4095 ∧ (s.dev.ctx 4095).state = 0 ∧
     s.dev.inMem s.dev.rootArg 4096 = true ∧ s.dev.freeRec = some 1) ∧
    (let s := ctxSt 1 { state := 2 } []
     s.dev.active 1 = false ∧ (s.dev.ctx 1).state ≠ 0 ∧ (s.dev.ctx 1).revoking = false) ∧
    (let s := ctxSt 1 { state := 1 } [(F.MEM_SIZE_BYTES, 0x1000000)]
     s.dev.active 1 = true ∧ (s.dev.ctx 1).pasid = none ∧ s.dev.pasidTaken 1 (s.dev.rd F.MMU_CTX_PASID_PASID) = false ∧
     s.dev.inMem s.dev.rootArg 4096 = true ∧ (s.dev.flying 1 fun _ => true) = false) ∧
    (let s := ctxSt 1 { state := 1, pasid := some 3 } []
     s.dev.active 1 = true ∧ (s.dev.ctx 1).pasid ≠ none ∧ s.dev.flying 1 hostHalf = false) := by decide +kernel
/-- A tile that executes an operation of context 1. -/
def busyTile : Tile := { shutter := .opened, opseq := 1, vq := [{ w := 0, ra := 0, rb := 0, rc := 0, seq := 0, n := 0 }] }
theorem wit_PinWindows :
    (let s := ctxSt 1 { state := 1 } [(F.MMU_PIN_LEN_LEN, 2 ^ 24), (F.MMU_PIN_IDX_IDX, 3)]
     s.reaches (.host 0) 0x500014 = true ∧ s.dev.is F.MMU_CTX_CMD_BUSY = false ∧ s.dev.sel = 1 ∧ s.dev.active 1 = true ∧
     s.dev.rd F.MMU_PIN_IDX_IDX = 3 ∧ s.dev.rd F.MMU_PIN_LEN_LEN ≠ 0 ∧ s.dev.rd F.MMU_PIN_LEN_LEN ≤ 2 ^ 24 ∧
     (s.dev.rd F.MMU_PIN_VA_VA + s.dev.rd F.MMU_PIN_LEN_LEN) * 4096 ≤ 2 ^ 47 ∧ fget (s.dev.ctx 1).pins 3 = none) ∧
    (let s := ctxSt 1 { state := 1, pins := [(0, { base := 0, len := 4096, key := 0, w := true, va := 0 })], unpin := some 0 } []
     s.coreRuns = true ∧ fget (s.dev.ctx 1).pins 0 ≠ none ∧ s.dev.quiet (s.dev.tileMarks 1) = true ∧ (s.dev.ctx 1).unpin = some 0 ∧
     s.dev.quiet (s.dev.ctx 1).marks = true ∧ s.dev.rd F.MMU_CTX_CMD_OP ≠ 5 ∧
     (let t := s.onDev fun d => (d.wrs [(F.CMD_TILE_LEASED 15, 1), (F.CMD_TILE_CTX 15, 1), (F.Q_CFG_CTX 0, 1)]).setTile 15 busyTile
      t.dev.quiet (t.dev.tileMarks 1) = false)) := by decide +kernel

/-- The descriptor of opcode `op` with fields, each a byte offset, a bit and a value. -/
def mkD (op : Nat) (l : List (Nat × Nat × Nat)) : Desc := BitVec.ofNat 512 (l.foldl (fun a f => a + f.2.2 * 2 ^ (8 * f.1 + f.2.1)) op)
/-- Queue `q` of context 1 is enabled, with `x` at its head and fields set. -/
def hdSt (q : Nat) (x : Desc) (l : List (Fld × Nat)) : State := devSt fun d =>
  ((d.wrs ((F.Q_STATUS_STATE q, 1) :: (F.Q_CFG_CTX q, 1) :: l)).setCtx 1 { state := 1 }).setQueue q { fetched := [x] }
/-- Queue 3 has issued `i`. -/
def isSt (i : Issued) (l : List (Fld × Nat)) : State := devSt fun d =>
  ((d.wrs ((F.Q_STATUS_STATE 3, 1) :: (F.Q_CFG_CTX 3, 1) :: l)).setCtx 1 { state := 1 }).setQueue 3 { issued := [i] }

theorem wit_MoverTranslation :
    (let i : Issued := { idx := 5, d := mkD 1 [(16, 0, 0x1000), (24, 0, 63)], seq := 0 }
     let s := isSt i []
     s.coreRuns = true ∧ s.dev.issued 3 5 = some i ∧ s.dev.moving 3 i = true ∧
     (inStream i.d 0x1000 true || inStream i.d 0x1000 false) = true ∧ (0x1000 : Nat) < 2 ^ 47 ∧ dOp i.d ≠ 0x20) ∧
    (let i : Issued := { idx := 5, d := mkD 0x20 [(8, 0, 0x1000), (16, 0, 0x1000)], seq := 0 }
     let s := isSt i []
     s.dev.issued 3 5 = some i ∧ s.dev.moving 3 i = true ∧ (inStream i.d 0x1000 true || inStream i.d 0x1000 false) = true ∧ dOp i.d = 0x20) ∧
    (let x : AtsReq := { q := 3, own := .desc 0, va := 2 ^ 47, write := false }
     (devSt fun d => { d with atsOut := [x] }).dev.atsOut.find? (fun y => y.isFor 3 (.desc 0) (2 ^ 47)) = some x) ∧
    (∀ l ∈ [true, false], let p : Prg := ⟨3, .desc 0, 1, l⟩
     fget (devSt fun d => { d with prgs := [(511, p)] }).dev.prgs 511 = some p ∧ p.live = l) ∧
    run.dev.invals = [] ∧
    (let v : Inval := { itag := 1, pasid := none, base := 2 ^ 47, size := 4096 }
     let s := devSt fun d => { d with invals := [v] }
     s.dev.invals = v :: [] ∧ v.sent = false ∧ s.dev.readsDrained = true) ∧
    ((devSt fun d => d.setCtx 1 { state := 2, revoking := true }).dev.ctx 1).revoking = true := by decide +kernel

/-! ### Pre-emption and events -/

theorem wit_PreemptionCommands :
    (let s := ctxSt 1 { state := 1, spill := some (0, 0) } [(F.MEM_SIZE_BYTES, 0x10000000)]
     s.reaches (.host 0) 0x608058 = true ∧ s.dev.is F.CMD_PRE_CMD_BUSY = false ∧ s.dev.rd F.CMD_PRE_SEL_CTX = 1 ∧ s.dev.active 1 = true ∧
     (s.dev.ctx 1).spill ≠ none ∧ s.dev.liveQueues 1 = [] ∧ s.dev.preQ = [] ∧
     s.dev.badSpill 1 (s.dev.rd F.CMD_PRE_SPILL_BASE * 65536) (s.dev.rd F.CMD_PRE_SPILL_KEY) = false ∧
     ((s.dev.queuesOf 1).any fun q => !s.dev.unpre q) = false) ∧
    (let s := ctxSt 1 { state := 1, spill := some (0, 0) } [(F.CMD_PRE_CTRL_GRACE, 0)]
     s.dev.rd F.CMD_PRE_CTRL_GRACE = 0 ∧ s.dev.liveQueues 1 = []) ∧
    (let s := (ctxSt 1 { state := 1, spill := some (0, 0) } [(F.Q_STATUS_STATE 3, 1), (F.Q_CFG_CTX 3, 1)]).onDev fun d =>
       (d.setQueue 3 {}).setQueue 5 { pre := .stop }
     s.dev.liveQueues 1 = [3] ∧ (s.dev.queue 3).pre = .running ∧ s.dev.preQ = [] ∧ s.dev.preActive = true) := by decide +kernel
/-- Queue 3 of context 1 in a pre-emption phase, with a spill area. -/
def preSt (ql : Queue) : State := devSt fun d =>
  ((d.wrs [(F.Q_CFG_CTX 3, 1), (F.CMD_PRE_CTRL_GRACE, 0)]).setCtx 1 { state := 1, spill := some (0, 0) }).setQueue 3 ql
theorem wit_SaveAndRestore : (preSt {}).coreRuns = true ∧
    (let s := (hdSt 2 (mkD 2 [(8, 4, 1), (10, 0, 2)]) [(F.CMD_PRE_CTRL_GRACE, 1), (F.Q_CFG_PRIO 2, 5), (F.CMD_TILE_LEASED 1, 1),
       (F.CMD_TILE_QUEUE 1, 3), (F.Q_CFG_CTX 3, 2)]).onDev fun d => d.setCtx 2 { state := 1, spill := some (0, 0) }
     s.dev.wants 2 = some 2 ∧ s.dev.rd F.CMD_PRE_CTRL_GRACE ≠ 0) ∧
    (let s := preSt { pre := .stop }
     (s.dev.queue 3).pre = .stop ∧ (maskList 16 (s.dev.rd (F.Q_LEASE_L 3))).all s.dev.tileStopped = true ∧ (s.dev.queue 3).issued = [] ∧
     s.dev.fenceReady = none ∧ s.dev.placeWait = []) ∧
    (let s := preSt { pre := .save }
     (s.dev.ctx (s.dev.qctx 3)).spill = some (0, 0) ∧ (s.dev.queue 3).pre = .save ∧
     (maskList 16 (s.dev.rd (F.Q_LEASE_L 3))).findSome? (fun n => s.dev.saveUe n (s.dev.tile n).savedBanks) = none) ∧
    (let s := preSt { pre := .clear }
     (s.dev.queue 3).pre = .clear ∧ s.dev.preQ = [] ∧ s.dev.rd F.CMD_PRE_CTRL_GRACE = 0) ∧
    (let s := preSt { pre := .preempted }
     s.dev.restorable 3 = true ∧ (s.dev.queues.any fun e => decide (s.dev.rd (F.Q_CFG_PRIO 3) < s.dev.rd (F.Q_CFG_PRIO e.1)) &&
        (s.dev.claim e.1 &&& (s.dev.queue 3).savedLease) != 0) = false) ∧
    (let s := preSt { pre := .restoring }
     (s.dev.ctx (s.dev.qctx 3)).spill = some (0, 0) ∧ (s.dev.queue 3).pre = .restoring ∧ fget s.dev.saved 3 = none ∧
     s.dev.badGran (s.dev.recAt (s.dev.qctx 3)) 4096 = none ∧ (s.dev.queue 3).issued = [] ∧ s.dev.fenceReady = none ∧ s.dev.placeWait = [] ∧
     s.dev.preQ = [] ∧ s.dev.rd F.CMD_PRE_CTRL_GRACE = 0) := by decide +kernel
theorem wit_EventRing :
    run.reaches (.host 0) 0x608008 = true ∧ run.reaches (.host 0) 0x60800C = true ∧ run.reaches (.host 0) 0x608040 = true ∧
    (let h := 1
     run.dev.evt.unread < (h % 4096 + 4096 - run.dev.rd F.CMD_EVT_HEAD_HEAD) % 4096) ∧
    (let s := devSt fun d => { d with evt := { d.evt with unread := 4095 } }
     (4095 % 4096 + 4096 - s.dev.rd F.CMD_EVT_HEAD_HEAD) % 4096 ≤ s.dev.evt.unread ∧ s.dev.evt.merged = []) ∧
    (run.dev.ctxs.any fun e => e.1 != 0 && e.2.state != 0) = false ∧ run.dev.is F.CMD_EVT_CTRL_EN = false := by decide +kernel

/-! ### Queues and descriptors -/

theorem wit_QueueRegisters :
    (let s := devRg [(F.Q_CFG_LOG2 63, 15)]
     s.dev.qProtected (.host 0) 63 = false ∧ s.dev.semProtected (.host 0) 4095 = false ∧ 32767 < 2 ^ s.dev.rd (F.Q_CFG_LOG2 63) ∧
     2 ^ s.dev.rd (F.Q_CFG_LOG2 63) ≤ 32768 ∧ s.dev.qstate 63 = 0 ∧ s.dev.is (F.SEM_CFG_EN 4095) = false ∧
     s.reaches (.host 0) (0x700000 + 0x1000 * 63) = true ∧ s.reaches (.host 0) (0x601000 + 0x40 * 63) = true ∧
     s.reaches (.host 0) (0x604000 + 4 * 4095) = true ∧ s.reaches (.host 0) (0x610000 + 4 * 4095) = true) ∧
    (let s := devRg [(F.Q_STATUS_STATE 0, 1)]
     s.coreRuns = true ∧ s.dev.qstate 0 = 1 ∧ s.dev.unpre 0 = true ∧ (s.dev.queue 0).pairHold = false ∧ s.dev.qProtected (.mover 0) 0 = false) ∧
    (devRg [(F.Q_STATUS_STATE 0, 2)]).dev.qstate 0 = 2 := by decide +kernel
/-- Semaphore 4095 of context 1. -/
def semRg : List (Fld × Nat) := [(F.SEM_CFG_EN 4095, 1), (F.SEM_CFG_CTX 4095, 1)]
theorem wit_DescriptorsIssue :
    (let x := mkD 0 []; (hdSt 63 x []).headAt 63 0 x = true) ∧
    (let x := mkD 1 []; (hdSt 63 x []).headAt 63 1 x = true) ∧
    (let x := mkD 3 [(8, 0, 1)]; (hdSt 63 x []).headAt 63 3 x = true) ∧
    (let x := mkD 0x20 [(16, 0, 4096)]; (hdSt 63 x []).headAt 63 0x20 x = true) ∧
    (let x := mkD 0x21 [(16, 0, 4096), (24, 0, 2)]; (hdSt 63 x []).headAt 63 0x21 x = true ∧ dfld x 24 0 4 ≠ 3) ∧
    (let x := mkD 0x21 [(16, 0, 4096), (24, 0, 3)]; (hdSt 63 x []).headAt 63 0x21 x = true ∧ dfld x 24 0 4 = 3) ∧
    (let x := mkD 0x30 [(12, 0, 1)]; (hdSt 63 x []).headAt 63 0x30 x = true ∧ dfld x 12 0 1 = 1) ∧
    (∀ b ∈ [true, false], let x := mkD 0x30 [(8, 0, 7)]
     let s := (hdSt 63 x []).onDev fun d => d.setTag (dTag x) { overridden := b }
     s.headAt 63 0x30 x = true ∧ dfld x 12 0 1 = 0 ∧ (s.dev.tag (dTag x)).overridden = b) ∧
    (let x := mkD 2 [(10, 0, 1)]; (hdSt 0 x []).headAt 0 2 x = true ∧ dMode x = 0 ∧ (hdSt 0 x []).dev.rd (F.Q_LEASE_L 0) = 0) ∧
    (let x := mkD 2 [(8, 4, 1), (10, 0, 1)]; (hdSt 0 x []).headAt 0 2 x = true ∧ dMode x = 1 ∧ (hdSt 0 x []).dev.rd (F.Q_LEASE_L 0) = 0) ∧
    (let x := mkD 2 [(8, 4, 2)]; (hdSt 0 x []).headAt 0 2 x = true ∧ dMode x = 2) ∧
    (let x := mkD 4 [(8, 0, 4095), (12, 0, 7)]; (hdSt 0 x semRg).headAt 0 4 x = true ∧ dfld x 10 0 2 = 0) ∧
    (let x := mkD 4 [(8, 0, 4095), (10, 0, 1)]; (hdSt 0 x semRg).headAt 0 4 x = true ∧ dfld x 10 0 2 = 1) ∧
    (let x := mkD 5 [(8, 0, 4095)]; (hdSt 0 x semRg).headAt 0 5 x = true ∧
      condHolds x ((hdSt 0 x semRg).dev.rd (F.SEM_VAL_VALUE (dSem x))) = true) ∧
    (let x := mkD 5 [(8, 0, 4095), (12, 0, 9)]; (hdSt 0 x semRg).headAt 0 5 x = true ∧
      condHolds x ((hdSt 0 x semRg).dev.rd (F.SEM_VAL_VALUE (dSem x))) = false) := by decide +kernel
/-- A TABLE_UPDATE with one window item, which is good, or whose entry lies outside memory. -/
theorem wit_DescriptorsIssue' : ∀ b ∈ [true, false],
    let x := mkD 0x22 [(8, 0, 1), (24, 0, 1)]
    let s := (hdSt 0 x [(F.MEM_SIZE_BYTES, 0x1000000), (F.Q_CFG_PRIV 0, 1), (F.MMU_WIN_CTL_CTX 63, if b then 1 else 2)]).onDev fun d =>
      { d with mem := d.mem.write 8 (toBytes 8 (4 + 63 * 4096)) }
    let d := (s.dev.take 0 x).1
    s.headAt 0 0x22 x = true ∧ dfld x 24 0 16 = 1 ∧ d.badGran (dfld x 16 0 64) 16 = none ∧
    (match d.item (dCtx x) (d.readMem 0 (dfld x 16 0 64) 16) with | .good p v r => b && p == 0 && v == 0 && r == (0, 0) | _ => !b) = true ∧
    ((d.correct (dfld x 16 0 64) 16).walkCorrect (dCtx x) 0).inMem 0 8 = true ∧
    (match d.items d (dCtx x) (s.dev.qctx 0) 1 0 (dfld x 16 0 64) [] with | .ok _ _ => b | .bad _ => !b | _ => false) = true := by
  decide +kernel
theorem wit_ImmediateVerdict :
    (let x := mkD 0x12 [(16, 0, 1023), (18, 0, 4095), (20, 0, 1)]
     let s := hdSt 0 x [(F.VP_BLOCK_EN 15, 1), (F.VP_BLOCK_CTX 15, 1)]
     s.headAt 0 0x12 x = true ∧ dfld x 20 0 1 = 1 ∧ (s.dev.tbTo 0).is (F.VP_BLOCK_EN (dfld x 16 0 10 / 64)) = true ∧
     (s.dev.tbTo 0).rd (F.VP_BLOCK_CTX (dfld x 16 0 10 / 64)) = (s.dev.tbTo 0).qctx 0) := by decide +kernel
theorem wit_PositionCommandsWait :
    (let x := mkD 0x10 [(8, 0, 65536)]
     (hdSt 0 x []).headAt 0 0x10 x = true ∧ reached ((hdSt 0 x []).dev.tbTo 0).tb.p (dfld x 8 0 64) = false) ∧
    (let x := mkD 0x10 []
     (hdSt 0 x []).headAt 0 0x10 x = true ∧ reached ((hdSt 0 x []).dev.tbTo 0).tb.p (dfld x 8 0 64) = true) ∧
    (let x := mkD 0x11 [(8, 0, 65536), (18, 0, 4095)]
     (hdSt 0 x semRg).headAt 0 0x11 x = true) ∧
    (let x := mkD 0x12 [(8, 0, 65536), (16, 0, 1023), (18, 0, 4095)]
     let s := hdSt 0 x [(F.VP_BLOCK_EN 15, 1), (F.VP_BLOCK_CTX 15, 1)]
     s.headAt 0 0x12 x = true ∧ dfld x 20 0 1 = 0 ∧ (s.dev.tbTo 0).is (F.VP_BLOCK_EN (dfld x 16 0 10 / 64)) = true ∧
     (s.dev.tbTo 0).rd (F.VP_BLOCK_CTX (dfld x 16 0 10 / 64)) = (s.dev.tbTo 0).qctx 0 ∧ (s.dev.tbTo 0).tb.verdicts.length < 256) ∧
    (let x := mkD 0x13 [(8, 0, 65536), (16, 0, 1), (24, 0, 3)]
     let s := hdSt 0 x [(F.TB_GATE_CFG_EN 3, 1), (F.TB_GATE_CFG_CTX 3, 1)]
     s.headAt 0 0x13 x = true ∧ (s.dev.tbTo 0).is (F.TB_GATE_CFG_EN (dfld x 24 0 2)) = true ∧
     (s.dev.tbTo 0).rd (F.TB_GATE_CFG_CTX (dfld x 24 0 2)) = (s.dev.tbTo 0).qctx 0 ∧ gateOffOk x = true ∧
     ((s.dev.tbTo 0).gate (dfld x 24 0 2)).length < 16) := by decide +kernel
theorem wit_DescriptorsEnd : run.coreRuns = true ∧
    (let x := mkD 0x7F []
     let s := hdSt 0 x []
     (s.dev.queue 0).fetched = x :: [] ∧ s.dev.issueBlock 0 x = 0 ∧ s.dev.headStatus 0 x ≠ 0 ∧ s.dev.outranked 0 = false) ∧
    (let i : Issued := { idx := 5, d := mkD 5 [(16, 0, 9)], seq := 0, wait := true }
     ((isSt i []).dev.queue 3).issued.find? (fun i => dOp i.d == 5 && dfld i.d 16 0 32 != 0) = some i ∧ (isSt i []).dev.unpre 3 = true) ∧
    (let i : Issued := { idx := 5, d := mkD 3 [(8, 0, 1)], seq := 0, flushing := true }
     ((isSt i []).dev.queue 3).issued.find? (fun i => dOp i.d == 3 && i.flushing) = some i) ∧
    (let i : Issued := { idx := 5, d := mkD 1 [], seq := 0, progress := 2 ^ 64 }
     (isSt i []).dev.issued 3 5 = some i ∧ (isSt i []).dev.bySeq 3 0 = some i ∧ (isSt i []).dev.moving 3 i = true ∧ dOp i.d = 1 ∧
     i.endAs = none ∧ dTotal i.d ≤ i.progress) ∧
    (let s := devSt fun d => d.setTile 15 { clearing := true, shutter := .opened }
     (s.dev.tile 15).clearing = true ∧ s.dev.is (F.CMD_TILE_LEASED 15) = false ∧ (s.dev.ctx (s.dev.tctx 15)).revoking = false) := by decide +kernel

/-! ### Power -/

theorem wit_PowerSamples : run.periRuns = true ∧ (devRg [(F.PWR_EDC_EDC_LIM, 0)]).dev.rd F.PWR_EDC_EDC_LIM = 0 ∧
    (let s := devSt fun d => { d.wrs [(F.PWR_CTRL_MC_MODE, 1), (F.PWR_MC_MEMBERS, 0x8001)] with pwr := { d.pwr with offers := [(15, 3)] } }
     s.dev.member 15 = true ∧ s.dev.pwr.absent.contains 15 = false) := by decide +kernel
theorem wit_PowerSteps :
    (devSt fun d => { d with pwr := { d.pwr with step := .upSettle 15 7 } }).dev.pwr.step = .upSettle 15 7 ∧
    (let s : State := { devSt (fun d => { d with pwr := { d.pwr with step := .down 7 } }) with aon := (aonRg [(F.SEQ_RAIL_PMB_EN 6, 1)]).aon }
     s.dev.pwr.step = .down 7 ∧ s.voltageFree = true) ∧
    (run.reaches (.host 0) 0x800010 = true ∧ run.aon.lostPhases = [] ∧ run.dev.pwr.pageBad = []) ∧
    (devSt fun d => { d with pwr := { d.pwr with pageBad := [1] } }).dev.pwr.pageBad ≠ [] ∧
    (let s := devSt fun d => (d.wr F.PWR_CTRL_SHUT_IDLE 1).setTile 15 { shutter := .opened }
     s.coreRuns = true ∧ s.dev.rd F.PWR_CTRL_SHUT_IDLE ≠ 0 ∧ s.dev.is (F.CMD_TILE_LEASED 15) = false ∧ (s.dev.tile 15).clearing = false ∧
     (s.dev.tile 15).shutter = .opened) ∧
    (let s := hdSt 2 (mkD 2 [(8, 4, 1), (10, 0, 2)]) ((F.PWR_STATUS_POINT, 0) :: (F.PWR_STATUS_VCODE, 9) :: (List.range 5).map fun g => (F.PWR_VF_VCODE (16 * g), 9))
     s.coreRuns = true ∧ (s.dev.tile 1).shutter = .closed ∧ (s.dev.tile 1).clearing = false ∧ s.dev.wanted 1 = true ∧ s.stepBusy = false ∧
     (s.dev.codesAt 0 (s.dev.rd F.PWR_STATUS_POINT)).foldl max 0 ≠ 0 ∧
     (s.dev.codesAt 0 (s.dev.rd F.PWR_STATUS_POINT)).foldl max 0 ≤ s.dev.rd F.PWR_STATUS_VCODE) ∧
    (∀ b ∈ [0, 1], let s := devSt fun d => (d.wr (F.CMD_TILE_LEASED 15) b).setTile 15 { shutter := .waking }
     (s.dev.tile 15).shutter = .waking ∧ (s.dev.tileReset 15 .opened).is (F.CMD_TILE_LEASED 15) = (b == 1)) := by decide +kernel

/-! ### Tiles -/

/-- Tile `n` runs at address 0, where the instruction `w` lies. -/
def tlSt (n w : Nat) (f : Tile → Tile) : State := devSt fun d =>
  let d := d.wrs [(F.CMD_TILE_LEASED n, 1), (F.CMD_TILE_QUEUE n, 3)]
  ({ d with mem := d.mem.write (tileBase n) (toBytes 8 w) }).setTile n (f { running := true, shutter := .opened, gang := 2 ^ n })
theorem wit_ScalarInstructions : ∀ op ∈ [0x10, 0x11, 0x12, 0x13, 0x14, 0x15, 0x16, 0x17, 0x18, 0x19, 0x1A, 0x1B, 0x1C, 0x1D, 0x01, 0x02, 0x03,
    0x04, 0x30, 0x31], (tlSt 15 (op * 2 ^ 56) id).tileAt 15 op (op * 2 ^ 56) = true := by decide +kernel
theorem wit_ScalarFrame : (tlSt 0 (0x10 * 2 ^ 56) id).tileAt 0 0x10 (0x10 * 2 ^ 56) = true ∧
    ∃ t, exec (.add 0) (tlSt 0 (0x10 * 2 ^ 56) id) = .next t := ⟨by decide +kernel, _, rfl⟩
theorem wit_TileMemoryAndLoops :
    (let w := 5 * 2 ^ 56 + 0x1FFFF
     let s := tlSt 0 w id
     s.tileAt 0 5 w = true ∧ (∀ l, (s.dev.tile 0).loops.getLast? = some l → l.start ≤ (s.dev.tile 0).pc + 8 ∧ (s.dev.tile 0).pc + 16 ≤ l.stop) ∧ tiRa w = 0 ∧
     tiImm w % 65536 ≠ 0 ∧ (s.dev.tile 0).loops.length ≠ 4) ∧
    (let w := 5 * 2 ^ 56 + 0x10000
     let s := tlSt 0 w id
     s.tileAt 0 5 w = true ∧ tiRa w = 0 ∧ tiImm w % 65536 = 0) ∧
    (∀ op ∈ [0x20, 0x21],
      let w := op * 2 ^ 56 + 2 ^ 32 + 0x5FFFF8
      let s := tlSt 15 w id
      let t := s.dev.tile 15
      s.tileAt 15 op w = true ∧ lsBad (t.lsAddr w) (lsSize w) (lsSpace w) = false ∧ t.stores = [] ∧ t.vstPending = false ∧
      (s.dev.compute 15 (lsPa 15 (t.lsAddr w) (lsSpace w)) (lsSize w) (op == 0x21)).toOption = some 0 ∧
      s.dev.badGran (lsPa 15 (t.lsAddr w) (lsSpace w)) (lsSize w) = none) ∧
    (let s := tlSt 0 0 fun t => { t with stores := [⟨tileBase 0, 4, 7, 0⟩] }
     (s.dev.tile 0).stores = ⟨tileBase 0, 4, 7, 0⟩ :: [] ∧ s.dev.unitsRun 0 = true) ∧
    (tlSt 0 (0x22 * 2 ^ 56) id).tileAt 0 0x22 (0x22 * 2 ^ 56) = true ∧
    (let w := 0x23 * 2 ^ 56 + 0x10
     (tlSt 0 w id).tileAt 0 0x23 w = true ∧ specOff (tiImm w) = none) ∧
    (let w := 0x40 * 2 ^ 56
     let s := tlSt 0 w id
     s.tileAt 0 0x40 w = true ∧ (s.dev.tile 0).resv = none ∧ (s.dev.tile 0).convFinal = false) ∧
    (let w := 0x40 * 2 ^ 56
     let s := tlSt 0 w fun t => { t with wait := .rsv }
     (s.dev.tile 0).wait = .rsv ∧ (s.dev.tile 0).resv = none ∧ (s.dev.tile 0).convFinal = false ∧
     (s.onDev fun d => d.waits 0 .none).tileAt 0 0x40 w = true) := by decide +kernel
/-- A pass, and a CONVERT, of a tile. -/
def psT : Pass := { op := ⟨1, 0, 0, 0, false, false, 0, 0⟩, seq := 0, mark := 0, mask := 1, bankB := false, a := none, b := none, cells := [] }
def cvT (st : Bool) : Conv := { pb := 0, mark := 0, pblock := [], dst := 0, rstride := 0, final := false, started := st }
theorem wit_TileUnits :
    (let s := tlSt 0 0 fun t => { t with passes := [psT] }
     s.tileAt 0 0 0 = true ∧ (s.dev.tile 0).allDone = false ∧ (s.dev.tile 0).passes.head? = some psT ∧
     s.dev.unpre (s.dev.tqueue 0) = true ∧ s.dev.is (F.CMD_TILE_LEASED 0) = true ∧ s.dev.drainUe psT.mask = none) ∧
    (let s := tlSt 0 0 id
     s.tileAt 0 0 0 = true ∧ (s.dev.tile 0).allDone = true ∧ (s.dev.queue (s.dev.tqueue 0)).issued = []) ∧
    (let w := 0x41 * 2 ^ 56
     let s := tlSt 15 w fun t => { t with resv := some 32 }
     let t := s.dev.tile 15
     s.tileAt 15 0x41 w = true ∧ t.resv ≠ none ∧ (t.mmaOf w).maskIn t.gang = some 32768 ∧ 32768 &&& t.gang = 32768 ∧
     (32768 : Nat).testBit 15 = true ∧ (t.mmaOf w).badArith = false ∧ t.streamsOk 15 32768 (t.mmaOf w) = true ∧ t.stores = [] ∧
     t.vstPending = false ∧ (t.conv.any fun c => !c.final) = false ∧ t.meetsConv 15 32768 (t.mmaOf w) = false) ∧
    (let s := tlSt 15 0 fun t => { t with wait := .mma, mma := some psT.op }
     s.coreRuns = true ∧ (s.dev.tile 15).mma = some psT.op ∧ psT.op.maskIn (s.dev.tile 15).gang = some 32768 ∧ s.dev.tileRuns 15 = true ∧
     (maskList 16 32768).all s.dev.arrived = true ∧
     (maskList 16 32768).all (fun k => match (s.dev.tile k).mma with | some x => x.agrees psT.op | none => false) = true ∧
     s.dev.mullionBad 32768 = none ∧ s.dev.feedUe 32768 psT.op = none) := by decide +kernel
theorem wit_TileUnits' :
    (let w := 0x48 * 2 ^ 56
     let s := tlSt 0 w fun t => { t with stores := [⟨tileBase 0, 4, 7, 0⟩] }
     s.tileAt 0 0x48 w = true ∧ (s.dev.tile 0).stores ≠ []) ∧
    (let w := 0x48 * 2 ^ 56 + 0x100
     let s := tlSt 15 w fun t => { t with resv := some 16 }
     let t := s.dev.tile 15
     let d := s.fetched 15
     let b := d.mem.read (tileBase 15) 64
     let c : Conv := { pb := 0, mark := t.opseq, pblock := d.mem.read (tileBase 15) (pbSize b), dst := 0, rstride := 0x100,
                       final := tiX w == 1, started := false }
     s.tileAt 15 0x48 w = true ∧ t.stores = [] ∧ t.vstPending = false ∧ t.conv = none ∧ t.resv = some 16 ∧ (t.reg (tiRa w)).toNat = 0 ∧ (t.reg (tiRb w)).toNat = 0 ∧
     bits (tiImm w) 0 24 = 0x100 ∧ pbSize b ≤ tileSize ∧ c.area.2 ≤ tileSize ∧ pbOk b = true ∧ outBits (pbFmt b) = 16 ∧
     d.badGran (tileBase 15) 64 = none ∧ d.badGran (tileBase 15) (pbSize b) = none) ∧
    (∀ b ∈ [true, false], let s := tlSt 0 0 fun t => { t with conv := some (cvT b) }
      (s.dev.tile 0).conv = some (cvT b) ∧ s.dev.unitsRun 0 = true ∧ (s.dev.tile 0).passes = [] ∧ (cvT b).started = b ∧ (s.dev.tile 0).quireBad = none) ∧
    (let w := 0x60 * 2 ^ 56 + 2 ^ 32
     (tlSt 0 w id).tileAt 0 0x60 w = true ∧ ((tlSt 0 w id).dev.tile 0).unitsDone (tiX w) = true ∧
     (let s := tlSt 0 w fun t => { t with passes := [psT] }
      s.tileAt 0 0x60 w = true ∧ (s.dev.tile 0).unitsDone (tiX w) = false) ∧
     (let s := tlSt 0 w fun t => { t with wait := .twait }
      (s.dev.tile 0).wait = .twait ∧ (s.dev.tile 0).unitsDone (tiX w) = true ∧ (s.onDev fun d => d.waits 0 .none).tileAt 0 0x60 w = true)) := by decide +kernel
theorem wit_TileUnits'' :
    (let w := 0x61 * 2 ^ 56
     (tlSt 0 w id).tileAt 0 0x61 w = true ∧ tiImm w = 0 ∧ ((tlSt 0 w id).dev.tile 0).gang.testBit 0 = true) ∧
    (let s := tlSt 15 0 fun t => { t with wait := .gbar, bar := 32768 }
     (s.dev.tile 15).wait = .gbar ∧ s.dev.tileRuns 15 = true ∧ s.dev.barFull (s.dev.tile 15).bar = true) ∧
    (let s := tlSt 0 0 fun t => { t with wait := .gbar, bar := 3 }
     (maskList 16 (s.dev.tile 0).gang).find? (fun k => (s.dev.tile k).running) = some 0 ∧ s.dev.tileRuns 0 = true ∧
     (maskList 16 (s.dev.tile 0).gang).all (fun j => !(s.dev.tile j).running || s.dev.stuck j) = true) ∧
    (let w := 0x50 * 2 ^ 56
     let s := tlSt 0 w id
     let t := s.dev.tile 0
     s.tileAt 0 0x50 w = true ∧ vopRefused (tiImm w) (t.reg (tiRa w)) (t.reg (tiRb w)) = false ∧ t.stores = [] ∧ t.vq.length < 8) := by
  decide +kernel

/-- The operation `op` of lane mask `k` with `aux` is at the front of the queue of tile `n`. -/
def vo (op aux : Nat) : VOp := { w := BitVec.ofNat 32 (op * 2 ^ 26 + aux), ra := 0, rb := 0, rc := 0, seq := 0, n := 0 }
def vcSt (n : Nat) (o : VOp) (f : Tile → Tile) : State := devSt fun d => (d.wr (F.CMD_TILE_LEASED n) 1).setTile n (f { shutter := .opened, vq := [o] })
theorem wit_VectorOperations :
    (∀ p ∈ [(0, 0), (3, 0), (4, 0), (5, 0), (8, 0), (9, 0), (0xA, 0), (0xB, 0), (0xC, 0), (0xD, 0), (0xE, 0), (0xF, 0), (0x10, 0), (0x10, 1),
      (0x10, 2), (0x11, 7), (0x12, 0), (0x14, 0), (0x14, 1), (0x14, 2), (0x14, 3), (0x14, 4), (0x14, 5), (0x14, 6), (0x14, 7), (0x14, 8), (0x14, 9),
      (0x14, 10), (0x14, 11), (0x18, 0), (0x18, 1), (0x18, 2), (0x18, 3), (0x18, 4), (0x20, 0), (0x21, 0), (0x22, 0), (0x24, 0), (0x25, 0),
      (0x26, 0), (1, 0), (2, 0)],
      (vcSt 15 (vo p.1 p.2) id).vecAt 15 p.1 (vo p.1 p.2) = true ∧ voAux (vo p.1 p.2).w.toNat = p.2) ∧
    (((vcSt 15 (vo 4 0) id).dev.tile 15).conv.any fun c => decide (c.mark < (vo 4 0).seq)) = false ∧
    (let t : Tile := { k := [(1, 1)], v := [(0, 0xFF800000)] }
     let u : Tile := { k := [(1, 1)], v := [(0, 0x3F800000)] }
     veq (extremum true false ((t.lanes 256).map fun l => t.lane 0 l)).1 negInf = true ∧
     veq (extremum true false ((u.lanes 256).map fun l => u.lane 0 l)).1 negInf = false) ∧
    (let s := vcSt 15 (vo 1 0) id
     let t := s.dev.tile 15
     t.conv = none ∧ s.dev.elementBad 15 (vfSize 0) false (t.elements 15 (vo 1 0)) = none ∧ s.dev.elementBad 15 (vfSize 0) true (t.elements 15 (vo 2 0)) = none ∧
     ((t.elements 15 (vo 1 0)).findSome? fun e => s.dev.badGran e.2 (vfSize 0)) = none) := by decide +kernel

/-! ### Timebase -/

/-- Source `src` is enabled, with quality `ql` and the timebase `x`. -/
def tbSt (src ql : Nat) (x : Tb) (l : List (Fld × Nat)) : State := devSt fun d =>
  { d.wrs ((F.TB_CTRL_EN, 1) :: (F.TB_CTRL_SRC, src) :: (F.TB_STATUS_ACQUIRED, 1) :: (F.TB_STATUS_QUALITY, ql) :: l) with tb := x }
theorem wit_TimebaseEvents : run.periRuns = true ∧
    (∀ k ∈ [0, 1, 2, 3], (tbSt k 0 {} []).dev.tbOn k = true) ∧
    (let d := (tbSt 2 0 { edges := [0] } []).dev.tbTo 15300000
     d.tb.edges.head? = some 0 ∧ 0 + 15300000 ≤ d.tb.now) ∧
    (let s := tbSt 0 3 { awaitRef := true } [(F.TB_CFG_RECOV_REF, 1)]
     s.dev.tbOn 0 = true ∧ s.dev.is F.TB_CFG_RECOV_REF = true ∧ (s.dev.tbTo 7).qual = 3 ∧ (s.dev.tbTo 7).tb.awaitRef = true) ∧
    (let d := (tbSt 2 0 { edges := [0] } []).dev.tbTo 22300000
     d.canLose = true ∧ d.overdue = true ∧ ((tbSt 2 0 { edges := [0] } []).dev.tbTo 22299999).overdue = false) ∧
    (let d := (tbSt 2 1 {} [(F.TB_HOLD_HOLDOVER_MAX, 3)]).dev.tbTo 3000000
     d.qual = 1 ∧ d.tb.tHold + 1000000 * d.rd F.TB_HOLD_HOLDOVER_MAX ≤ d.tb.now) ∧
    (let d := (tbSt 0 3 { mode := .slew true } []).dev.tbTo 0
     d.tb.mode = .slew true ∧ d.target ≤ d.tb.p) ∧
    (let d := (tbSt 0 3 { mode := .slew false, step := 5 } []).dev.tbTo 0
     d.tb.mode = .slew false ∧ d.tb.p ≤ d.target) ∧
    (let d := (tbSt 0 3 { mode := .hold, step := 5 } []).dev.tbTo 0
     d.tb.mode = .hold ∧ d.tb.p ≤ d.target) ∧
    (let a : Alarm := { pos := 0, sem := 0, value := 0, ctx := 0, q := 0, seq := 0 }
     let g := ((tbSt 0 0 { alarms := [(63, a)], waits := [(5, 0)] } []).dev.tbTo 0).gatesDue
     let d := g.verdictsDue
     let w := ((tbSt 0 0 { waits := [(5, 0)] } []).dev.tbTo 0).gatesDue.verdictsDue.alarmsDue
     g.qual ≠ 2 ∧ fget d.tb.alarms 63 = some a ∧ reached d.tb.p a.pos = true ∧ d.qual ≠ 2 ∧
     fget w.tb.waits 5 = some 0 ∧ reached w.tb.p 0 = true ∧ w.qual ≠ 2) ∧
    (devSt fun d => { d with vp := { d.vp with capturing := true } }).dev.vp.capturing = true := by decide +kernel
theorem wit_TimebaseEvents' :
    (run.reaches (.host 0) 0x900000 = true ∧ run.reaches (.host 0) 0x900038 = true ∧ run.reaches (.host 0) 0x900100 = true) ∧
    ((run.dev.tbTo 0).is F.TB_CTRL_LOCK = false ∧ (run.dev.tbTo 0).is F.TB_CTRL_EN = false) ∧
    (let s := tbSt 3 0 {} []
     s.reaches (.host 0) 0x900038 = true ∧ (s.dev.tbTo 0).tbOn 3 = true ∧ (s.dev.tbTo 0).is F.TB_CTRL_LOCK = false ∧
     (s.dev.tbTo 0).is F.TB_CTRL_EN = true) := by decide +kernel

/-! ### Card, cartridge, media -/

/-- The card slot in state `st`, with fields set. -/
def crdSt (st : Nat) (l : List (Fld × Nat)) : State := devRg ((F.CRD_STATUS_STATE, st) :: l)
/-- The card slot with the step `x` of an activation. -/
def actSt (x : ActStep) : State := devSt fun d => { d with card := { d.card with step := x } }
/-- VDDIO_CRD is armed, and CRD_DET has the level `lv`. -/
def detSt (lv : Bool) (l : List (Fld × Nat)) (f : Card → Card) : State :=
  { devSt (fun d => let d := d.wrs l; { d with card := f { d.card with det := lv } }) with aon := (aonRg [(F.SEQ_RAIL_STAT_ARMED 10, 1)]).aon }
theorem wit_CardSlot :
    (∀ p ∈ [(0, 1), (1, 5), (2, 4), (3, 3), (4, 4), (5, 3), (6, 4)],
      let s := crdSt p.2 []
      s.reaches (.host 0) 0xA00044 = true ∧ s.dev.is F.CRD_CMD_BUSY = false ∧ s.dev.owned (.host 0) = false ∧
      s.dev.crdAllowed p.1 = true ∧ s.dev.t1Waiting = false ∧ s.dev.rd F.CBP_STATUS_STATE ≠ 1) ∧
    (let s := crdSt 0 [(F.CRD_STATUS_OWNER, 1)]
     s.reaches (.host 0) 0xA00044 = true ∧ s.dev.owned (.host 0) = true ∧ s.dev.owned (.mover 0) = false) ∧
    (∀ op, op < 7 → (crdSt 0 []).dev.owned (.host 0) = false ∧ (crdSt 0 []).dev.crdAllowed op = false) ∧
    (∀ lv ∈ [true, false],
      let s := detSt lv [(F.CRD_CFG_DET_POL, 0), (F.CRD_STATUS_PRESENT, if lv then 0 else 1)] fun c => { c with step := .setup }
      s.periRuns = true ∧ s.crdOn = true ∧ s.dev.detPresent s.dev.card.det = lv ∧ s.dev.is F.CRD_STATUS_PRESENT = (!lv) ∧
      s.dev.card.step = .setup) ∧
    (∀ x ∈ [ActStep.settle, .clkStart, .rstLow, .awaitTs, .pps], (actSt x).dev.card.step = x) ∧
    (∃ bs, bs = (actSt .pps).dev.card.t1.last) ∧ (∃ bs, bs ≠ (actSt .pps).dev.card.t1.last) ∧
    (let s := devSt fun d => (d.wr F.CRD_T1_IFSD 254).onT1 fun t => { t with job := .exchange }
     s.dev.t1Waiting = true ∧ (s.dev.is F.CRD_PARAM2_EDC = false ∧ (254 : Nat) ≤ s.dev.rd F.CRD_T1_IFSD) ∧
     ∀ bs ∈ ([[0, 0x7F, 1, 9, 0x77], [0, 0xBF, 0, 0xBF], [0, 0xC1, 1, 0x20, 0xE0]] : List (List Byte)),
       bs.length = 3 + bytesAt bs 2 1 + 1 ∧ bs.drop (3 + bytesAt bs 2 1) = s.dev.t1Edc (bs.take (3 + bytesAt bs 2 1)) ∧ bytesAt bs 0 1 = 0) ∧
    (let s := (crdSt 3 []).onDev fun d => { d with card := { d.card with clkStop := true } }
     s.dev.card.clkStop = true ∧ s.dev.slot = 3) :=
  ⟨by decide +kernel, by decide +kernel, by decide +kernel, by decide +kernel, by decide +kernel, ⟨_, rfl⟩, ⟨[1], by decide⟩, by decide +kernel,
    by decide +kernel⟩
/-- The wide bus with the cartridge machine `x`, in state `st`. -/
def cbpSt (st : Nat) (x : Cbp) : State := (crdSt 5 [(F.CBP_STATUS_STATE, st), (F.CBP_CFG_SLEEP_IDLE, 1)]).onDev fun d => { d with cbp := x }
theorem wit_CartridgeBus :
    (let s := crdSt 3 []
     s.reaches (.host 0) 0xA02014 = true ∧ s.dev.is F.CBP_CMD_BUSY = false ∧ s.dev.owned (.host 0) = false ∧ s.dev.slot = 3 ∧
     s.dev.card.t1.job = .none ∧ s.dev.rd F.CBP_STATUS_STATE = 0) ∧
    (let s := crdSt 5 [(F.CRD_STATUS_OWNER, 1)]
     s.reaches (.host 0) 0xA02014 = true ∧ s.dev.is F.CBP_CMD_BUSY = false ∧ s.dev.owned (.host 0) = true) ∧
    (∀ b ∈ [true, false],
     let s := cbpSt 4 { job := if b then .none else .media }
     s.reaches (.host 0) 0xA02014 = true ∧ s.dev.is F.CBP_CMD_BUSY = false ∧ s.dev.owned (.host 0) = false ∧ s.dev.slot = 5 ∧
     s.dev.cbpIdle = b ∧ s.dev.rd F.CBP_STATUS_STATE = 4) ∧
    (let s := cbpSt 2 {}
     s.periRuns = true ∧ s.dev.slot = 5 ∧ s.dev.rd F.CBP_CFG_SLEEP_IDLE ≠ 0 ∧ s.dev.rd F.CBP_STATUS_STATE = 2 ∧ s.dev.cbpIdle = true ∧
     s.dev.cbp.hostOp = none ∧ s.dev.med.job = .none) ∧
    (let d := (cbpSt 3 { job := .host }).dev
     d.cbpWaiting = true ∧ d.cbp.awaitResynch = false) ∧
    parseFrame (mkFrame 0x40 [1, 2]) = some (0x40, [1, 2]) ∧ parseFrame (mkFrame 0x90 []) = some (0x90, []) ∧ (0x90 : Nat) / 64 = 2 ∧
    parseFrame [] = none ∧
    (cbpSt 3 { wideStep := 1 }).dev.cbp.wideStep = 1 ∧ (cbpSt 3 { wideStep := 2 }).dev.cbp.wideStep = 2 ∧
    (let d := (cbpSt 3 { awaitResynch := true }).dev
     d.cbp.awaitResynch = true ∧ d.cbp.wakeReq = false ∧ d.cbp.sleepReq = false) ∧
    (let d := (cbpSt 3 { sleepReq := true, wakeReq := true }).dev
     d.cbp.sleepReq = true ∧ d.cbp.wakeReq = true ∧ d.cbp.awaitResynch = false) := by decide +kernel
/-- The media engine in state `st`. -/
def medSt (st : Nat) (x : Med) : State := (devRg [(F.MED_STATUS_STATE, st)]).onDev fun d => { d with med := x, cbp := { job := .media } }
theorem wit_MediaEngine :
    (let x := mkD 0x40 [(24, 0, 4096), (32, 0, 16), (8, 0, 0)]
     (hdSt 0 x []).headAt 0 0x40 x = true ∧ dfld x 8 0 2 = 0) ∧
    (let x := mkD 0x40 [(24, 0, 4096), (32, 0, 16), (8, 0, 1)]
     (hdSt 0 x []).headAt 0 0x40 x = true ∧ dfld x 8 0 2 = 1) ∧
    (∀ k ∈ [0, 1, 2],
      let s := medSt k {}
      s.reaches (.host 0) 0xA0400C = true ∧ s.dev.is F.MED_CMD_BUSY = false ∧ s.dev.owned (.host 0) = false ∧
      s.dev.rd F.MED_STATUS_STATE = k) ∧
    (crdSt 5 [(F.CRD_STATUS_OWNER, 1)]).dev.owned (.host 0) = true ∧
    (medSt 1 { job := .header 0 }).dev.opGoing 2 = true ∧ (List.replicate 18432 (0 : Byte)).length = 18432 ∧
    (medSt 2 { job := .mapProg 3 255 }).dev.opGoing 3 = true ∧ (medSt 2 { job := .mapErase 3 }).dev.opGoing 4 = true ∧
    (let s := (medSt 2 { due := [7], logRecs := [(true, [])] }).onDev fun d => d.wrs [(F.MED_CFG_PATROL_H, 1), (F.MED_CFG_LOG_FLUSH, 1)]
     let d := s.dev
     s.periRuns = true ∧ d.isMounted = true ∧ d.rd F.MED_CFG_PATROL_H ≠ 0 ∧ d.med.due = 7 :: [] ∧ d.med.job = .none ∧ d.med.next = .none ∧
     d.med.remap = none ∧ d.rd F.MED_CFG_LOG_FLUSH ≠ 0 ∧ d.med.logRecs ≠ [] ∧ d.is F.MED_STATUS_LOG_READY = false ∧
     (0 : Nat) ≤ d.cartTime) := by decide +kernel

/-! ### Clasp and pair -/

/-- Port `p` in state `st` with VDD_CLS_A armed, every chip routed to it. -/
def clsSt (p st : Nat) (l : List (Fld × Nat)) : State :=
  { devRg ((F.CLS_PORT_STAT_STATE p, st) :: (F.GLB_FUSE_CLASP_EN, 1) :: (F.CLS_ROUTE_PORT 15, p) :: (F.CLS_ROUTE_VALID 15, 1) :: l) with
    aon := run.aon.wr (F.SEQ_RAIL_STAT_ARMED 8) 1 }
/-- A message of type `t` from chip 15 to chip `c`. -/
def msg (t c : Nat) (arg : Nat := 0) (data : List Byte := []) : ClaspMsg :=
  { mtype := t, src := 15, dst := c, tag := 4095, sctx := 1, offset := 63 * 2 ^ 30, arg := arg, data := data, len := data.length - 1 }
def rq (read live : Bool) : CReq := { ctx := 1, q := 0, idx := 0, dst := 15, read := read, addr := 0, live := live }
/-- Window 63 is open to chip 15, its first entry mapping device address 0. -/
def winSt : State := (devRg [(F.MMU_WIN_CTL_EN 63, 1), (F.MMU_WIN_SRC_SRCMASK 63, 0x8000), (F.MEM_SIZE_BYTES, 0x1000000)]).onDev fun d =>
  { d with mem := d.mem.write 0 (toBytes 8 0xF) }
/-- A flit with the sequence number 0 and class `vc`, and its CRC. -/
def flitOf (vc : Nat) : BitVec 256 := BitVec.ofNat 256 (vc * 2 ^ 25 + (crc32 (toBytes 28 (vc * 2 ^ 25))).toNat * 2 ^ 224)
theorem wit_ClaspEvents :
    (∀ p ∈ [0, 1, 2, 3], (clsSt p 1 []).reaches (.host 0) (0xB00100 + 0x20 * p) = true) ∧
    (∀ p ∈ [0, 3], ∀ st ∈ [1, 3], let s := clsSt p st []
      s.periRuns = true ∧ s.aon.armed 8 = true ∧ s.dev.portState p = st ∧ (15 == s.dev.chip) = false ∧ 0 ≤ s.dev.rd (F.CLS_PORT_CFG_MAXRATE p) ∧
      s.dev.rd (F.CLS_PORT_CFG_MINWIDTH p) ≤ 1) ∧
    (∀ p ∈ [0, 3], (clsSt p 2 []).dev.portState p = 2) ∧
    bits (1 : BitVec 256).toNat 224 32 ≠ (crc32 (toBytes 28 1)).toNat ∧
    (∀ vc ∈ [0, 1, 2, 3], bits (flitOf vc).toNat 224 32 = (crc32 (toBytes 28 (flitOf vc).toNat)).toNat ∧ bits (flitOf vc).toNat 24 1 = 0 ∧
      flitVc (flitOf vc) = vc ∧ (flitOf vc).toNat % 4096 = (((clsSt 0 2 []).dev.port 0).lastIn + 1) % 4096) ∧
    (let s := clsSt 2 2 []
     ((msg 1 15).dst == s.dev.chip) = false ∧ s.dev.route (msg 1 15).dst = some 2) := by decide +kernel
theorem wit_ClaspEvents' :
    (let s := winSt
     let w := s.dev.winRead (msg 1 0)
     (msg 1 0).dst = s.dev.chip ∧ w.window (msg 1 0 0 [1]) 1 true = .inl (0, 0) ∧ (msg 1 0 0 (List.replicate 64 1)).data.length = 64 ∧
     w.window (msg 1 0) 64 true = .inl (0, 0) ∧ w.window (msg 2 0) 1 false = .inl (0, 0) ∧ w.badGran 0 1 = none ∧
     run.dev.window (msg 1 0) 1 true = .inr 1 ∧ run.dev.window (msg 2 0) 1 false = .inr 1) ∧
    (∀ b ∈ [true, false], ∀ l ∈ [true, false],
      let d := (devSt fun d => { d with cls := { d.cls with reqs := [(4095, rq b l)] } }).dev
      d.reqOf (msg 3 0) = some (rq b l) ∧ fget d.cls.reqs 4095 = some (rq b l)) ∧
    (let x := mkD 0x50 [(8, 0, 255), (10, 0, 1)]
     let s := hdSt 0 x []
     s.headAt 0 0x50 x = true ∧ (dfld x 10 0 16).testBit s.dev.chip = true ∧ (s.dev.bar 255).wait = none ∧ (s.dev.bar 255).owner = none ∧
     (((maskList 16 (dfld x 10 0 16)).filter (· != s.dev.chip)).any fun c => s.dev.portDown c) = false) ∧
    (run.dev.bar (255 % 256)).wait = none ∧
    (let i : Issued := { idx := 5, d := mkD 0x50 [(12, 0, 9)], seq := 0 }
     let s := (isSt i []).onDev fun d => d.setBar 7 { wait := some (3, 0, 0x8001) }
     (s.dev.bar 7).wait = some (3, 0, 0x8001) ∧ s.dev.bySeq 3 0 = some i ∧ dfld i.d 12 0 32 ≠ 0 ∧ (s.dev.bar 7).gen = (7 : Nat).testBit 8 ∧
     (0x8001 : Nat).testBit (msg 0x10 0).src = true ∧ (s.dev.bar 7).wait ≠ none) := by
  decide +kernel
/-- A member of a pair in role `r`, its port 3 up, with the controller `x`. -/
def pairSt (r : Nat) (x : Pair) (l : List (Fld × Nat)) : State := devSt fun d =>
  { d.wrs ((F.GLB_FUSE_PAIR_EN, 1) :: (F.PAIR_STATUS_ROLE, r) :: (F.CLS_PORT_STAT_STATE 3, 2) :: l) with strap := 0x40, pair := x }
def cmt (k : Nat) : Commit := { seq := k, what := 0 }
theorem wit_PairEvents :
    (∀ r ∈ [1, 2, 3], let s := pairSt r { peerRole := 3 } []
      let d := s.dev
      s.periRuns = true ∧ s.reaches (.host 0) 0xC00014 = true ∧ d.isPair = true ∧ d.role = r ∧ d.is F.PAIR_STATUS_ASLEEP = false ∧
      d.pair.wakePending = false ∧ d.pairLink = true ∧ d.is F.PAIR_STATUS_PARTNER_LOST = false ∧ d.is F.PAIR_CMD_BUSY = false ∧
      d.pair.commit = none ∧ d.pair.peerRole = 3 ∧ d.portState 3 = 2) ∧
    (pairSt 3 {} [(F.PAIR_CFG_AUTO, 1)]).dev.is F.PAIR_CFG_AUTO = true ∧
    (∀ k ∈ [7, 8], let d := (pairSt 1 {} [(F.BOOT_STATUS_STAGE, k), (F.CLS_PORT_STAT_STATE 3, 1)]).dev
     d.role = 1 ∧ d.rd F.BOOT_STATUS_STAGE = k ∧ d.portState 3 ≠ 2) ∧
    (let d := (pairSt 3 { stagedSeq := 9, staged := [(0, List.replicate 8 1)] } []).dev
     d.pair.stagedSeq = 9 ∧ (∀ j, j < 1 → fget d.pair.staged j ≠ none) ∧
     (Commit.ofParts 9 4 ((List.range 1).map fun j => (fget d.pair.staged j).getD [])).isSome = true) ∧
    (let x := mkD 0x51 [(8, 0, 1)]
     let s := (pairSt 2 { peerRole := 3 } [(F.Q_STATUS_STATE 0, 1)]).onDev fun d => d.setQueue 0 { fetched := [x] }
     s.headAt 0 0x51 x = true ∧ s.dev.qctx 0 = 0 ∧ dfld x 16 0 64 = 0 ∧ s.dev.role = 2 ∧ s.dev.pair.peerRole = 3 ∧ s.dev.pairLink = true ∧
     s.dev.pair.commit = none) ∧
    (∀ q ∈ [64, 65], let d := (pairSt 2 { commit := some (q, 0, cmt 4) } []).dev
     d.pair.commit = some (q, 0, cmt 4) ∧ (cmt 4).seq = 4) ∧
    (let i : Issued := { idx := 5, d := mkD 0x51 [], seq := 0 }
     let d := (((isSt i []).onDev fun d => { d with pair := { d.pair with commit := some (3, 0, cmt 4) } })).dev
     d.pair.commit = some (3, 0, cmt 4) ∧ d.bySeq 3 0 = some i) ∧
    (pairSt 2 {} [(F.PAIR_STATUS_ASLEEP, 1)]).dev.is F.PAIR_STATUS_ASLEEP = true ∧
    (let d := (pairSt 2 { switching := 1 } []).dev
     d.pair.switching = 1 ∧ (List.range 4).any (fun g => (d.gate g).any (·.active)) = false ∧ d.pair.commit = none) ∧
    (pairSt 3 { applied := some (cmt 4) } []).dev.pair.applied = some (cmt 4) := by decide +kernel

end Sys2Proof.Tests
end

section
/-! PROOFS. The test port and RESET_N (chapter 02): what changes the level of RESET_N and the loaded instruction, which instruction is in
force, what stands on a ball of the boundary-scan chain, and O17. -/

namespace Sys2Proof.Machine

/-! ### What keeps the level of RESET_N -/

@[simp] theorem Aon.setEngine_resetN (a : Aon) (n : Nat) : (a.setEngine n).resetN = a.resetN := rfl
@[simp] theorem Aon.showFaultN_resetN (a : Aon) : a.showFaultN.resetN = a.resetN := rfl

/-- Switching a rail on keeps the level, whether or not the rail is held off. -/
@[simp] theorem Aon.railOn_resetN (a : Aon) (n : Nat) : (a.railOn n).resetN = a.resetN := by
  unfold Aon.railOn
  split <;> rfl

@[simp] theorem Aon.railsOn_resetN (a : Aon) (ns : List Nat) : (a.railsOn ns).resetN = a.resetN := by
  induction ns generalizing a with
  | nil => rfl
  | cons n ns ih => exact (ih (a.railOn n)).trans (a.railOn_resetN n)

/-- A step of the ROM sequence keeps the level: it enables its channels, or past the last step waits or ends. -/
@[simp] theorem Aon.romStep_resetN (a : Aon) : a.romStep.resetN = a.resetN := by
  unfold Aon.romStep
  split
  case h_1 m _ => exact a.railsOn_resetN (maskList 24 m)
  case h_2 => split <;> rfl

@[simp] theorem Aon.startRemainder_resetN (a : Aon) : a.startRemainder.resetN = a.resetN := Aon.romStep_resetN _

/-- The end of LATCHOFF keeps the level, with or without a brown-out in progress. -/
@[simp] theorem Aon.latchEnd_resetN (a : Aon) : a.latchEnd.resetN = a.resetN := by
  unfold Aon.latchEnd
  split <;> rfl

/-- Going on without an image keeps the level; only the waiting engine is touched, which runs the ROM remainder. -/
@[simp] theorem State.noImage_resetN (s : State) : s.noImage.aon.resetN = s.aon.resetN := by
  unfold State.noImage
  dsimp only
  split
  · exact Aon.startRemainder_resetN _
  · rfl

/-- A start of the boot controller keeps the level: held by TEST_EN, without an image, or at the header stage. -/
@[simp] theorem State.startBoot_resetN (s : State) (redelivery : Bool) : (s.startBoot redelivery).aon.resetN = s.aon.resetN := by
  unfold State.startBoot
  split
  · rfl
  · dsimp only
    split
    · exact State.noImage_resetN _
    · rfl

/-! ### The instruction in force (R58) -/

/-- While RESET_N is low the loaded instruction is in force. -/
theorem Aon.tapInForce_of_resetN_low {a : Aon} (h : a.resetN = false) : a.tapInForce = a.tap := by
  simp [Aon.tapInForce, h]

/-- While RESET_N is high a loaded EXTEST acts as BYPASS. -/
theorem Aon.tapInForce_of_extest_high {a : Aon} (ht : a.tap = .extest) (h : a.resetN = true) : a.tapInForce = .bypass := by
  simp [Aon.tapInForce, ht, h]

/-- While RESET_N is high EXTEST is not in force, whatever is loaded. -/
theorem Aon.tapInForce_ne_extest_of_resetN_high {a : Aon} (h : a.resetN = true) : a.tapInForce ≠ .extest := by
  by_cases ht : a.tap = .extest
  · simp [Aon.tapInForce_of_extest_high ht h]
  · simp [Aon.tapInForce, ht]

/-! ### What stands on a ball (R48, R58) -/

/-- EXTEST in force puts its cell on an output ball of the chain. -/
theorem State.drive_of_extest {s : State} {b : Ball} (hpad : s.aon.padOk (ballBank b) = true) (htest : s.aon.testEn = false)
    (hout : ballIsOutput b = true) (hchain : ballInChain b = true) (hx : s.aon.tapInForce = .extest) : s.drive b = s.aon.cellDrive b := by
  simp [State.drive, hpad, htest, hout, hchain, hx]

/-- Without EXTEST in force a supplied ball takes what the block's logic gives it. -/
theorem State.drive_of_not_extest {s : State} {b : Ball} (hpad : s.aon.padOk (ballBank b) = true) (htest : s.aon.testEn = false)
    (hx : s.aon.tapInForce ≠ .extest) : s.drive b = s.logicDrive b := by
  simp [State.drive, hpad, htest, hx]

/-! ### The commands -/

/-- The state with EXTEST loaded. -/
def State.loadExtest (s : State) : State := s.onAon fun a => { a with tap := .extest, tapOut := 0 }

/-- With its supply valid the test port loads EXTEST, and nothing else changes. -/
theorem exec_jtagExtest {s : State} (h : s.aon.supplyOk = true) : exec .jtagExtest s = .next s.loadExtest := by
  have hexec : exec .jtagExtest s = s.nextTap fun a => { a with tap := .extest, tapOut := 0 } := rfl
  rw [hexec, State.nextTap, if_pos h]
  rfl

/-- Outside the brown-out state a falling RESET_N leaves it low and the loaded instruction as it was. -/
theorem exec_resetNAssert_keeps_tap {s : State} (hballs : s.aon.ballsReleased = false) (hhigh : s.aon.resetN = true) :
    ∃ u, exec .resetNAssert s = .next u ∧ u.aon.resetN = false ∧ u.aon.tap = s.aon.tap := by
  have hexec : exec .resetNAssert s = execResetNAssert s := rfl
  refine ⟨(s.onAon fun a => { a with resetN := false }).fullReset 2, ?_, rfl, rfl⟩
  simp [hexec, execResetNAssert, hballs, hhigh]

/-- Outside the brown-out state a rising RESET_N stands high after every release: at the end of LATCHOFF, at a new start of the boot
controller, and where neither follows. -/
theorem exec_resetNRelease_resetN {s : State} (hballs : s.aon.ballsReleased = false) (hlow : s.aon.resetN = false) :
    ∃ u, exec .resetNRelease s = .next u ∧ u.aon.resetN = true := by
  have hexec : exec .resetNRelease s = execResetNRelease s := rfl
  rw [hexec, execResetNRelease, if_neg (by simp [hballs, hlow])]
  dsimp only
  split
  · exact ⟨_, rfl, Aon.latchEnd_resetN _⟩
  · split
    · exact ⟨_, rfl, State.startBoot_resetN _ _⟩
    · exact ⟨_, rfl, rfl⟩

/-! ### O17 -/

/-- A ball of the chain that the block can drive, after EXTEST has been loaded: its cell while RESET_N is low, its block's level while
RESET_N is high. -/
theorem State.loadExtest_drive {s : State} {b : Ball} (htest : s.aon.testEn = false) (hpad : s.aon.padOk (ballBank b) = true)
    (hout : ballIsOutput b = true) (hchain : ballInChain b = true) :
    (s.aon.resetN = false → s.loadExtest.drive b = s.loadExtest.aon.cellDrive b) ∧
    (s.aon.resetN = true → s.loadExtest.drive b = s.loadExtest.logicDrive b) :=
  ⟨fun hlow => State.drive_of_extest (s := s.loadExtest) hpad htest hout hchain (Aon.tapInForce_of_resetN_low hlow),
   fun hhigh => State.drive_of_not_extest (s := s.loadExtest) hpad htest (Aon.tapInForce_ne_extest_of_resetN_high hhigh)⟩

/-- Settles O17: the command loads EXTEST whatever RESET_N is, and which instruction is in force follows the level of RESET_N, before and
after an edge of it. -/
theorem extestNeedsResetLow : Obligations.ExtestNeedsResetLow := by
  unfold Obligations.ExtestNeedsResetLow
  intro s t hsupply hexec
  have hload := exec_jtagExtest hsupply
  obtain rfl : s.loadExtest = t := Host.Outcome.next.inj (hload.symm.trans hexec)
  refine ⟨hload, Aon.tapInForce_of_extest_high (a := s.loadExtest.aon) rfl, Aon.tapInForce_of_resetN_low (a := s.loadExtest.aon), rfl,
    ?balls, ?assert, ?release⟩
  case balls => exact fun b htest hpad hout hchain => State.loadExtest_drive htest hpad hout hchain
  case assert =>
    intro hhigh hballs
    obtain ⟨u, hu, hlow, htap⟩ := exec_resetNAssert_keeps_tap (s := s.loadExtest) hballs hhigh
    exact ⟨u, hu, (Aon.tapInForce_of_resetN_low hlow).trans htap⟩
  case release =>
    intro hlow hballs
    obtain ⟨u, hu, hhigh⟩ := exec_resetNRelease_resetN (s := s.loadExtest) hballs hlow
    exact ⟨u, hu, Aon.tapInForce_ne_extest_of_resetN_high hhigh⟩

end Sys2Proof.Machine
end

section
/-! PROOFS. The margins of the rails (chapter 03): what changes no margin, and O21. -/

namespace Sys2Proof.Machine

/-! ### Reading a rail after a write -/

@[simp] theorem Aon.rail_setRail_same (a : Aon) (n : Nat) (r : Rail) : (a.setRail n r).rail n = r := by
  simp [Aon.rail, Aon.setRail]

theorem Aon.rail_setRail_ne (a : Aon) {n k : Nat} (r : Rail) (h : k ≠ n) : (a.setRail n r).rail k = a.rail k := by
  simp [Aon.rail, Aon.setRail, fget_fset_ne _ _ h]

@[simp] theorem Aon.wr_rail (a : Aon) (f : Fld) (v k : Nat) : (a.wr f v).rail k = a.rail k := rfl

/-- A write of a rail that keeps its margin keeps every margin. -/
theorem Aon.setRail_margin {a : Aon} {n : Nat} {r : Rail} (h : r.margin = (a.rail n).margin) (k : Nat) :
    ((a.setRail n r).rail k).margin = (a.rail k).margin := by
  by_cases hk : k = n
  · subst hk
    rw [Aon.rail_setRail_same, h]
  · rw [Aon.rail_setRail_ne a r hk]

/-! ### The PMBus leaves the rails alone -/

@[simp] theorem Aon.setBus_rails (a : Aon) (b : Nat) (p : PmbBus) : (a.setBus b p).rails = a.rails := by
  unfold Aon.setBus
  split <;> rfl

/-- Starting the next waiting transaction of a bus changes no rail, whether or not one starts. -/
@[simp] theorem Aon.busKick_rails (a : Aon) (b : Nat) : (a.busKick b).rails = a.rails := by
  unfold Aon.busKick
  dsimp only
  split
  · rfl
  · split
    · exact a.setBus_rails b _
    · rfl

@[simp] theorem Aon.dropMargin_rails (a : Aon) (b n : Nat) (host : Bool) : (a.dropMargin b n host).rails = a.rails :=
  (Aon.busKick_rails _ _).trans (Aon.setBus_rails _ _ _)

@[simp] theorem Aon.dropMargin_rail (a : Aon) (b n : Nat) (host : Bool) (k : Nat) : (a.dropMargin b n host).rail k = a.rail k := by
  simp [Aon.rail]

/-! ### The engine's advance keeps every margin

An engine that runs the ROM sequence enables the channels of its next step, which writes their rails (R60, R63). -/

/-- Enabling a rail sets what its arming waits for and keeps its margin. -/
theorem Aon.railOn_margin (a : Aon) (n k : Nat) : ((a.railOn n).rail k).margin = (a.rail k).margin := by
  unfold Aon.railOn
  split
  · rfl
  · dsimp only
    rw [Aon.wr_rail]
    exact Aon.setRail_margin (a := { a with enOrder := a.enOrder ++ [n] }) (by rfl) k

theorem Aon.railsOn_margin (a : Aon) (ns : List Nat) (k : Nat) : ((a.railsOn ns).rail k).margin = (a.rail k).margin := by
  induction ns generalizing a with
  | nil => rfl
  | cons n ns ih => exact (ih (a.railOn n)).trans (a.railOn_margin n k)

/-- A step of the ROM sequence keeps every margin: it enables its channels, or past the last step waits or ends. -/
theorem Aon.romStep_margin (a : Aon) (k : Nat) : (a.romStep.rail k).margin = (a.rail k).margin := by
  unfold Aon.romStep
  split
  case h_1 m _ => exact a.railsOn_margin (maskList 24 m) k
  case h_2 => split <;> rfl

/-- The next instruction of an image program moves the index alone; that of a ROM sequence runs its step. -/
theorem Aon.advance_margin (a : Aon) (k : Nat) : (a.advance.rail k).margin = (a.rail k).margin := by
  unfold Aon.advance
  dsimp only
  split
  · split <;> rfl
  · exact Aon.romStep_margin _ k

theorem Aon.advanceOrHold_margin (a : Aon) (k : Nat) : (a.advanceOrHold.rail k).margin = (a.rail k).margin := by
  unfold Aon.advanceOrHold
  split
  · exact a.advance_margin k
  · rfl

/-! ### O21 -/

/-- A margin write that has failed keeps every margin, the host's and the engine's (R96). -/
theorem Aon.marginEnd_failed_margin (a : Aon) (n st : Nat) (host : Bool) (k : Nat) :
    ((a.marginEnd n st host false).rail k).margin = (a.rail k).margin := by
  cases host with
  | true => simp [Aon.marginEnd]
  | false => simp [Aon.marginEnd, Aon.advanceOrHold_margin]

/-- Settles O21: the margin write in progress, if there is one, ends as failed and keeps every margin. -/
theorem failedMarginKeepsMargins : Obligations.FailedMarginKeepsMargins := by
  unfold Obligations.FailedMarginKeepsMargins
  intro s
  have hexec : exec (.marginDone false) s = execMarginDone false s := rfl
  refine ⟨_, hexec, fun k => ?_⟩
  rw [State.onAon_aon]
  split
  · exact Aon.marginEnd_failed_margin _ _ _ _ k
  · rfl

end Sys2Proof.Machine
end

section
/-! PROOFS. The verdict port's commands (chapter 17): a head descriptor that issues in the CORE domain, which VERDICT_WRITEs are
accepted, and O45. -/

namespace Sys2Proof.Machine

/-! ### A head descriptor that issues -/

/-- Two changes that give the device the same value are one change of the state. -/
theorem State.onDev_congr {s : State} {f g : Dev → Dev} (h : f s.dev = g s.dev) : s.onDev f = s.onDev g := by
  simp [State.onDev, h]

/-- A command of the CORE domain runs its operation on the head descriptor that nothing keeps from issuing (R240, R241, R259). -/
theorem State.nextCore_goHead_of_headAt {s : State} {q op : Nat} {x : Desc} (h : s.headAt q op x = true) (f : Dev → Desc → Dev) :
    (s.nextCore fun d => d.goHead q op f) = .next (s.onDev fun d => f d x) := by
  obtain ⟨hcore, -⟩ := (State.headAt_iff s q op x).mp h
  exact (State.nextCore_of_runs hcore _).trans (congrArg Host.Outcome.next (State.onDev_congr (Dev.goHead_of_headAt h f)))

/-! ### VERDICT_WRITE (R403, R404) -/

/-- The test that turns a VERDICT_WRITE away passes it when the block is enabled and queue `q`'s context owns it (R404). -/
theorem Dev.verdictBlock_accepts {d : Dev} {q b : Nat} (hen : d.is (F.VP_BLOCK_EN b) = true)
    (hown : d.rd (F.VP_BLOCK_CTX b) = d.qctx q) :
    ¬ ((!d.is (F.VP_BLOCK_EN b) || d.rd (F.VP_BLOCK_CTX b) != d.qctx q) = true) := by
  simp [hen, hown]

/-- Settles O45: the head descriptor is handed to the operation, the block accepts it (R404), and IMM = 1 takes the branch that writes
the word at once (R403). -/
theorem immediateVerdict : Obligations.ImmediateVerdict := by
  unfold Obligations.ImmediateVerdict
  intro s q t x hhead himm hen hown
  have hexec : exec (.verdictWrite q t) s = execVerdictWrite q t s := rfl
  rw [hexec, execVerdictWrite, State.nextCore_goHead_of_headAt hhead]
  refine congrArg Host.Outcome.next (State.onDev_congr ?_)
  dsimp only
  rw [if_neg (Dev.verdictBlock_accepts hen hown), if_pos himm]

end Sys2Proof.Machine
end

section
/-! PROOFS. Which part of the state a command can change, one lemma for each class of commands: those that change nothing in the always-on
domain, those that change it alone, and the rest, which change both halves and never the waiting commands. O2, O3, O4, O6, O7 are read off
these. -/

namespace Sys2Proof.Machine

/-! ### The shapes of an outcome -/

/-- `t` differs from `s` in the two halves alone: the waiting commands and the sampled straps are those of `s`. -/
def State.SameFront (s t : State) : Prop := t.pending = s.pending ∧ t.strap = s.strap

/-- The outcome is a next state that differs from `s` outside the always-on domain at most. -/
def State.EndsDev (s : State) (r : Res) : Prop := ∃ d, r = .next { s with dev := d }
/-- The outcome is a next state that differs from `s` in the always-on domain at most. -/
def State.EndsAon (s : State) (r : Res) : Prop := ∃ a, r = .next { s with aon := a }
/-- The outcome is a next state that differs from `s` in the two halves at most. -/
def State.EndsFront (s : State) (r : Res) : Prop := ∃ t, r = .next t ∧ s.SameFront t

theorem State.SameFront.refl (s : State) : s.SameFront s := ⟨rfl, rfl⟩

theorem State.SameFront.trans {s t u : State} (h : s.SameFront t) (h' : t.SameFront u) : s.SameFront u :=
  ⟨h'.1.trans h.1, h'.2.trans h.2⟩

/-- Either branch of a choice keeps the front. -/
theorem State.SameFront.ite {c : Prop} [Decidable c] {s t u : State} (ht : s.SameFront t) (hu : s.SameFront u) :
    s.SameFront (if c then t else u) := by
  split
  · exact ht
  · exact hu

/-- Changes of the halves, one after the other, go on from where they stand. -/
theorem State.SameFront.foldl {α : Type} {f : State → α → State} (hf : ∀ (s : State) a, s.SameFront (f s a)) (l : List α) (s : State) :
    s.SameFront (l.foldl f s) := by
  induction l generalizing s with
  | nil => exact .refl s
  | cons a l ih => exact (hf s a).trans (ih _)

theorem State.endsDev_next (s : State) (f : Dev → Dev) : s.EndsDev (s.nextDev f) := ⟨f s.dev, rfl⟩
theorem State.endsDev_self (s : State) : s.EndsDev (.next s) := ⟨s.dev, rfl⟩
theorem State.endsAon_next (s : State) (f : Aon → Aon) : s.EndsAon (s.nextAon f) := ⟨f s.aon, rfl⟩
theorem State.endsAon_self (s : State) : s.EndsAon (.next s) := ⟨s.aon, rfl⟩

theorem State.EndsDev.front {s : State} {r : Res} (h : s.EndsDev r) : s.EndsFront r := by
  obtain ⟨d, rfl⟩ := h
  exact ⟨_, rfl, rfl, rfl⟩
theorem State.EndsAon.front {s : State} {r : Res} (h : s.EndsAon r) : s.EndsFront r := by
  obtain ⟨a, rfl⟩ := h
  exact ⟨_, rfl, rfl, rfl⟩
theorem State.SameFront.ends {s t : State} (h : s.SameFront t) : s.EndsFront (.next t) := ⟨t, rfl, h⟩
theorem State.endsFront_self (s : State) : s.EndsFront (.next s) := (State.SameFront.refl s).ends

/-! ### Domains that do not run -/

theorem State.EndsDev.inPeri {s : State} {r : Res} (h : s.EndsDev r) : s.EndsDev (s.inPeri r) := by
  unfold State.inPeri
  split
  · exact h
  · exact s.endsDev_self
theorem State.EndsDev.inCore {s : State} {r : Res} (h : s.EndsDev r) : s.EndsDev (s.inCore r) := by
  unfold State.inCore
  split
  · exact h
  · exact s.endsDev_self
theorem State.EndsFront.inPeri {s : State} {r : Res} (h : s.EndsFront r) : s.EndsFront (s.inPeri r) := by
  unfold State.inPeri
  split
  · exact h
  · exact s.endsFront_self
theorem State.EndsFront.inCore {s : State} {r : Res} (h : s.EndsFront r) : s.EndsFront (s.inCore r) := by
  unfold State.inCore
  split
  · exact h
  · exact s.endsFront_self
theorem State.endsDev_nextPeri (s : State) (f : Dev → Dev) : s.EndsDev (s.nextPeri f) := (s.endsDev_next f).inPeri
theorem State.endsDev_nextCore (s : State) (f : Dev → Dev) : s.EndsDev (s.nextCore f) := (s.endsDev_next f).inCore

/-- An access that does not reach its register leaves its record alone. -/
theorem State.endsDev_devReg (s : State) (req : Requester) (off : Nat) (f : Dev → Dev) : s.EndsDev (s.devReg req off f) := by
  unfold State.devReg State.atReg
  refine State.EndsDev.inPeri ?_
  split
  · exact s.endsDev_next _
  · split <;> exact s.endsDev_next _
theorem State.EndsFront.atReg {s : State} {r : Res} (h : s.EndsFront r) (req : Requester) (off : Nat) : s.EndsFront (s.atReg req off r) := by
  unfold State.atReg
  refine State.EndsFront.inPeri ?_
  split
  · exact (s.endsDev_next _).front
  · split
    · exact (s.endsDev_next _).front
    · exact h
theorem State.endsAon_nextTap (s : State) (f : Aon → Aon) : s.EndsAon (s.nextTap f) := by
  unfold State.nextTap
  split
  · exact s.endsAon_next f
  · exact s.endsAon_self

/-! ### Commands that change nothing in the always-on domain -/

theorem execMisalignedAccess_endsDev (off rid : Nat) (s : State) : s.EndsDev (execMisalignedAccess off rid s) := by
  refine State.EndsDev.inPeri ?_
  unfold State.accessed
  split <;> exact s.endsDev_next _

theorem execDomainOffAccess_endsDev (off rid : Nat) (s : State) : s.EndsDev (execDomainOffAccess off rid s) := by
  refine State.EndsDev.inPeri ?_
  unfold State.accessed
  split
  · exact s.endsDev_next _
  · dsimp only
    split
    · exact s.endsDev_next _
    · exact s.endsDev_self

/-- The work of a DRAM section ends outside the always-on domain, whether or not the image has one and the work may start. -/
theorem execDramWorkStart_endsDev (s : State) : s.EndsDev (execDramWorkStart s) := by
  unfold execDramWorkStart
  split
  · exact s.endsDev_self
  · split
    · exact s.endsDev_self
    · exact s.endsDev_next _

theorem execDramInitDone_endsDev (s : State) : s.EndsDev (execDramInitDone s) := by
  unfold execDramInitDone
  split
  · exact s.endsDev_self
  · split
    · exact s.endsDev_self
    · exact s.endsDev_next _

/-- A command outside the list of `touchesAon` ends in a next state with the same always-on domain. -/
theorem exec_endsDev (i : Instr) (s : State) (h : touchesAon i = false) : s.EndsDev (exec i s) := by
  cases i
  case misalignedAccess off rid => exact execMisalignedAccess_endsDev off rid s
  case domainOffAccess off rid => exact execDomainOffAccess_endsDev off rid s
  case dramWorkStart => exact execDramWorkStart_endsDev s
  case dramInitDone => exact execDramInitDone_endsDev s
  case cardDetEdge | vpReadCycle => exact s.endsDev_next _
  case activate | deactivate | warmReset | exchange | keyLoad | clockStop | clockRestart | enterWide | cbpSleep | cbpWake | raw |
      apertureEnable | msixTableWrite | keySlotLoad | zeroize | keySlotQuery | create | destroy | bind | unbind | setRoot | pin | unpin |
      ctxQuery | preempt | resume | kill | setSpill | clearSpill | preemptQuery | evtRingEnable | evtHeadWrite | savePoolWrite | doorbell
      | queueEnable | queueDisable | queueResume | semValWrite | semCfgWrite | tbEnWrite | hostStep | verdictClear | switchover |
      pairSleep | pairWake | clsPortEnWrite | mount | unmount | flush | append | standingGo | wdtKick =>
    exact s.endsDev_devReg _ _ _
  case cardInserted | cardRemoved | cardOvercurrent | activationTimer | atrTimeout | atrCharacterTimeout | atrReceived | ppsResponse |
      ppsTimeout | t1BlockReceived | t1Timeout | clockStopped | wideSwitchTimer | iFrameReceived | rFrameReceived | wtxRequest |
      frameWaitTimeout | resynchResponse | sleepIdleExpire | sleepResponse | wakeResponse | configRequest | bar2Resize | bar2Read |
      bar2Write | p2pWrite | pcieLinkUp | sharedSramClear | quadEdge | pulseEdge | mainsEdge | indexEdge | sourceLoss | holdoverExpire |
      slewComplete | holdbackEnd | alarmFire | verdictUpdate | gateEdge | waitPositionReached | tbPulseStart | tbPulseEnd | vpCapture |
      mirrorAck | mirrorAckTimeout | mirror | mirrorEnd | takeover | partnerLost | aloneExpire | hello | heartbeat | heartbeatSend |
      posReq | pos | posExchangeTimer | switchoverCapture | release | sleepMessage | linkUp | linkFailed | flitReceived | replayTimeout |
      messageForward | write | read | wack | rdata | reject | reqTimeout | arrive | abandon | barrierTimeout | activityModelTick | edcTick
      | droopDetect | droopHoldExpire | vsettleExpire | offer | lsMemberLost | hostCreditsReturned | mediaProgramDone | mediaEraseDone |
      patrolRead | refresh | logFlushExpire | logHeadSearch | standaloneStart | standaloneLoad | d3hotEntry =>
    exact s.endsDev_nextPeri _
  case mmaRendezvous | passDrainComplete | moverCompletion | completionTimeout | unpinComplete | pageWalkDone | killRevocationDone |
      atsCompletion | priResponse | priTimeout | atsInvalidate | invalidateReadsDrained | dispatchAcquire | dispatchRun | dispatchRelease
      | leaseGrant | tileClearDone | graceExpire | preemptStopDone | preemptSaveDone | preemptClearDone | restoreStart | restoreDone |
      descriptorFetch | reservedOpcode | nop | dma | signalAdd | signalSet | wait | waitTimeout | fence | fenceFlushDone | prefetch |
      advise | tableUpdate | waitPosition | atPosition | verdictWrite | gateArm | mirrorCommit | claspBarrier | powerHint | shutterClose |
      shutterWakeDone | convert | convertStart | convertComplete | tileEnd | tileNop | br | bcc | jr | loop | add | sub | and | or | xor |
      shl | shr | sra | mul | min | max | addi | li | lih | ld | st | storeComplete | get | put | seta | setb | rsv | rsvGrant | mma | vop
      | twait | twaitSatisfied | gbar | gbarRelease | rendezvousDeadlock | vnop | vld | vst | vmov | vgetr | vflags | vadd | vsub | vmul |
      vfma | vmax | vmin | vmaxnum | vminnum | vsgnAbs | vsgnNeg | vsgnCopysign | vcmp | vsel | exp | exp2 | log | log2 | rcp | rsqrt |
      sqrt | div | tanh | sigmoid | erf | gelu | redSum | redMax | redMin | redMaxnum | redMinnum | vsmx1 | vsmxm | vsmx2 | vwel1 | vwelc
      | vwelm | cardReadRecipe | cardReadPartition =>
    exact s.endsDev_nextCore _
  all_goals exact Bool.noConfusion h

/-! ### Commands that change the always-on domain alone -/

/-- A command of `onlyAon` ends in a next state with the same other half. -/
theorem exec_endsAon (i : Instr) (s : State) (h : onlyAon i = true) : s.EndsAon (exec i s) := by
  cases i
  case perstDeassert =>
    change s.EndsAon (if s.aon.ballsReleased then .next s else _)
    split
    · exact s.endsAon_self
    · exact s.endsAon_next _
  case jtagBypass | jtagIdcode | jtagSamplePreload | jtagExtest => exact s.endsAon_nextTap _
  case romPreamble | seqEnd | seqEnable | seqDisable | seqWait | seqWaitpg | waitpgSatisfied | waitpgTimeout | seqCheck | seqJump |
      seqJumpif | seqMargin | marginDone | seqLog | progTimeout | armTimerExpire | seqPgRise | seqPgFall | pgLost | retryRail |
      retryBackoffExpire | retryPgTimeout | retryAttemptSuccess | retryHealthyExpire | groupShutdown | groupOffdlyExpire | sysresetOffStep
      | rstCountClear | faultnRelease | faultnReleaseCheck | faultnExt | faultnStuck | pmbAlert | pmbPoll | pmbStuck | locketEraseDone |
      locketOpTimeout | locketStartupScan | locketReadDone | brownoutRailOff | brownoutRestart | thermtripRailOff | testEnHigh | ref25Loss
      | ref25Return =>
    exact s.endsAon_next _
  all_goals exact Bool.noConfusion h

/-! ### What the operations on both halves keep -/

theorem State.sameFront_onDev (s : State) (f : Dev → Dev) : s.SameFront (s.onDev f) := ⟨rfl, rfl⟩
theorem State.sameFront_onAon (s : State) (f : Aon → Aon) : s.SameFront (s.onAon f) := ⟨rfl, rfl⟩
theorem State.sameFront_dev (s : State) (d : Dev) : s.SameFront { s with dev := d } := ⟨rfl, rfl⟩

theorem State.sameFront_onPeri (s : State) (f : Dev → Dev) : s.SameFront (s.onPeri f) := by
  unfold State.onPeri
  split
  · exact s.sameFront_onDev f
  · exact .refl s

theorem State.sameFront_noImage (s : State) : s.SameFront s.noImage := by
  unfold State.noImage
  dsimp only
  split <;> exact ⟨rfl, rfl⟩

theorem State.sameFront_startBoot (s : State) (redelivery : Bool) : s.SameFront (s.startBoot redelivery) := by
  unfold State.startBoot
  split
  · exact .refl s
  · dsimp only
    split
    · exact (s.sameFront_onDev _).trans (State.sameFront_noImage _)
    · exact ⟨rfl, rfl⟩

theorem State.sameFront_copyFail (s : State) (code : Nat) : s.SameFront (s.copyFail code) := by
  unfold State.copyFail
  dsimp only
  split
  · exact s.sameFront_dev _
  · exact (s.sameFront_dev _).trans (State.sameFront_noImage _)

theorem State.sameFront_sysReset (s : State) : s.SameFront s.sysReset := by
  unfold State.sysReset
  split
  · split
    · exact (s.sameFront_onPeri _).trans (State.sameFront_onAon _ _)
    · exact .refl s
  · exact .refl s

theorem State.sameFront_swreset (s : State) : s.SameFront s.swreset := by
  unfold State.swreset
  split
  · exact .refl s
  · exact (s.sameFront_onAon _).trans (State.sameFront_sysReset _)

theorem State.sameFront_internalUe (s : State) (translation : Bool) (ctx : Nat) : s.SameFront (s.internalUe translation ctx) := ⟨rfl, rfl⟩

/-- A bit error changes what its word holds and, inside the block, leads to an error record. -/
theorem State.sameFront_upset (s : State) (u : Upset) : s.SameFront (s.upset u) := by
  cases u with
  | mem a two =>
    unfold State.upset
    dsimp only
    split
    · exact .ite (s.sameFront_onDev _) (.refl s)
    · exact s.sameFront_onDev _
    · exact .ite (s.sameFront_onDev _) (.refl s)
  | quire n e two => exact .ite (s.sameFront_onDev _) (.refl s)
  | internal tr c two => exact .ite (s.sameFront_internalUe _ _) (s.sameFront_onDev _)
  | mullion n => exact .ite (s.sameFront_onDev _) (.refl s)

/-! ### Register accesses -/

theorem State.sameFront_setCapt (s : State) (base : Nat) (v : Option Nat) : s.SameFront (s.setCapt base v) := by
  unfold State.setCapt
  dsimp only
  split <;> exact ⟨rfl, rfl⟩

theorem State.sameFront_setHeld (s : State) (base : Nat) (v : Option Nat) : s.SameFront (s.setHeld base v) := by
  unfold State.setHeld
  dsimp only
  split <;> exact ⟨rfl, rfl⟩

/-- A read changes the captured halves and the error record alone. -/
theorem State.sameFront_read32 (s : State) (req : Requester) (off : Nat) : s.SameFront (s.read32 req off).2 := by
  unfold State.read32
  split
  · exact s.sameFront_onDev _
  split
  · exact .refl s
  split
  · exact .refl s
  split
  · exact .refl s
  split
  · split
    · exact s.sameFront_setCapt _ _
    · exact .refl s
  · exact s.sameFront_setCapt _ _

theorem State.sameFront_mmioRead (s : State) (req : Requester) (off width : Nat) : s.SameFront (s.mmioRead req off width).2 := by
  unfold State.mmioRead
  split
  · exact .refl s
  split
  · exact .refl s
  split
  · exact s.sameFront_read32 _ _
  split
  · split
    · exact s.sameFront_onDev _
    · exact .refl s
  · exact (s.sameFront_read32 _ _).trans (State.sameFront_read32 _ _ _)

theorem State.sameFront_phaseRestore (s : State) : s.SameFront s.phaseRestore := by
  unfold State.phaseRestore
  split
  · exact s.sameFront_onDev _
  · exact .refl s

theorem State.sameFront_aonWrite (s : State) (h : Hit) (off v : Nat) : s.SameFront (s.aonWrite h off v) := by
  unfold State.aonWrite
  split
  · exact .refl s
  split
  · dsimp only
    have hreset : s.SameFront (if F.SEQ_CTRL_SWRESET.of v = 1
        then (s.onAon fun a => (a.store h off v).wr F.SEQ_CTRL_LOCK 0).swreset
        else s.onAon fun a => (a.store h off v).wr F.SEQ_CTRL_LOCK 0) := by
      split
      · exact (s.sameFront_onAon _).trans (State.sameFront_swreset _)
      · exact s.sameFront_onAon _
    split
    · exact hreset.trans (State.sameFront_onAon _ _)
    · exact hreset
  split
  · exact s.sameFront_onAon _
  split <;> exact s.sameFront_onAon _

theorem State.sameFront_pwrWrite (s : State) (off v : Nat) (g : Dev) : s.SameFront (s.pwrWrite off v g) := by
  unfold State.pwrWrite
  dsimp only
  split
  · exact ⟨rfl, rfl⟩
  split
  · split
    · exact ((s.sameFront_dev g).trans (State.sameFront_onDev _ _)).trans (State.sameFront_phaseRestore _)
    · exact ⟨rfl, rfl⟩
  · exact s.sameFront_dev g

/-- A write of a register changes the half that holds it, by block. -/
theorem State.sameFront_regSet (s : State) (req : Requester) (h : Hit) (off v : Nat) : s.SameFront (s.regSet req h off v) := by
  unfold State.regSet
  have dev (f : Dev → Dev) : s.SameFront (s.onDev f) := s.sameFront_onDev f
  exact .ite (s.sameFront_aonWrite h off v) <| .ite (.ite (dev _) (.refl s)) <| .ite (dev _) <| .ite (dev _) <| .ite (dev _) <|
    .ite (dev _) <| .ite (s.sameFront_pwrWrite off v _) <| .ite (dev _) <| .ite (dev _) <| .ite (dev _) <| .ite (dev _) (s.sameFront_dev _)

theorem State.sameFront_write32 (s : State) (req : Requester) (off v : Nat) : s.SameFront (s.write32 req off v) := by
  unfold State.write32
  split
  · exact s.sameFront_onDev _
  split
  · exact .refl s
  split
  · exact s.sameFront_regSet _ _ _ _
  split
  · exact (s.sameFront_setHeld _ _).trans (State.sameFront_regSet _ _ _ _ _)
  · exact s.sameFront_setHeld _ _

theorem State.sameFront_mmioWrite (s : State) (req : Requester) (off width v : Nat) : s.SameFront (s.mmioWrite req off width v) := by
  unfold State.mmioWrite
  split
  · exact s.sameFront_onDev _
  split
  · exact s.sameFront_onDev _
  split
  · exact .refl s
  split
  · exact s.sameFront_write32 _ _ _
  · unfold State.write64
    split
    · split
      · exact s.sameFront_onDev _
      · exact (s.sameFront_setHeld _ _).trans (State.sameFront_regSet _ _ _ _ _)
    · exact (s.sameFront_write32 _ _ _).trans (State.sameFront_write32 _ _ _ _)

/-- A register access in D3hot is answered; elsewhere it is what the command does. -/
theorem State.endsFront_access (s : State) (req : Requester) {f : State → State} (hf : s.SameFront (f s)) : s.EndsFront (s.access req f) := by
  refine State.EndsFront.inPeri (State.SameFront.ends ?_)
  unfold State.accessed
  split
  · exact s.sameFront_onDev _
  · exact hf

theorem State.sameFront_regEntries (s : State) (f : Nat → Bool) : s.SameFront (s.regEntries f) := by
  refine State.SameFront.foldl (fun s p => ?_) _ s
  unfold State.regEntry
  split
  · exact s.sameFront_onDev _
  · exact s.sameFront_mmioWrite _ _ _ _

theorem State.sameFront_handOver (s : State) : s.SameFront s.handOver := by
  unfold State.handOver
  split
  · exact .refl s
  split
  · exact s.sameFront_onAon _
  split
  · refine (s.sameFront_regEntries seqLktOff).trans ?_
    dsimp only
    split
    · split <;> exact ⟨rfl, rfl⟩
    · exact ⟨rfl, rfl⟩
  · exact .refl s

/-! ### Registers as a mover reaches them -/

theorem sameFront_regRead (req : Requester) (fuel : Nat) : ∀ (o n : Nat) (s : State), s.SameFront (regRead req o n fuel s).2 := by
  induction fuel with
  | zero => exact fun _ _ s => .refl s
  | succ fuel ih =>
    intro o n s
    unfold regRead
    split
    · exact .refl s
    · refine State.SameFront.trans ?_ (ih _ _ _)
      split
      · exact s.sameFront_onDev _
      · exact s.sameFront_mmioRead _ _ _

theorem State.sameFront_regPut (c fuel : Nat) : ∀ (o : Nat) (bs : List Byte) (s : State), s.SameFront (s.regPut c o fuel bs) := by
  induction fuel with
  | zero => exact fun _ _ s => .refl s
  | succ fuel ih =>
    intro o bs s
    unfold State.regPut
    split
    · exact .refl s
    · exact (s.sameFront_mmioWrite _ _ _ _).trans (ih _ _ _)

theorem State.sameFront_regsPut (s : State) (c : Nat) (l : List (Nat × List Byte)) : s.SameFront (s.regsPut c l) := by
  unfold State.regsPut
  exact State.SameFront.foldl (fun s p => State.sameFront_regPut c _ p.1 p.2 s) l s

theorem State.sameFront_dmaRead (s : State) (q : Nat) (i : Issued) : s.SameFront (s.dmaRead q i).s := by
  unfold State.dmaRead
  dsimp only
  split
  · exact ⟨rfl, rfl⟩
  · exact ((s.sameFront_dev _).trans (sameFront_regRead _ _ _ _ _)).trans (State.sameFront_onDev _ _)
  all_goals exact ⟨rfl, rfl⟩

theorem State.sameFront_dmaWrite (s : State) (q : Nat) (i : Issued) (es : List Nat) : s.SameFront (s.dmaWrite q i es).s := by
  unfold State.dmaWrite
  dsimp only
  split
  · exact (s.sameFront_dev _).trans (State.sameFront_regsPut _ _ _)
  split
  · exact s.sameFront_dev _
  · exact ((s.sameFront_dev _).trans (State.sameFront_onDev _ _)).trans (State.sameFront_regsPut _ _ _)

theorem State.sameFront_dmaStep (s : State) (q : Nat) (i : Issued) : s.SameFront (s.dmaStep q i).s := by
  unfold State.dmaStep
  dsimp only
  split
  · exact s.sameFront_dmaWrite q i _
  split
  · exact s.sameFront_dmaRead q i
  · exact .refl s

theorem State.sameFront_dmaGo (q n fuel : Nat) : ∀ s : State, s.SameFront (s.dmaGo q n fuel) := by
  induction fuel with
  | zero => exact .refl
  | succ fuel ih =>
    intro s
    unfold State.dmaGo
    split
    · exact .refl s
    · rename_i i _
      exact .ite (.refl s) <| .ite (s.sameFront_onDev _) <| (s.sameFront_dmaStep q i).trans <|
        .ite (State.sameFront_onDev _ _) <| .ite (ih _) (.refl _)

/-! ### Supervision and power -/

theorem State.sameFront_phasesLost (s : State) (ps : List Nat) (data : Nat) : s.SameFront (s.phasesLost ps data) :=
  (s.sameFront_onPeri _).trans (State.sameFront_onAon _ _)

theorem State.sameFront_adc (s : State) (i c : Nat) : s.SameFront (s.adc i c) := by
  have hcard (u : State) : u.SameFront (if i = 30 then u.onPeri fun d => (d.cardVcc c).kick else u) :=
    .ite (u.sameFront_onPeri _) (.refl u)
  have hconv (a : Aon) : s.SameFront { s with aon := a } := ⟨rfl, rfl⟩
  exact .ite (((hconv _).trans (hcard _)).trans (State.sameFront_phasesLost _ _ _)) ((hconv _).trans (hcard _))

theorem State.sameFront_kappaPoll (s : State) : s.SameFront s.kappaPoll := by
  unfold State.kappaPoll
  dsimp only
  split
  · exact .refl s
  · exact s.sameFront_dev _

theorem State.sameFront_pollDone (s : State) (ch status vout iout : Nat) (pages : List Nat) :
    s.SameFront (s.pollDone ch status vout iout pages) := by
  have hpages (u : State) (k : Nat) (lost : List Nat) (x : Nat) : u.SameFront (if k = 0 then u
      else (u.onPeri fun d => { d with pwr := { d.pwr with pageBad := lost } }).phasesLost lost x) :=
    .ite (.refl u) ((u.sameFront_onPeri _).trans (State.sameFront_phasesLost _ _ _))
  exact .ite (((s.sameFront_onAon _).trans (hpages _ _ _ _)).trans (State.sameFront_kappaPoll _)) ((s.sameFront_onAon _).trans (hpages _ _ _ _))

theorem State.sameFront_txnFail (s : State) (b : Nat) (t : PmbTxn) : s.SameFront (s.txnFail b t) := by
  unfold State.txnFail
  dsimp only
  split
  · exact ⟨rfl, rfl⟩
  · exact (s.sameFront_onAon _).trans (State.sameFront_onPeri _ _)
  · exact s.sameFront_onAon _

theorem State.sameFront_txnOk (s : State) (b : Nat) (t : PmbTxn) (data : List Nat) : s.SameFront (s.txnOk b t data) := by
  cases t with
  | coreVoltage c => exact State.SameFront.trans ⟨rfl, rfl⟩ (State.sameFront_onPeri _ _)
  | poll n st v i pages => exact (s.sameFront_onAon _).trans (State.sameFront_pollDone _ _ _ _ _ _)
  | alert | clearFaults | nominal | margin | restore => exact ⟨rfl, rfl⟩

theorem State.sameFront_degrade (s : State) (b : Nat) : s.SameFront (s.degrade b) := by
  unfold State.degrade
  dsimp only
  split
  · exact (s.sameFront_onAon _).trans (State.sameFront_onPeri _ _)
  · exact s.sameFront_onAon _

theorem State.sameFront_stepDrop (s : State) : s.SameFront s.stepDrop := by
  unfold State.stepDrop
  split <;> exact ⟨rfl, rfl⟩

theorem State.sameFront_steer (s : State) (k : Nat) : s.SameFront (s.steer k) := by
  unfold State.steer
  dsimp only
  split
  · exact .refl s
  refine s.sameFront_stepDrop.trans ?_
  split
  · exact ⟨rfl, rfl⟩
  split
  · split <;> exact ⟨rfl, rfl⟩
  · split <;> exact ⟨rfl, rfl⟩

/-! ### The commands that change both halves -/

theorem State.EndsFront.ite {c : Prop} [Decidable c] {s : State} {r r' : Res} (h : s.EndsFront r) (h' : s.EndsFront r') :
    s.EndsFront (if c then r else r') := by
  split
  · exact h
  · exact h'

theorem execSeqWaitExpire_endsFront (s : State) : s.EndsFront (execSeqWaitExpire s) :=
  .ite ((s.sameFront_onAon _).trans (State.sameFront_startBoot _ _)).ends (s.endsAon_next _).front

theorem execSysresetWaitExpire_endsFront (s : State) : s.EndsFront (execSysresetWaitExpire s) := by
  unfold execSysresetWaitExpire
  split
  · exact .ite ⟨_, rfl, rfl, rfl⟩ ⟨_, rfl, rfl, rfl⟩
  · exact s.endsFront_self

theorem execFaultnGuardExpire_endsFront (s : State) : s.EndsFront (execFaultnGuardExpire s) := by
  unfold execFaultnGuardExpire
  split
  · exact s.endsFront_self
  · dsimp only
    split <;> exact ⟨_, rfl, rfl, rfl⟩

theorem execLocketNorOpDone_endsFront (ok : Bool) (s : State) : s.EndsFront (execLocketNorOpDone ok s) :=
  ((State.SameFront.ite (s.sameFront_onPeri _) (.refl s)).trans (State.sameFront_onAon _ _)).ends

theorem execPowerInterval_endsFront (tags : List TagShare) (ctxs : List CtxShare) (rest : RestShare) (s : State) :
    s.EndsFront (execPowerInterval tags ctxs rest s) :=
  ((s.sameFront_onDev _).trans ((State.sameFront_steer _ _).trans (State.sameFront_onDev _ _))).ends.inPeri

theorem execSensorUpdate_endsFront (sensor temp : Nat) (fail : Bool) (s : State) : s.EndsFront (execSensorUpdate sensor temp fail s) :=
  .ite s.endsFront_self ⟨_, rfl, rfl, rfl⟩

theorem execDvfsVoltageDown_endsFront (s : State) : s.EndsFront (execDvfsVoltageDown s) := by
  refine State.EndsFront.inPeri ?_
  split
  · exact ⟨_, rfl, rfl, rfl⟩
  · exact s.endsFront_self

theorem execShutterWakeStart_endsFront (n : Nat) (s : State) : s.EndsFront (execShutterWakeStart n s) := by
  refine State.EndsFront.inCore (.ite s.endsFront_self (.ite ⟨_, rfl, rfl, rfl⟩ (.ite ⟨_, rfl, rfl, rfl⟩ ?_)))
  split
  · exact ⟨_, rfl, rfl, rfl⟩
  · exact s.endsFront_self

theorem execPmbTransactionDone_endsFront (bus : Nat) (r : PmbResult) (s : State) : s.EndsFront (execPmbTransactionDone bus r s) := by
  unfold execPmbTransactionDone
  dsimp only
  split
  · exact s.endsFront_self
  refine .ite s.endsFront_self (.ite s.endsFront_self (.ite (s.sameFront_txnFail _ _).ends ?_))
  cases r with
  | ok data => exact (s.sameFront_txnOk _ _ _).ends
  | pecMismatch => exact .ite ((s.sameFront_onAon _).trans (State.sameFront_txnFail _ _ _)).ends (s.endsAon_next _).front
  | failed => exact (s.sameFront_txnFail _ _).ends

theorem execPmbRecoveryTimer_endsFront (bus : Nat) (free : Bool) (s : State) : s.EndsFront (execPmbRecoveryTimer bus free s) := by
  have aon (f : Aon → Aon) : s.EndsFront (s.nextAon f) := (s.endsAon_next f).front
  refine State.EndsFront.ite s.endsFront_self ?_
  dsimp only
  split
  · exact .ite (aon _) (.ite (aon _) (.ite (aon _) (aon _)))
  · exact aon _
  · exact .ite (aon _) ((s.sameFront_onAon _).trans (State.sameFront_degrade _ _)).ends
  · exact s.endsFront_self

theorem execDmaComplete_endsFront (q idx : Nat) (s : State) : s.EndsFront (execDmaComplete q idx s) := by
  refine State.EndsFront.inCore ?_
  split
  · exact .ite (State.sameFront_dmaGo _ _ _ s).ends s.endsFront_self
  · exact s.endsFront_self

theorem execMediaPageReadDone_endsFront (raw : List Byte) (s : State) : s.EndsFront (execMediaPageReadDone raw s) :=
  State.EndsFront.inPeri (.ite ((s.sameFront_dev _).trans (State.sameFront_regsPut _ _ _)).ends
    (.ite (s.endsDev_next _).front s.endsFront_self))

theorem execSfdpDiscovery_endsFront (answer : Option Sfdp) (s : State) : s.EndsFront (execSfdpDiscovery answer s) := by
  refine State.EndsFront.ite s.endsFront_self ?_
  split <;> exact ⟨_, rfl, rfl, rfl⟩

theorem execNorReadTimeout_endsFront (s : State) (idx : Nat) : s.EndsFront (execNorReadTimeout s idx) :=
  .ite s.endsFront_self (.ite (s.endsDev_next _).front (s.sameFront_copyFail _).ends)

theorem execBootHeaderReadDone_endsFront (bytes : List Byte) (s : State) : s.EndsFront (execBootHeaderReadDone bytes s) :=
  .ite s.endsFront_self (.ite (s.endsDev_next _).front (s.sameFront_copyFail _).ends)

theorem execBootImageReadDone_endsFront (bytes : List Byte) (s : State) : s.EndsFront (execBootImageReadDone bytes s) :=
  .ite s.endsFront_self (.ite (s.endsDev_next _).front (s.sameFront_copyFail _).ends)

theorem execBootVerifyDone_endsFront (s : State) : s.EndsFront (execBootVerifyDone s) := by
  refine State.EndsFront.ite s.endsFront_self ?_
  dsimp only
  split
  · exact (s.sameFront_copyFail _).ends
  · exact ((s.sameFront_onDev _).trans (State.sameFront_handOver _)).ends

theorem execBootConfig_endsFront (s : State) : s.EndsFront (execBootConfig s) := by
  have hover : s.SameFront (if s.periRuns then s.handOver else s) := .ite s.sameFront_handOver (.refl s)
  exact .ite hover.ends
    (((hover.trans (State.sameFront_onDev _ _)).trans (State.sameFront_regEntries _ _)).trans (State.sameFront_onDev _ _)).ends

theorem execDramTrainingDone_endsFront (results : List (Nat × Nat × Bool)) (s : State) : s.EndsFront (execDramTrainingDone results s) := by
  unfold execDramTrainingDone
  split
  · exact s.endsFront_self
  · exact .ite s.endsFront_self (.ite ⟨_, rfl, rfl, rfl⟩ ⟨_, rfl, rfl, rfl⟩)

theorem execWatchdogExpire_endsFront (s : State) : s.EndsFront (execWatchdogExpire s) := by
  have hreset : s.SameFront ((s.bootError.onAon fun a => a.sat F.BOOT_CAUSE_WDT_COUNT).fullReset 3) := ⟨rfl, rfl⟩
  exact .ite s.endsFront_self (hreset.trans (State.sameFront_startBoot _ _)).ends

theorem execResetNRelease_endsFront (s : State) : s.EndsFront (execResetNRelease s) :=
  .ite s.endsFront_self (.ite ⟨_, rfl, rfl, rfl⟩
    (.ite ((s.sameFront_onAon _).trans (State.sameFront_startBoot _ _)).ends ⟨_, rfl, rfl, rfl⟩))

/-- A command of `touchesAon` that is none of `onlyAon` and samples no straps ends in a state that differs in the two halves at most. -/
theorem exec_endsFront_both (i : Instr) (s : State) (h : (touchesAon i && !onlyAon i && !samplesStraps i) = true) :
    s.EndsFront (exec i s) := by
  cases i
  case regWrite => exact s.endsFront_access _ (s.sameFront_mmioWrite _ _ _ _)
  case reg64LowRead => exact s.endsFront_access _ (.ite (s.sameFront_read32 _ _) (.refl s))
  case reg64LowWrite | reg64HighWrite => exact s.endsFront_access _ (.ite (s.sameFront_write32 _ _ _) (.refl s))
  case scrubRead =>
    exact ((State.SameFront.foldl State.sameFront_upset _ s).trans (State.sameFront_onDev _ _)).ends.inPeri
  case seqWaitExpire => exact execSeqWaitExpire_endsFront s
  case systemReset => exact s.sameFront_sysReset.ends
  case sysresetWaitExpire => exact execSysresetWaitExpire_endsFront s
  case swreset => exact s.sameFront_swreset.ends.atReg _ _
  case hostMargin | locketRead => exact (s.endsAon_next _).front.atReg _ _
  case faultnGuardExpire => exact execFaultnGuardExpire_endsFront s
  case locketNorOpDone ok => exact execLocketNorOpDone_endsFront ok s
  case gaugeTick => exact .ite s.endsFront_self ⟨_, rfl, rfl, rfl⟩
  case powerInterval tags ctxs rest => exact execPowerInterval_endsFront tags ctxs rest s
  case sensorUpdate n t f => exact execSensorUpdate_endsFront n t f s
  case dvfsVoltageDown => exact execDvfsVoltageDown_endsFront s
  case phaseRestore => exact s.sameFront_phaseRestore.ends.atReg _ _
  case shutterWakeStart n => exact execShutterWakeStart_endsFront n s
  case adcConversion => exact .ite (s.sameFront_adc _ _).ends s.endsFront_self
  case pmbTransactionDone b r => exact execPmbTransactionDone_endsFront b r s
  case pmbRecoveryTimer b f => exact execPmbRecoveryTimer_endsFront b f s
  case vinSenseTrip | thermalTrip =>
    exact .ite s.endsFront_self ((s.sameFront_onPeri _).trans (State.sameFront_onAon _ _)).ends
  case dmaComplete q idx => exact execDmaComplete_endsFront q idx s
  case mediaPageReadDone raw => exact execMediaPageReadDone_endsFront raw s
  case sfdpDiscovery x => exact execSfdpDiscovery_endsFront x s
  case norReadTimeout k => exact execNorReadTimeout_endsFront s k
  case bootHeaderReadDone bs => exact execBootHeaderReadDone_endsFront bs s
  case bootImageReadDone bs => exact execBootImageReadDone_endsFront bs s
  case bootVerifyDone => exact execBootVerifyDone_endsFront s
  case bootConfig => exact execBootConfig_endsFront s
  case dramTrainingDone rs => exact execDramTrainingDone_endsFront rs s
  case watchdogExpire => exact execWatchdogExpire_endsFront s
  case resetNAssert | perstAssert => exact .ite s.endsFront_self ⟨_, rfl, rfl, rfl⟩
  case resetNRelease => exact execResetNRelease_endsFront s
  case flr => exact State.EndsFront.inPeri ⟨_, rfl, rfl, rfl⟩
  case d3hotToD0 => exact State.EndsFront.inPeri (.ite ⟨_, rfl, rfl, rfl⟩ s.endsFront_self)
  all_goals exact Bool.noConfusion h

/-- Every command but the sampling and the power-on events ends in a next state with the same waiting commands and straps. -/
theorem exec_endsFront (i : Instr) (s : State) (hs : samplesStraps i = false) : s.EndsFront (exec i s) := by
  by_cases h : touchesAon i = true
  · by_cases h' : onlyAon i = true
    · exact (exec_endsAon i s h').front
    · exact exec_endsFront_both i s (by simp [h, h', hs])
  · exact (exec_endsDev i s (by simpa using h)).front

/-- Every command, the sampling and the power-on events among them, ends in a next state with the same waiting commands. -/
theorem exec_ends_pending (i : Instr) (s : State) : ∃ t, exec i s = .next t ∧ t.pending = s.pending := by
  by_cases hs : samplesStraps i = true
  · cases i
    case powerOnReset | aonSupplyDrop => exact ⟨_, rfl, rfl⟩
    case strapSample b =>
      have hexec : exec (.strapSample b) s = execStrapSample b s := rfl
      rw [hexec, execStrapSample]
      split <;> exact ⟨_, rfl, rfl⟩
    all_goals exact Bool.noConfusion hs
  · obtain ⟨t, ht, hp, -⟩ := exec_endsFront i s (by simpa using hs)
    exact ⟨t, ht, hp⟩

/-! ### O2, O3 and O4 -/

/-- Settles O2. -/
theorem execNeverStops : Obligations.ExecNeverStops := by
  unfold Obligations.ExecNeverStops
  intro i s
  obtain ⟨t, ht, -⟩ := exec_ends_pending i s
  exact ⟨t, ht⟩

/-- Settles O3: with no command waiting the two halves alone go on; a command runs on the queue's rest and leaves it. -/
theorem stepShortensQueueByOne : Obligations.StepShortensQueueByOne := by
  unfold Obligations.StepShortensQueueByOne
  intro s t hstep
  unfold step at hstep
  split at hstep
  case h_1 hnone =>
    obtain rfl := Host.Outcome.next.inj hstep
    rw [hnone]
    exact (s.sameFront_onPeri _).1.trans hnone
  case h_2 c cs hsome =>
    obtain ⟨u, hu, hp⟩ := exec_ends_pending c { s with pending := cs }
    obtain rfl := Host.Outcome.next.inj (hu.symm.trans hstep)
    rw [hp, hsome]
    rfl

/-- Settles O4: no step but that of a sampling or a power-on event writes the straps. -/
theorem strapsHoldUntilPowerOn : Obligations.StrapsHoldUntilPowerOn := by
  unfold Obligations.StrapsHoldUntilPowerOn
  intro b s t hb hfront hstep
  unfold step at hstep
  split at hstep
  case h_1 hnone =>
    obtain rfl := Host.Outcome.next.inj hstep
    exact (s.sameFront_onPeri _).2.trans hb
  case h_2 c cs hsome =>
    obtain ⟨u, hu, -, hstrap⟩ := exec_endsFront c { s with pending := cs } (hfront c (by rw [hsome]; rfl))
    obtain rfl := Host.Outcome.next.inj (hu.symm.trans hstep)
    exact hstrap.trans hb

/-! ### O6 and O7 -/

/-- Settles O6: a command outside the list ends in a state that differs outside the always-on domain at most. -/
theorem hostSideLeavesAlwaysOn : Obligations.HostSideLeavesAlwaysOn := by
  unfold Obligations.HostSideLeavesAlwaysOn
  intro i s t hi hexec
  obtain ⟨d, hd⟩ := exec_endsDev i s hi
  obtain rfl := Host.Outcome.next.inj (hd.symm.trans hexec)
  exact ⟨rfl, rfl⟩

/-- Settles O7: a command of the list ends in a state that differs in the always-on domain at most. -/
theorem sequencerLeavesHostSide : Obligations.SequencerLeavesHostSide := by
  unfold Obligations.SequencerLeavesHostSide
  intro i s t hi hexec
  obtain ⟨a, ha⟩ := exec_endsAon i s hi
  obtain rfl := Host.Outcome.next.inj (ha.symm.trans hexec)
  exact ⟨rfl, rfl⟩

end Sys2Proof.Machine
end

section
/-! PROOFS. How a command's outcome is read off its operation where its domain runs, the step, the state after reset, and byte memory:
O1, O5, O8, O9, O31. -/

namespace Sys2Proof.Machine

/-! ### Outcomes of a command in a domain that runs -/

/-- Where PERI runs, a command of it ends with what its operation makes of the part outside the always-on domain. -/
theorem State.nextPeri_dev {s : State} {f : Dev → Dev} {d : Dev} (hr : s.periRuns = true) (h : f s.dev = d) :
    s.nextPeri f = .next { s with dev := d } := by
  rw [State.nextPeri_of_runs hr, ← h]
  rfl

/-- The same where CORE runs. -/
theorem State.nextCore_dev {s : State} {f : Dev → Dev} {d : Dev} (hr : s.coreRuns = true) (h : f s.dev = d) :
    s.nextCore f = .next { s with dev := d } := by
  rw [State.nextCore_of_runs hr, ← h]
  rfl

/-- The same for a command that is a register write, where its access reaches the register. -/
theorem State.devReg_dev {s : State} {req : Requester} {off : Nat} {f : Dev → Dev} {d : Dev} (hr : s.reaches req off = true)
    (h : f s.dev = d) : s.devReg req off f = .next { s with dev := d } := by
  rw [State.devReg_of_reaches hr, ← h]
  rfl

/-- A command of the always-on domain ends with what its operation makes of that domain. -/
theorem State.nextAon_aon {s : State} {f : Aon → Aon} {a : Aon} (h : f s.aon = a) : s.nextAon f = .next { s with aon := a } := by
  rw [← h]
  rfl

/-- A command of PERI changes nothing, or what its operation changes. -/
theorem State.dev_of_nextPeri {s t : State} {f : Dev → Dev} (h : s.nextPeri f = .next t) : t.dev = s.dev ∨ t.dev = f s.dev := by
  unfold State.nextPeri State.inPeri at h
  split at h <;> obtain rfl := Host.Outcome.next.inj h
  · exact .inr rfl
  · exact .inl rfl

/-- The same for a command of CORE. -/
theorem State.dev_of_nextCore {s t : State} {f : Dev → Dev} (h : s.nextCore f = .next t) : t.dev = s.dev ∨ t.dev = f s.dev := by
  unfold State.nextCore State.inCore at h
  split at h <;> obtain rfl := Host.Outcome.next.inj h
  · exact .inr rfl
  · exact .inl rfl

/-! ### O1 and O5 -/

/-- Settles O1, by the two shapes of the queue. -/
theorem stepRunsFrontCommand : Obligations.StepRunsFrontCommand := by
  unfold Obligations.StepRunsFrontCommand
  intro c cs s
  have hidle (h : s.pending = []) : step s = .next s.idle := by simp [step, h]
  refine ⟨fun h => by simp [step, h], fun h hr => ?_, fun h hr => ?_⟩
  · rw [hidle h, State.idle, State.onPeri_of_runs hr]
    rfl
  · simp [hidle h, State.idle, State.onPeri, hr]

/-- Settles O5: no field is listed after reset, so each reads as its table says. -/
theorem resetLeaves : Obligations.ResetLeaves := by
  unfold Obligations.ResetLeaves
  exact ⟨rfl, rfl, rfl, rfl, rfl, rfl, rfl, rfl, rfl, Memory.wf_empty, rfl⟩

/-! ### Reading back what was written (R5) -/

/-- A write leaves the bytes above it alone. -/
theorem Memory.get_write_above (m : Memory) (a : Nat) (bs : List Byte) (b : Nat) (h : a + bs.length ≤ b) :
    (m.write a bs).get b = m.get b := by
  induction bs generalizing m a with
  | nil => rfl
  | cons x bs ih =>
    rw [List.length_cons] at h
    exact (ih (m.set a x) (a + 1) (by omega)).trans (Memory.get_set_ne m x (by omega))

/-- What was written reads back. -/
theorem Memory.read_write (m : Memory) (a : Nat) (bs : List Byte) : (m.write a bs).read a bs.length = bs := by
  induction bs generalizing m a with
  | nil => rfl
  | cons x bs ih =>
    have hhead : ((m.set a x).write (a + 1) bs).get a = x := by
      rw [Memory.get_write_below _ _ _ _ (by omega), Memory.get_set_same]
    exact congrArg₂ List.cons hhead (ih _ _)

theorem length_toBytes (n v : Nat) : (toBytes n v).length = n := by
  induction n generalizing v with
  | zero => rfl
  | succ n ih => simp [toBytes, ih]

/-- The little-endian bytes of a number are the number, up to what they hold. -/
theorem ofBytes_toBytes (n v : Nat) : ofBytes (toBytes n v) = v % 256 ^ n := by
  induction n generalizing v with
  | zero => simp [toBytes, ofBytes, Nat.mod_one]
  | succ n ih =>
    rw [toBytes, ofBytes, ih, Nat.pow_succ', Nat.mod_mul, BitVec.toNat_ofNat]

/-- Settles O8. -/
theorem memoryReadsBack : Obligations.MemoryReadsBack := by
  unfold Obligations.MemoryReadsBack
  refine fun m a bs => ⟨m.read_write a bs, fun b hb => ?_, fun n v => ⟨length_toBytes n v, ofBytes_toBytes n v⟩⟩
  rcases hb with hb | hb
  · exact m.get_write_below a bs b hb
  · exact m.get_write_above a bs b hb

/-! ### The canonical form -/

theorem Dev.tileReset_mem (d : Dev) (n : Nat) (sh : Shutter) :
    (d.tileReset n sh).mem = d.mem.clear (tileBase n) (tileBase n + tileSize) := rfl

theorem Dev.tileReset_wf {d : Dev} (h : d.mem.wf = true) (n : Nat) (sh : Shutter) : (d.tileReset n sh).mem.wf = true :=
  Memory.wf_clear _ _ _ h

/-- The link's error message changes no byte. -/
@[simp] theorem Dev.aerInternal_mem (d : Dev) : d.aerInternal.mem = d.mem := by
  unfold Dev.aerInternal
  split
  · dsimp only
    split <;> rfl
  · rfl

/-- SYSTEM_RESET starts in the always-on domain, and outside it only the link's error message follows. -/
theorem State.sysReset_mem (s : State) : s.sysReset.dev.mem = s.dev.mem := by
  unfold State.sysReset State.onPeri
  split
  · split
    · split
      · exact s.dev.aerInternal_mem
      · rfl
    · rfl
  · rfl

/-- An operation that keeps the canonical form gives a command of PERI that keeps it. -/
theorem memForm_of_nextPeri {s t : State} {f : Dev → Dev} (hs : s.memForm) (hf : (f s.dev).mem.wf = true) (h : s.nextPeri f = .next t) :
    t.memForm := by
  unfold State.memForm
  rcases State.dev_of_nextPeri h with hd | hd <;> rw [hd]
  · exact hs
  · exact hf

/-- The same for a command of CORE. -/
theorem memForm_of_nextCore {s t : State} {f : Dev → Dev} (hs : s.memForm) (hf : (f s.dev).mem.wf = true) (h : s.nextCore f = .next t) :
    t.memForm := by
  unfold State.memForm
  rcases State.dev_of_nextCore h with hd | hd <;> rw [hd]
  · exact hs
  · exact hf

/-- A store of a tile is one write of a device. -/
theorem execStoreComplete_memForm {s t : State} {n : Nat} (hs : s.memForm) (h : execStoreComplete n s = .next t) : t.memForm := by
  refine memForm_of_nextCore hs ?_ h
  dsimp only
  split
  · exact hs
  · split
    · exact hs
    · exact Dev.writeMem_wf _ _ _ _ _ _ hs

/-- Settles O9: each of the commands writes memory by a device write, a clear or a reset, or not at all. -/
theorem memoryFormKept : Obligations.MemoryFormKept := by
  unfold Obligations.MemoryFormKept
  refine fun s t n hs => ⟨fun h => ?_, execStoreComplete_memForm hs, fun h => ?_, fun h => ?_, fun h => ?_, fun h => ?_⟩
  case refine_1 =>
    refine memForm_of_nextPeri hs ?_ h
    split
    · exact Memory.wf_clear _ _ _ hs
    · exact hs
  case refine_2 =>
    refine memForm_of_nextCore hs ?_ h
    split
    · exact Dev.tileReset_wf hs n _
    · exact hs
  case refine_3 =>
    refine memForm_of_nextCore hs ?_ h
    split
    · rw [Dev.wrs_mem]
      exact Dev.tileReset_wf hs n _
    · exact hs
  case refine_4 =>
    obtain rfl := Host.Outcome.next.inj h
    exact Memory.wf_empty
  case refine_5 =>
    obtain rfl := Host.Outcome.next.inj h
    exact (congrArg Memory.wf s.sysReset_mem).trans hs

/-! ### O31 -/

/-- Settles O31: R170's 31 parts of 32 of whole channels come out even. -/
theorem visibleDramSize : Obligations.VisibleDramSize := by
  unfold Obligations.VisibleDramSize
  intro x
  have hchan : 2 ^ (29 + x.density) = 512 * 2 ^ 20 * 2 ^ x.density := by
    rw [Nat.pow_add]
    norm_num
  refine ⟨fun h => by simp [DramSec.size, h, hchan], fun h => ?_⟩
  have heven : (maskList 32 x.channels).length * (512 * 2 ^ 20 * 2 ^ x.density) =
      32 * ((maskList 32 x.channels).length * (2 ^ 24 * 2 ^ x.density)) := by ring
  simp only [DramSec.size, h, if_true, hchan, heven]
  omega

end Sys2Proof.Machine
end

section
/-! PROOFS. Tile instructions (chapter 14): what issuing one gives, what a scalar instruction leaves, loads and stores: O50, O51, O52. -/

namespace Sys2Proof.Machine

/-! ### Issuing an instruction -/

/-- A tile stands at an instruction where CORE runs. -/
theorem State.coreRuns_of_tileAt {s : State} {n op w : Nat} (h : s.tileAt n op w = true) : s.coreRuns = true := by
  simp only [State.tileAt, Bool.and_eq_true] at h
  obtain ⟨⟨⟨⟨⟨⟨⟨⟨hcore, -⟩, -⟩, -⟩, -⟩, -⟩, -⟩, -⟩, -⟩ := h
  exact hcore

/-- A command for the instruction that a tile stands at ends with what the operation makes of the fetched state. -/
theorem State.nextCore_issue {s : State} {n op w : Nat} {f : Dev → Tile → Nat → Dev} {d : Dev} (h : s.tileAt n op w = true)
    (hd : f (s.fetched n) (s.dev.tile n) w = d) : (s.nextCore fun d => d.issue n op f) = .next { s with dev := d } :=
  State.nextCore_dev (State.coreRuns_of_tileAt h) ((Dev.issue_of_tileAt h f).trans hd)

/-- Settles O50: each instruction is issued and retires with its result. -/
theorem scalarInstructions : Obligations.ScalarInstructions := by
  unfold Obligations.ScalarInstructions
  intro s n w
  dsimp only
  refine ⟨?_, ?_, ?_, ?_, ?_, ?_, ?_, ?_, ?_, ?_, ?_, ?_, ?_, ?_, ?_, ?_, ?_, ?_, ?_, ?_⟩
  all_goals exact fun h => State.nextCore_issue h rfl

/-! ### What the fetch of a word leaves (R179) -/

/-- A read that meets single wrong bits changes the check words and the two counters of corrected errors. -/
theorem Dev.correct_cases (d : Dev) (p n : Nat) : d.correct p n = d ∨ ∃ e x y, d.correct p n =
    (({ d with ecc := e }).sat F.MEM_ECC_STAT_DRAM_CE x).sat F.MEM_ECC_STAT_SRAM_CE y := by
  unfold Dev.correct
  dsimp only
  split
  · exact .inl rfl
  · exact .inr ⟨_, _, _, rfl⟩

@[simp] theorem Dev.correct_out (d : Dev) (p n : Nat) : (d.correct p n).out = d.out := by
  rcases d.correct_cases p n with h | ⟨e, x, y, h⟩ <;> exact (congrArg Dev.out h).trans rfl
@[simp] theorem Dev.correct_ctxs (d : Dev) (p n : Nat) : (d.correct p n).ctxs = d.ctxs := by
  rcases d.correct_cases p n with h | ⟨e, x, y, h⟩ <;> exact (congrArg Dev.ctxs h).trans rfl
@[simp] theorem Dev.correct_queues (d : Dev) (p n : Nat) : (d.correct p n).queues = d.queues := by
  rcases d.correct_cases p n with h | ⟨e, x, y, h⟩ <;> exact (congrArg Dev.queues h).trans rfl
@[simp] theorem Dev.correct_tile (d : Dev) (p n k : Nat) : (d.correct p n).tile k = d.tile k := by
  rcases d.correct_cases p n with h | ⟨e, x, y, h⟩ <;> exact (congrArg (·.tile k) h).trans rfl

theorem Dev.rd_sat_ne (d : Dev) {f g : Fld} (n : Nat) (h : g.key ≠ f.key) : (d.sat f n).rd g = d.rd g := Dev.rd_wr_ne _ _ h

theorem Dev.correct_rd_ne (d : Dev) (p n : Nat) {f : Fld} (hs : f.key ≠ F.MEM_ECC_STAT_SRAM_CE.key)
    (hd : f.key ≠ F.MEM_ECC_STAT_DRAM_CE.key) : (d.correct p n).rd f = d.rd f := by
  rcases d.correct_cases p n with h | ⟨e, x, y, h⟩ <;> rw [h]
  rw [Dev.rd_sat_ne _ _ hs, Dev.rd_sat_ne _ _ hd]
  rfl

/-! ### Tile registers -/

@[simp] theorem Tile.reg_zero (t : Tile) : t.reg 0 = 0 := rfl

theorem Tile.reg_setReg_ne (t : Tile) {r k : Nat} (v : Word64) (h : k ≠ r) : (t.setReg r v).reg k = t.reg k := by
  unfold Tile.setReg Tile.reg
  split
  · rfl
  · split
    · rfl
    · dsimp only
      split
      · rw [fget_fdel_ne _ h]
      · rw [fget_fset_ne _ _ h]

/-- `t'` is `t` after an instruction whose one result is register `rd`: what the units hold stays. -/
structure Tile.SameBut (rd : Nat) (t t' : Tile) : Prop where
  reg : ∀ r, r ≠ rd → t'.reg r = t.reg r
  vq : t'.vq = t.vq
  passes : t'.passes = t.passes
  stores : t'.stores = t.stores
  live : t'.live = t.live

theorem Tile.SameBut.refl (rd : Nat) (t : Tile) : t.SameBut rd t := ⟨fun _ _ => rfl, rfl, rfl, rfl, rfl⟩
theorem Tile.sameBut_step (rd : Nat) (t : Tile) : t.SameBut rd t.step := ⟨fun _ _ => rfl, rfl, rfl, rfl, rfl⟩
theorem Tile.sameBut_branch (rd : Nat) (t : Tile) (pc : Nat) : t.SameBut rd (t.branch pc) := ⟨fun _ _ => rfl, rfl, rfl, rfl, rfl⟩
theorem Tile.sameBut_setReg (rd : Nat) (t : Tile) (v : Word64) : t.SameBut rd (t.setReg rd v).step := by
  refine ⟨fun r hr => t.reg_setReg_ne v hr, ?_, ?_, ?_, ?_⟩ <;> unfold Tile.setReg <;> split <;> rfl

/-! ### The frame of a scalar instruction -/

/-- `d` is the part outside the always-on domain after a scalar instruction of tile `n` with result register `rd`. -/
structure State.ScalarLeft (s : State) (n rd : Nat) (d : Dev) : Prop where
  mem : d.mem = s.dev.mem
  out : d.out = s.dev.out
  ctxs : d.ctxs = s.dev.ctxs
  queues : d.queues = s.dev.queues
  rds : ∀ f : Fld, f.key ≠ (F.MT_SEQ_RETIRED_COUNT n).key → f.key ≠ F.MEM_ECC_STAT_SRAM_CE.key → f.key ≠ F.MEM_ECC_STAT_DRAM_CE.key →
    d.rd f = s.dev.rd f
  tiles : ∀ k, k ≠ n → d.tile k = s.dev.tile k
  tile : (s.dev.tile n).SameBut rd (d.tile n)

theorem State.scalarLeft_fetched (s : State) (n rd : Nat) : s.ScalarLeft n rd (s.fetched n) where
  mem := Dev.correct_mem _ _ _
  out := Dev.correct_out _ _ _
  ctxs := Dev.correct_ctxs _ _ _
  queues := Dev.correct_queues _ _ _
  rds := fun _ _ hs hd => Dev.correct_rd_ne _ _ _ hs hd
  tiles := fun k _ => Dev.correct_tile _ _ _ k
  tile := by
    rw [show (s.fetched n).tile n = s.dev.tile n from Dev.correct_tile _ _ _ n]
    exact .refl _ _

@[simp] theorem Dev.retire_tile_same (d : Dev) (n : Nat) (t : Tile) : (d.retire n t).tile n = t := Dev.tile_setTile_same d n t
theorem Dev.retire_tile_ne (d : Dev) {n k : Nat} (t : Tile) (h : k ≠ n) : (d.retire n t).tile k = d.tile k := Dev.tile_setTile_ne d t h

theorem State.scalarLeft_retire (s : State) {n rd : Nat} {t : Tile} (h : (s.dev.tile n).SameBut rd t) :
    s.ScalarLeft n rd ((s.fetched n).retire n t) :=
  have hf := s.scalarLeft_fetched n rd
  { mem := hf.mem, out := hf.out, ctxs := hf.ctxs, queues := hf.queues
    rds := fun f hn hs hd => (Dev.rd_wr_ne _ _ hn).trans (hf.rds f hn hs hd)
    tiles := fun k hk => (Dev.retire_tile_ne _ t hk).trans (hf.tiles k hk)
    tile := by rwa [Dev.retire_tile_same] }

/-- Command `i` issues an instruction of tile `n` that retires with one register changed at most. -/
def Instr.ScalarOf (n : Nat) (i : Instr) : Prop := ∃ (op : Nat) (g : Tile → Nat → Tile), (∀ s, exec i s = s.nextCore fun d =>
  d.issue n op fun d t w => d.retire n (g t w)) ∧ ∀ (t : Tile) w, t.SameBut (tiRd w) (g t w)

theorem Instr.scalarOf_setRd {n op : Nat} {i : Instr} {v : Tile → Nat → Word64}
    (h : ∀ s, exec i s = s.nextCore fun d => d.issue n op fun d t w => d.setRd n t w (v t w)) : Instr.ScalarOf n i :=
  ⟨op, fun t w => (t.setReg (tiRd w) (v t w)).step, h, fun t _ => t.sameBut_setReg _ _⟩

/-- The listed commands issue scalar instructions. -/
theorem Instr.scalarOf_mem {n : Nat} {i : Instr} (h : i ∈ [.add n, .sub n, .and n, .or n, .xor n, .shl n, .shr n, .sra n, .mul n, .min n,
    .max n, .addi n, .li n, .lih n, .tileNop n, .br n, .bcc n, .jr n]) : Instr.ScalarOf n i := by
  revert i
  simp only [List.forall_mem_cons, List.not_mem_nil, false_imp_iff, implies_true, and_true]
  refine ⟨?_, ?_, ?_, ?_, ?_, ?_, ?_, ?_, ?_, ?_, ?_, ?_, ?_, ?_, ?nop, ?br, ?bcc, ?jr⟩
  case nop => exact ⟨_, fun t _ => t.step, fun _ => rfl, fun t w => t.sameBut_step _⟩
  case br => exact ⟨_, fun t w => t.branch (t.target w), fun _ => rfl, fun t w => t.sameBut_branch _ _⟩
  case bcc =>
    refine ⟨_, fun t w => if condOk (tiX w) (t.reg (tiRa w)) (t.reg (tiRb w)) then t.branch (t.target w) else t.step, fun _ => rfl,
      fun t w => ?_⟩
    dsimp only
    split
    · exact t.sameBut_branch _ _
    · exact t.sameBut_step _
  case jr => exact ⟨_, fun t w => t.branch (t.reg (tiRa w)).toNat, fun _ => rfl, fun t w => t.sameBut_branch _ _⟩
  all_goals exact Instr.scalarOf_setRd fun _ => rfl

/-- A scalar command at any instruction leaves what the frame says: for another opcode than the tile's it changes what the fetch
corrects alone. -/
theorem State.scalarLeft_issue {s : State} {n op w : Nat} (h : s.tileAt n op w = true) (op' : Nat) {g : Tile → Nat → Tile}
    (hg : ∀ (t : Tile) w, t.SameBut (tiRd w) (g t w)) : s.ScalarLeft n (tiRd w) (s.dev.issue n op' fun d t w => d.retire n (g t w)) := by
  by_cases hop : op' = op
  · rw [hop, Dev.issue_of_tileAt h]
    exact s.scalarLeft_retire (hg _ _)
  · rw [Dev.issue_of_tileAt_ne h hop]
    exact s.scalarLeft_fetched n _

/-- Settles O51. -/
theorem scalarFrame : Obligations.ScalarFrame := by
  unfold Obligations.ScalarFrame
  intro s t n op w i h hi hexec
  obtain ⟨op', g, heq, hg⟩ := Instr.scalarOf_mem hi
  have hcore := State.coreRuns_of_tileAt h
  obtain rfl := Host.Outcome.next.inj (((heq s).trans (State.nextCore_of_runs hcore _)).symm.trans hexec)
  have hl := State.scalarLeft_issue h op' hg
  exact ⟨rfl, hl.mem, hl.out, hl.ctxs, hl.queues, hl.rds, hl.tiles, hl.tile.reg, rfl, hl.tile.vq, hl.tile.passes, hl.tile.stores,
    hl.tile.live⟩

end Sys2Proof.Machine
end

section
/-! PROOFS. Loads, stores, loops and special registers of a tile (chapter 14): O52. -/

namespace Sys2Proof.Machine

/-! ### What a device write stores -/

/-- Correcting what a read-modify-write reads changes the check words and the counters alone. -/
theorem Dev.foldl_eccCount (l : List (Nat × Ecc)) (d : Dev) : ∃ m, l.foldl (fun (d : Dev) e =>
    if e.1 < 2 ^ 36 then d.sat F.MEM_ECC_STAT_DRAM_CE else d.sat F.MEM_ECC_STAT_SRAM_CE) d = { d with regs := m } := by
  induction l generalizing d with
  | nil => exact ⟨d.regs, rfl⟩
  | cons e l ih =>
    rw [List.foldl_cons]
    split
    · obtain ⟨m, hm⟩ := ih (d.sat F.MEM_ECC_STAT_DRAM_CE)
      exact ⟨m, hm⟩
    · obtain ⟨m, hm⟩ := ih (d.sat F.MEM_ECC_STAT_SRAM_CE)
      exact ⟨m, hm⟩

theorem Dev.correctPart_eq (d : Dev) (p n : Nat) : ∃ m e, d.correctPart p n = { d with regs := m, ecc := e } := by
  obtain ⟨m, hm⟩ := Dev.foldl_eccCount (d.ecc.filter fun e => !e.2.bad && touches p n e.1 && !covers p n e.1) d
  exact ⟨m, _, (congrArg (fun d' : Dev => { d' with ecc := d'.ecc.filter fun e => e.2.bad || !touches p n e.1 }) hm).trans rfl⟩

/-- The bytes that a device write leaves, out of the bytes and the keys before it (R175). -/
def storedBytes (d : Dev) (k p : Nat) (bs : List Byte) : Memory :=
  if k = 0 || 2 ^ 36 ≤ p then d.mem.write p bs
  else
    encBlocks (xtsKeys (d.key k).key) d.mem (p / 16) ((p + bs.length + 15) / 16 - p / 16)
      ((d.decBlocks (xtsKeys (d.key k).key) (p / 16) ((p + bs.length + 15) / 16 - p / 16)).take (p % 16) ++ bs ++
        (d.decBlocks (xtsKeys (d.key k).key) (p / 16) ((p + bs.length + 15) / 16 - p / 16)).drop (p % 16 + bs.length))

/-- Decryption rests on the stored bytes alone. -/
theorem Dev.decBlocks_congr {d d' : Dev} (h : d.mem = d'.mem) (k : List (List Byte) × List (List Byte)) (n b : Nat) :
    d.decBlocks k b n = d'.decBlocks k b n := by
  induction n generalizing b with
  | zero => rfl
  | succ n ih => simp [Dev.decBlocks, h, ih]

theorem storedBytes_congr {d d' : Dev} (hm : d.mem = d'.mem) (hk : d.keys = d'.keys) (k p : Nat) (bs : List Byte) :
    storedBytes d k p bs = storedBytes d' k p bs := by
  simp [storedBytes, hm, Dev.key, hk, Dev.decBlocks_congr hm]

/-- The state in which a device write stores its bytes: an uncorrectable granule written in part is logged, single wrong bits are corrected,
and a write to DRAM has passed through its queue (R30, R168, R171). -/
def Dev.beforeWrite (d : Dev) (p n source ctx : Nat) : Dev :=
  let d := match d.ecc.find? fun e => e.2.bad && touches p n e.1 && !covers p n e.1 with
    | some g => d.logUe g.1 source ctx
    | none => d
  let d := d.correctPart p n
  if p < 2 ^ 36 then d.queueWrite p else d

theorem Dev.writeMem_eq (d : Dev) (k p : Nat) (bs : List Byte) (source ctx : Nat) : d.writeMem k p bs source ctx =
    { d.beforeWrite p bs.length source ctx with
      mem := storedBytes (d.beforeWrite p bs.length source ctx) k p bs
      ecc := ((d.beforeWrite p bs.length source ctx).ecc.filter fun e => !covers p bs.length e.1).map fun e =>
        if touches p bs.length e.1 then (e.1, .poison) else e } := rfl

/-- `d'` has the bytes, the keys and the tiles of `d`. -/
structure Dev.SameBytes (d d' : Dev) : Prop where
  mem : d'.mem = d.mem
  keys : d'.keys = d.keys
  tile : ∀ n, d'.tile n = d.tile n

theorem Dev.SameBytes.trans {d d' d'' : Dev} (h : d.SameBytes d') (h' : d'.SameBytes d'') : d.SameBytes d'' :=
  ⟨h'.mem.trans h.mem, h'.keys.trans h.keys, fun n => (h'.tile n).trans (h.tile n)⟩

theorem Dev.sameBytes_logUe (d : Dev) (addr source ctx : Nat) : d.SameBytes (d.logUe addr source ctx) := by
  unfold Dev.logUe
  split <;> exact ⟨rfl, rfl, fun _ => rfl⟩

theorem Dev.sameBytes_correctPart (d : Dev) (p n : Nat) : d.SameBytes (d.correctPart p n) := by
  obtain ⟨m, e, h⟩ := d.correctPart_eq p n
  rw [h]
  exact ⟨rfl, rfl, fun _ => rfl⟩

/-- Up to the storing the bytes, the keys and the tiles stay. -/
theorem Dev.sameBytes_beforeWrite (d : Dev) (p n source ctx : Nat) : d.SameBytes (d.beforeWrite p n source ctx) := by
  have hqueue {d' : Dev} (h : d.SameBytes d') : d.SameBytes (if p < 2 ^ 36 then d'.queueWrite p else d') := by
    split
    · exact h.trans ⟨rfl, rfl, fun _ => rfl⟩
    · exact h
  refine hqueue (Dev.SameBytes.trans ?_ (Dev.sameBytes_correctPart _ p n))
  split
  · exact d.sameBytes_logUe _ _ _
  · exact ⟨rfl, rfl, fun _ => rfl⟩

@[simp] theorem Dev.writeMem_tile (d : Dev) (k p : Nat) (bs : List Byte) (source ctx n : Nat) :
    (d.writeMem k p bs source ctx).tile n = d.tile n := by
  rw [Dev.writeMem_eq]
  exact (d.sameBytes_beforeWrite p bs.length source ctx).tile n

theorem Dev.writeMem_mem (d : Dev) (k p : Nat) (bs : List Byte) (source ctx : Nat) :
    (d.writeMem k p bs source ctx).mem = storedBytes d k p bs := by
  have h := d.sameBytes_beforeWrite p bs.length source ctx
  rw [Dev.writeMem_eq]
  exact storedBytes_congr h.mem h.keys k p bs

/-- A write under key slot 0 leaves the bytes outside it alone. -/
theorem Dev.writeMem_get_outside (d : Dev) (p : Nat) (bs : List Byte) (source ctx a : Nat) (h : a < p ∨ p + bs.length ≤ a) :
    (d.writeMem 0 p bs source ctx).mem.get a = d.mem.get a := by
  rw [Dev.writeMem_mem]
  rcases h with h | h
  · exact Memory.get_write_below _ _ _ _ h
  · exact Memory.get_write_above _ _ _ _ h

/-! ### STORE_COMPLETE and RSV_GRANT -/

/-- Tile `t` once its oldest store `x` is taken from its buffer; the passes that read its bytes have been fed (R323). -/
def Tile.takeStore (t : Tile) (n : Nat) (x : PStore) (xs : List PStore) : Tile :=
  { t with stores := xs, passes := t.passes.map fun p => p.feed n x.pa x.size }

/-- The oldest buffered store of a tile is written and leaves the buffer (R323). -/
theorem execStoreComplete_front {s : State} {n : Nat} {x : PStore} {xs : List PStore} (hc : s.coreRuns = true)
    (hst : (s.dev.tile n).stores = x :: xs) (hu : s.dev.unitsRun n = true) : execStoreComplete n s = .next (s.onDev fun d =>
      (d.setTile n ((d.tile n).takeStore n x xs)).writeMem x.key x.pa (toBytes x.size x.val) 2 (d.tctx n)) := by
  refine State.nextCore_dev hc ?_
  simp [hst, hu, Tile.takeStore]

/-- Whether CORE runs rests on the always-on domain and on the clear of shared SRAM. -/
theorem State.coreRuns_onDev (s : State) {f : Dev → Dev} (h : (f s.dev).sramReady = s.dev.sramReady) :
    (s.onDev f).coreRuns = s.coreRuns := by
  simp [State.coreRuns, State.periRuns, h]

/-- The state in which the wait of tile `n` has ended. -/
def State.woken (s : State) (n : Nat) : State := s.onDev fun d => d.waits n .none

theorem State.woken_coreRuns (s : State) (n : Nat) : (s.woken n).coreRuns = s.coreRuns := s.coreRuns_onDev (Dev.setTile_sramReady _ _ _)
theorem State.woken_tile (s : State) (n : Nat) : (s.woken n).dev.tile n = { s.dev.tile n with wait := .none } := Dev.tile_setTile_same _ _ _

/-- A wait that ends issues its instruction anew, where the tile runs. -/
theorem State.reissue_dev {s : State} {n op w : Nat} {x : TWait} {f : Dev → Tile → Nat → Dev} {d : Dev} (hw : (s.dev.tile n).wait = x)
    (hrun : s.dev.tileRuns n = true) (h : (s.woken n).tileAt n op w = true)
    (hd : f ((s.woken n).fetched n) { s.dev.tile n with wait := .none } w = d) : s.dev.reissue n op x f = d := by
  rw [Dev.reissue, if_pos (by simp [hw, hrun]), ← hd, ← s.woken_tile n]
  exact Dev.issue_of_tileAt h f

/-- A tile without a reservation and without a final CONVERT in progress takes one (R327). -/
theorem Dev.reserve_of_free {d : Dev} {n w : Nat} {t : Tile} (hr : t.resv = none) (hf : t.convFinal = false) :
    d.reserve n t w = d.retire n { t with resv := some (outBits (tiX w)) }.step := by
  simp [Dev.reserve, hr, hf]

/-! ### O52 -/

/-- The count of a LOOP of tile `t` (R320). -/
def Tile.loopCount (t : Tile) (w : Nat) : Nat := if tiRa w = 0 then tiImm w % 65536 else (t.reg (tiRa w)).toNat % 2 ^ 32

/-- A LOOP whose range lies in the innermost loop in progress passes the check of nesting, and starts or is skipped (R320). -/
theorem execLoop_of_nested {s : State} {n w : Nat} (h : s.tileAt n 0x05 w = true)
    (hnest : ∀ l, (s.dev.tile n).loops.getLast? = some l → l.start ≤ (s.dev.tile n).pc + 8 ∧
      (s.dev.tile n).pc + 8 + 8 * (tiImm w / 65536) ≤ l.stop) :
    let t := s.dev.tile n
    let stop := t.pc + 8 + 8 * (tiImm w / 65536)
    (t.loopCount w = 0 → execLoop n s = .next { s with dev := (s.fetched n).retire n (t.goStraight stop) }) ∧
    (t.loopCount w ≠ 0 → t.loops.length ≠ 4 → execLoop n s = .next (s.onDev fun _ => (s.fetched n).retire n
      { t with loops := t.loops ++ [{ start := t.pc + 8, stop := stop, count := t.loopCount w }], pc := t.pc + 8, wait := .none })) := by
  dsimp only
  refine ⟨fun h0 => State.nextCore_issue h ?_, fun h0 hlen => State.nextCore_issue h ?_⟩ <;> dsimp only <;>
    rw [show (if tiRa w = 0 then tiImm w % 65536 else ((s.dev.tile n).reg (tiRa w)).toNat % 2 ^ 32) = (s.dev.tile n).loopCount w from rfl]
  all_goals
    cases hl : (s.dev.tile n).loops.getLast? with
    | none => simp [*]
    | some l =>
      obtain ⟨hstart, hstop⟩ := hnest l hl
      simp [*]

/-- Settles O52. -/
theorem tileMemoryAndLoops : Obligations.TileMemoryAndLoops := by
  unfold Obligations.TileMemoryAndLoops
  intro s n w key x xs
  dsimp only
  refine ⟨fun h hnest => ⟨fun h0 => ?loopSkip, fun h0 hlen => ?loopStart⟩, fun h hbad hst hv hk hg => ?ld, fun h hbad hk => ?st,
    fun hc hst hu => ?storeComplete, fun h => State.nextCore_issue h rfl, fun h => ⟨fun ho => ?putLive, fun o ho => ?putReg⟩,
    fun h hr => ⟨fun hf => ?rsv, fun hf => ?rsvWait⟩, fun hw hr hf hrun h => ?rsvGrant⟩
  case loopSkip => exact (execLoop_of_nested h hnest).1 h0
  case loopStart => exact (execLoop_of_nested h hnest).2 h0 hlen
  case ld => exact State.nextCore_issue h (by simp [hbad, hst, hv, hk, hg])
  case st => exact State.nextCore_issue h (by simp [hbad, hk])
  case storeComplete =>
    refine ⟨_, execStoreComplete_front hc hst hu, by simp [Tile.takeStore], ?_, fun hkey a ha => ?_⟩
    · rw [State.onDev_dev, Dev.writeMem_mem, Dev.writeMem_mem]
      exact storedBytes_congr (by simp) (by simp) _ _ _
    · rw [hkey]
      exact (Dev.writeMem_get_outside _ _ _ _ _ a (by rwa [length_toBytes])).trans (by simp)
  case putLive => exact State.nextCore_issue h (by simp [ho])
  case putReg => exact State.nextCore_issue h (by simp [ho])
  case rsv => exact State.nextCore_issue h (Dev.reserve_of_free hr hf)
  case rsvWait => exact State.nextCore_issue h (by simp [Dev.reserve, hr, hf])
  case rsvGrant =>
    have hc : s.coreRuns = true := (s.woken_coreRuns n).symm.trans (State.coreRuns_of_tileAt h)
    refine State.nextCore_dev hc ?_
    rw [if_neg (by simp [hf])]
    exact State.reissue_dev hw hrun h (Dev.reserve_of_free (t := { s.dev.tile n with wait := .none }) hr hf)


end Sys2Proof.Machine
end

section
/-! PROOFS. The vector unit (chapter 15): O54. -/

namespace Sys2Proof.Machine

/-- A vector operation stands at the front where CORE runs. -/
theorem State.coreRuns_of_vecAt {s : State} {n op : Nat} {o : VOp} (h : s.vecAt n op o = true) : s.coreRuns = true := by
  simp only [State.vecAt, Bool.and_eq_true] at h
  obtain ⟨⟨⟨hcore, -⟩, -⟩, -⟩ := h
  exact hcore

/-- A command for the operation at the front of a vector queue ends with what the operation makes of the state. -/
theorem State.nextCore_vop {s : State} {n op : Nat} {o : VOp} {p : Nat → Bool} {f : Dev → Tile → VOp → Nat → Dev} {d : Dev}
    (h : s.vecAt n op o = true) (hp : p o.w.toNat = true) (hd : f s.dev (s.dev.tile n) o o.w.toNat = d) :
    (s.nextCore fun d => d.vop n p f) = .next { s with dev := d } :=
  State.nextCore_dev (State.coreRuns_of_vecAt h) ((Dev.vop_of_vecAt h p hp f).trans hd)

/-- The test of a command for one VOPC. -/
theorem State.isOp_of_vecAt {s : State} {n op : Nat} {o : VOp} (h : s.vecAt n op o = true) : (voOp o.w.toNat == op) = true :=
  beq_iff_eq.mpr (State.voOp_of_vecAt h)

/-- The test of a command for one VOPC and one AUX. -/
theorem State.isOpAux_of_vecAt {s : State} {n op aux : Nat} {o : VOp} (h : s.vecAt n op o = true) (ha : voAux o.w.toNat = aux) :
    (voOp o.w.toNat == op && voAux o.w.toNat == aux) = true := by
  simp [State.voOp_of_vecAt h, ha]

/-- Settles O54: each command finds its operation at the front, by its VOPC or by its VOPC and AUX; the five that look further (VGETR, VSMXM,
VLD, VST) take the branch that the hypothesis names. -/
theorem vectorOperations : Obligations.VectorOperations := by
  unfold Obligations.VectorOperations
  intro s n o t w z es m lanes two sign sf red
  have one {i op f g} (hi : exec i s = s.nextCore fun d => d.laneOp n op g) (hg : g t o = f) : lanes i op f := fun h =>
    hi.trans (State.nextCore_vop h (State.isOp_of_vecAt h) (by rw [← hg]))
  have hsf {i aux} (hi : exec i s = s.nextCore fun d => d.vsf n aux) : sf i aux := fun ha h =>
    hi.trans (State.nextCore_vop h (State.isOpAux_of_vecAt h ha) rfl)
  have hsign (i aux g) (hi : exec i s = s.nextCore fun d => d.vsgn n aux g) : sign i aux g := fun ha h =>
    hi.trans (State.nextCore_vop h (State.isOpAux_of_vecAt h ha) rfl)
  have hred {i aux f} (hi : exec i s = s.nextCore fun d => d.vred n aux f) : red i aux f := fun ha h =>
    hi.trans (State.nextCore_vop h (State.isOpAux_of_vecAt h ha) rfl)
  have hvop {i op f d} (hi : exec i s = s.nextCore fun d => d.vop n (fun w => voOp w == op) f) (h : s.vecAt n op o = true)
      (hd : f s.dev t o w = d) :
    exec i s = .next { s with dev := d } := hi.trans (State.nextCore_vop h (State.isOp_of_vecAt h) hd)
  refine ⟨fun h => hvop rfl h rfl, one rfl rfl, fun hc h => hvop rfl h ?vgetr, fun h => hvop rfl h rfl, one rfl rfl, one rfl rfl,
    one rfl rfl, one rfl rfl, one rfl rfl, one rfl rfl, one rfl rfl, one rfl rfl, hsign (.vsgnAbs n) 0 (fun _ _ => false) rfl,
    hsign (.vsgnNeg n) 1 (fun a _ => !a) rfl, hsign (.vsgnCopysign n) 2 (fun _ b => b) rfl, fun h => hvop rfl h rfl, one rfl rfl, hsf rfl,
    hsf rfl, hsf rfl, hsf rfl, hsf rfl, hsf rfl, hsf rfl, hsf rfl, hsf rfl, hsf rfl, hsf rfl, hsf rfl, hred rfl, hred rfl, hred rfl,
    hred rfl, hred rfl, fun h => hvop rfl h rfl, fun h hm => hvop rfl h ?vsmxmNone, fun h hm => hvop rfl h ?vsmxm, one rfl rfl,
    fun h => State.nextCore_of_runs (State.coreRuns_of_vecAt h) _, fun h => State.nextCore_of_runs (State.coreRuns_of_vecAt h) _,
    fun h => hvop rfl h rfl, fun h hc hb hg => hvop rfl h ?vld, fun h hc hb => hvop rfl h ?vst⟩
  case vgetr => exact if_neg (ne_true_of_eq_false hc)
  case vsmxmNone => exact if_pos hm
  case vsmxm => exact if_neg (ne_true_of_eq_false hm)
  case vld =>
    dsimp only
    rw [if_neg (ne_true_of_eq_false hc), hb, hg]
  case vst =>
    dsimp only
    rw [if_neg (ne_true_of_eq_false hc), hb]

end Sys2Proof.Machine
end

section
/-! PROOFS. Passes, conversions, waits and barriers of the tiles (chapters 11, 13, 14): O53. -/

namespace Sys2Proof.Machine

/-- Settles O53: an instruction is issued where its tile stands at it; what ends a unit's work takes effect where CORE runs. In each case
the checks of the operation are the hypotheses of the statement. -/
theorem tileUnits : Obligations.TileUnits := by
  unfold Obligations.TileUnits
  intro s n w m p c hc
  dsimp only
  refine ⟨fun h hd => State.nextCore_issue h ?endWaits, fun h hd => State.nextCore_issue h ?endRuns,
    fun h hr hm hmg hmn ha hs hst hv hcv hmc => State.nextCore_issue h ?mma,
    fun op hop hm hrun harr hag hmb hf => State.nextCore_dev hc ?rendezvous, fun hp hu hl hd => State.nextCore_dev hc ?drain,
    fun h hw => State.nextCore_issue h ?convertWaits,
    fun r h hst hv hcv hr halign hpb hblock harea hok hresv hdst hstride hstep hbad hbad' => State.nextCore_issue h ?convert,
    fun hcv hu hp hs => State.nextCore_dev hc ?convertStart, fun hcv hu hs hq => State.nextCore_dev hc ?convertComplete,
    fun h hu => State.nextCore_issue h (if_pos hu), fun h hu => State.nextCore_issue h (if_neg (ne_true_of_eq_false hu)),
    fun hw hu hrun h => State.nextCore_dev hc (State.reissue_dev hw hrun h (if_pos hu)),
    fun h hm hmg hmn => State.nextCore_issue h ?gbar, fun hw hrun hb => State.nextCore_dev hc ?gbarRelease,
    fun hf hrun hall => State.nextCore_dev hc ?deadlock, fun h hv hst hq => State.nextCore_issue h ?vop⟩
  case endWaits => simp [hd]
  case endRuns => simp [hd]
  case mma => simp [hr, hm, hmg, hmn, ha, hs, hst, hv, hcv, hmc]
  case rendezvous =>
    simp [hop, hm, hrun, harr, hmb, hf]
    exact fun k hk hno => Bool.noConfusion (hno.symm.trans (List.all_eq_true.mp hag k hk))
  case drain =>
    obtain ⟨ps, hps⟩ := List.head?_eq_some_iff.mp hp
    rcases hu with hu | hu
    · simp [hps, hu, hl, hd]
    · simp [hps, hu, hl, hd]
  case convertWaits =>
    rcases hw with hw | hw | hw
    · simp [hw]
    · simp [hw]
    · simp [Option.isSome_iff_ne_none.mpr hw]
  case convert =>
    simp [hst, hv, hcv, hr, halign, Nat.not_lt.mpr hpb, hbad, hok, Nat.not_lt.mpr hblock, Nat.not_lt.mpr harea, Nat.not_lt.mpr hresv, hdst,
      Nat.not_lt.mpr hstride, hstep, hbad']
  case convertStart => simp [hcv, hu, hp, hs]
  case convertComplete => simp [hcv, hu, hs, hq]
  case gbar => simp [hm, hmg, hmn]
  case gbarRelease => simp [hw, hrun, hb]
  case deadlock => simp [hf, hrun, hall]
  case vop => simp [hv, hst, hq]

end Sys2Proof.Machine
end

section
/-! PROOFS. Register accesses (chapters 00, 03, 06): O10 to O13. -/

namespace Sys2Proof.Machine

/-- A register access where PERI runs, and not the host's in D3hot. -/
theorem State.access_next {s t : State} {req : Requester} {f : State → State} (hp : s.periRuns = true)
    (hd : (isHost req && s.dev.is F.PCI_STATUS_D3) = false) (h : f s = t) : s.access req f = .next t := by
  rw [State.access, State.inPeri_of_runs hp, State.accessed, if_neg (ne_true_of_eq_false hd), h]

/-- What an access that reaches its register needs. -/
theorem State.reaches_iff (s : State) (req : Requester) (off : Nat) : s.reaches req off = true ↔
    s.periRuns = true ∧ (isHost req && s.dev.is F.PCI_STATUS_D3) = false ∧ s.domainOff off = false := by
  simp only [State.reaches, Bool.and_eq_true, Bool.not_eq_true', and_assoc]

/-- The 64-bit register at the offset of a low half. -/
theorem wideAt_of_hitAt {off : Nat} {h : Hit} (hh : hitAt off = some h) (hw : h.reg.wide = true) (hl : h.high = false) :
    wideAt off = some h := by
  simp [wideAt, hh, hw, hl]

/-- A 32-bit write of a register of a domain that is off. -/
theorem State.write32_off {s : State} {off : Nat} (h : s.domainOff off = true) (req : Requester) (v : Nat) :
    s.write32 req off v = s.onDev fun d => d.pciErr 1 off (ridOf req) := if_pos h

/-- A 32-bit write where no register is. -/
theorem State.write32_none {s : State} {off : Nat} (h : s.domainOff off = false) (hh : hitAt off = none) (req : Requester) (v : Nat) :
    s.write32 req off v = s := by
  simp [State.write32, h, hh]

/-- A 32-bit write of a 32-bit register. -/
theorem State.write32_narrow {s : State} {off : Nat} {h : Hit} (hd : s.domainOff off = false) (hh : hitAt off = some h)
    (hw : h.reg.wide = false) (req : Requester) (v : Nat) : s.write32 req off v = s.regSet req h off (v % 2 ^ 32) := by
  simp [State.write32, hd, hh, hw]

/-- A 32-bit write of the low half of a 64-bit register. -/
theorem State.write32_low {s : State} {off : Nat} {h : Hit} (hd : s.domainOff off = false) (hh : hitAt off = some h)
    (hw : h.reg.wide = true) (hl : h.high = false) (req : Requester) (v : Nat) :
    s.write32 req off v = s.setHeld off (some (v % 2 ^ 32)) := by
  simp [State.write32, hd, hh, hw, hl]

/-- A 32-bit write of the high half of a 64-bit register whose low half is held. -/
theorem State.write32_high {s : State} {off low : Nat} {h : Hit} (hd : s.domainOff (off + 4) = false) (hh : hitAt (off + 4) = some h)
    (hw : h.reg.wide = true) (hhi : h.high = true) (hheld : s.held off = some low) (req : Requester) (v : Nat) :
    s.write32 req (off + 4) v = (s.setHeld off none).regSet req { h with high := false } off (low + v % 2 ^ 32 * 2 ^ 32) := by
  simp [State.write32, hd, hh, hw, hhi, hheld]

/-- Settles O10: one clause for each way that REG_WRITE takes. -/
theorem registerWrite32 : Obligations.RegisterWrite32 := by
  unfold Obligations.RegisterWrite32
  intro s req off w v
  dsimp only
  refine ⟨fun hp => ?noPeri, fun hp hh hd => ?d3, fun hp hd => ?runs⟩
  case noPeri =>
    show s.access req _ = _
    simp [State.access, State.inPeri, hp]
  case d3 =>
    show s.access req _ = _
    simp [State.access, State.inPeri_of_runs hp, State.accessed, hh, hd]
  refine ⟨fun hm => State.access_next hp hd (if_pos hm), fun hm hw => State.access_next hp hd ?refused,
    fun hpba hw ha => State.access_next hp hd ?pba, fun hpl ha ho => State.access_next hp hd ?off,
    fun hpl ha ho hh => State.access_next hp hd ?none, fun h hpl ha ho hh hn => State.access_next hp hd ?narrow,
    fun h hpl ha ho hh => State.access_next hp hd ?wide, fun hpl ha hh => State.access_next hp hd ?two⟩
  case refused =>
    have hbad : (!(w == 4 || w == 8) || off % w != 0) = true := by
      rcases hw with ⟨h4, h8⟩ | h
      · simp [h4, h8]
      · simp [h]
    rw [State.mmioWrite, if_neg (ne_true_of_eq_false hm), if_pos hbad]
  case pba =>
    have hm : inR 0x308000 0x310000 off = false := by simp [inR] at hpba ⊢; omega
    rcases hw with rfl | rfl
    · simp [State.mmioWrite, hm, hpba, ha]
    · simp [State.mmioWrite, hm, hpba, ha]
  case off => simp [State.mmioWrite, hpl.1, hpl.2, ha, State.write32_off ho]
  case none => simp [State.mmioWrite, hpl.1, hpl.2, ha, State.write32_none ho hh]
  case narrow => simp [State.mmioWrite, hpl.1, hpl.2, ha, State.write32_narrow ho hh hn]
  case wide => simp [State.mmioWrite, hpl.1, hpl.2, ha, State.write64, ho, hh]
  case two => simp [State.mmioWrite, hpl.1, hpl.2, ha, State.write64, hh]

/-- Settles O11. -/
theorem register64Halves : Obligations.Register64Halves := by
  unfold Obligations.Register64Halves
  intro s req off v h hr hh hw hl hlane
  obtain ⟨hp, hd, ho⟩ := (State.reaches_iff s req off).mp hr
  have hwide : (wideAt off).isSome = true := by rw [wideAt_of_hitAt hh hw hl]; rfl
  refine ⟨State.access_next hp hd ?write, State.access_next hp hd ?read, fun low h' hheld ho' hh' hw' hhi => State.access_next hp hd ?high⟩
  case write => rw [if_pos hwide, State.write32_low ho hh hw hl]
  case read =>
    have hl' : (isTileOff off && inR 0x1000 0x3000 (inTile off)) = false := by
      cases ht : isTileOff off
      · rfl
      · simpa using hlane ht
    rw [if_pos hwide, State.read32, if_neg (ne_true_of_eq_false ho), if_neg (ne_true_of_eq_false hl')]
    simp [hh, hw, hl]
  case high => rw [if_pos (by simpa using hwide), State.write32_high ho' hh' hw' hhi hheld]

/-- An error bit of PCI_ERR is one bit wide and none of the other fields of the record. -/
theorem pciErrBit_spec (k : Nat) : (pciErrBit k).len = 1 ∧ (pciErrBit k).key ≠ F.PCI_ERR_COUNT.key ∧
    (pciErrBit k).key ≠ F.PCI_ERR_FIRST.key ∧ (pciErrBit k).key ≠ F.PCI_ERR_ADDR_ADDR.key ∧
    (pciErrBit k).key ≠ F.PCI_ERR_RID_RID.key := by
  unfold pciErrBit
  split <;> decide

/-- An error that is not the first since all were clear. -/
theorem Dev.pciErr_later {d : Dev} (h : d.rd F.PCI_ERR_FIRST ≠ 0xFF) (k addr rid : Nat) :
    d.pciErr k addr rid = (d.wr (pciErrBit k) 1).sat F.PCI_ERR_COUNT := by
  rw [Dev.pciErr, if_neg h]

/-- The first error since all were clear. -/
theorem Dev.pciErr_first {d : Dev} (h : d.rd F.PCI_ERR_FIRST = 0xFF) (k addr rid : Nat) : d.pciErr k addr rid =
    ((((d.wr F.PCI_ERR_FIRST k).wr F.PCI_ERR_ADDR_ADDR addr).wr F.PCI_ERR_RID_RID rid).wr (pciErrBit k) 1).sat F.PCI_ERR_COUNT := by
  rw [Dev.pciErr, if_pos h]

/-- A saturating counter after a count, below its own width. -/
theorem Dev.rd_sat_same (d : Dev) (f : Fld) (n : Nat) : (d.sat f n).rd f = min (d.rd f + n) (2 ^ f.len - 1) := by
  rw [Dev.sat, Dev.rd_wr_same, Nat.mod_eq_of_lt]
  have := Nat.two_pow_pos f.len
  omega

/-- The bit of the error and COUNT. -/
theorem Dev.pciErr_bit_count (d : Dev) (k addr rid : Nat) : (d.pciErr k addr rid).rd (pciErrBit k) = 1 ∧
    (d.pciErr k addr rid).rd F.PCI_ERR_COUNT = min (d.rd F.PCI_ERR_COUNT + 1) 65535 := by
  obtain ⟨hlen, hcnt, -, -, -⟩ := pciErrBit_spec k
  by_cases h : d.rd F.PCI_ERR_FIRST = 0xFF
  · rw [Dev.pciErr_first h, Dev.rd_sat_ne _ _ hcnt, Dev.rd_wr_same, Dev.rd_sat_same, Dev.rd_wr_ne _ _ hcnt.symm, hlen]
    simp (disch := decide) only [Dev.rd_wr_ne]
    exact ⟨rfl, rfl⟩
  · rw [Dev.pciErr_later h, Dev.rd_sat_ne _ _ hcnt, Dev.rd_wr_same, Dev.rd_sat_same, Dev.rd_wr_ne _ _ hcnt.symm, hlen]
    exact ⟨rfl, rfl⟩

/-- A field that is neither the error's bit nor COUNT keeps what the record of a first error gave it. -/
theorem Dev.pciErr_rd (d : Dev) (k addr rid : Nat) {f : Fld} (hb : f.key ≠ (pciErrBit k).key) (hc : f.key ≠ F.PCI_ERR_COUNT.key) :
    (d.pciErr k addr rid).rd f = if d.rd F.PCI_ERR_FIRST = 0xFF then
      (((d.wr F.PCI_ERR_FIRST k).wr F.PCI_ERR_ADDR_ADDR addr).wr F.PCI_ERR_RID_RID rid).rd f else d.rd f := by
  by_cases h : d.rd F.PCI_ERR_FIRST = 0xFF
  · rw [Dev.pciErr_first h, Dev.rd_sat_ne _ _ hc, Dev.rd_wr_ne _ _ hb, if_pos h]
  · rw [Dev.pciErr_later h, Dev.rd_sat_ne _ _ hc, Dev.rd_wr_ne _ _ hb, if_neg h]

/-- FIRST, ERR_ADDR and ERR_RID after the first error since all were clear. -/
theorem Dev.pciErr_first_fields {d : Dev} (h : d.rd F.PCI_ERR_FIRST = 0xFF) (k addr rid : Nat) :
    (d.pciErr k addr rid).rd F.PCI_ERR_FIRST = k % 2 ^ 8 ∧ (d.pciErr k addr rid).rd F.PCI_ERR_ADDR_ADDR = addr % 2 ^ 64 ∧
      (d.pciErr k addr rid).rd F.PCI_ERR_RID_RID = rid % 65536 := by
  obtain ⟨-, -, hf, ha, hr⟩ := pciErrBit_spec k
  simp only [Dev.pciErr_rd _ _ _ _ hf.symm (by decide), Dev.pciErr_rd _ _ _ _ ha.symm (by decide),
    Dev.pciErr_rd _ _ _ _ hr.symm (by decide), if_pos h]
  simp (disch := decide) only [Dev.rd_wr_ne, Dev.rd_wr_same]
  exact ⟨rfl, rfl, rfl⟩

/-- FIRST, ERR_ADDR and ERR_RID after a later error. -/
theorem Dev.pciErr_later_fields {d : Dev} (h : d.rd F.PCI_ERR_FIRST ≠ 0xFF) (k addr rid : Nat) :
    (d.pciErr k addr rid).rd F.PCI_ERR_FIRST = d.rd F.PCI_ERR_FIRST ∧
      (d.pciErr k addr rid).rd F.PCI_ERR_ADDR_ADDR = d.rd F.PCI_ERR_ADDR_ADDR ∧
      (d.pciErr k addr rid).rd F.PCI_ERR_RID_RID = d.rd F.PCI_ERR_RID_RID := by
  obtain ⟨-, -, hf, ha, hr⟩ := pciErrBit_spec k
  simp only [Dev.pciErr_rd _ _ _ _ hf.symm (by decide), Dev.pciErr_rd _ _ _ _ ha.symm (by decide),
    Dev.pciErr_rd _ _ _ _ hr.symm (by decide), if_neg h, and_self]

/-- Every field but those of the record stays. -/
theorem Dev.pciErr_rd_ne (d : Dev) (k addr rid : Nat) {f : Fld} (hb : f.key ≠ (pciErrBit k).key) (hc : f.key ≠ F.PCI_ERR_COUNT.key)
    (hf : f.key ≠ F.PCI_ERR_FIRST.key) (ha : f.key ≠ F.PCI_ERR_ADDR_ADDR.key) (hr : f.key ≠ F.PCI_ERR_RID_RID.key) :
    (d.pciErr k addr rid).rd f = d.rd f := by
  rw [Dev.pciErr_rd d k addr rid hb hc, Dev.rd_wr_ne _ _ hr, Dev.rd_wr_ne _ _ ha, Dev.rd_wr_ne _ _ hf, ite_self]

/-- The record leaves memory. -/
@[simp] theorem Dev.pciErr_mem (d : Dev) (k addr rid : Nat) : (d.pciErr k addr rid).mem = d.mem := by
  by_cases h : d.rd F.PCI_ERR_FIRST = 0xFF
  · rw [Dev.pciErr_first h]; rfl
  · rw [Dev.pciErr_later h]; rfl

/-- Settles O12: both accesses do no more than `Dev.pciErr`, whose fields are read one by one. -/
theorem refusedAccessesAreRecorded : Obligations.RefusedAccessesAreRecorded := by
  unfold Obligations.RefusedAccessesAreRecorded
  intro s off rid hp hd
  have hd' : (isHost (.host rid) && s.dev.is F.PCI_STATUS_D3) = false := by rw [hd, Bool.and_false]
  refine ⟨⟨s.onDev fun d => d.pciErr 0 off rid, State.access_next hp hd' rfl, rfl, Dev.pciErr_mem .., (Dev.pciErr_bit_count s.dev 0 off rid).1,
      (Dev.pciErr_bit_count ..).2, fun h => Dev.pciErr_first_fields h 0 off rid, fun h => Dev.pciErr_later_fields h 0 off rid,
      fun f hb hc hf ha hr => Dev.pciErr_rd_ne s.dev 0 off rid hb hc hf ha hr⟩,
    fun ho => ⟨s.onDev fun d => d.pciErr 1 off rid, State.access_next hp hd' (if_pos ho), rfl, Dev.pciErr_mem ..,
      (Dev.pciErr_bit_count s.dev 1 off rid).1, (Dev.pciErr_bit_count ..).2, fun h => Dev.pciErr_first_fields h 1 off rid,
      fun h => Dev.pciErr_later_fields h 1 off rid, fun f hb hc hf ha hr => Dev.pciErr_rd_ne s.dev 1 off rid hb hc hf ha hr⟩⟩

/-- The registers that LOCK protects lie in the always-on domain. -/
theorem aonOff_of_seqLocked {off : Nat} (h : seqLocked off = true) : aonOff off = true := by
  simp [seqLocked, inR] at h
  simp [aonOff]
  omega

/-- Settles O13: a locked register lies in the always-on domain, whose writes look at the lock first. -/
theorem lockedRegistersStay : Obligations.LockedRegistersStay := by
  unfold Obligations.LockedRegistersStay
  intro s req h off v hlock hoff
  have ha : aonOff off = true := aonOff_of_seqLocked hoff
  rw [State.regSet, if_pos ha, State.aonWrite, if_pos (by rw [hlock, hoff]; rfl)]

end Sys2Proof.Machine
end

section
/-! PROOFS. Resets, straps, the test port and the reference clock (chapters 02, 05, 06, 23): O14, O15, O16, O18. -/

namespace Sys2Proof.Machine

/-- A write of a field outside the rails' status registers leaves which channels are on. -/
theorem Aon.on_wr (a : Aon) {f : Fld} (v n : Nat) (h : f.key ≠ (F.SEQ_RAIL_STAT_ON n).key) : (a.wr f v).on n = a.on n := by
  rw [Aon.on, Aon.on, Aon.is, Aon.is, Aon.rd_wr_ne _ _ h.symm]

/-- Noting the cause of a reset leaves every field but the two it writes. -/
theorem Aon.rd_cause_ne (a : Aon) (k : Nat) {f : Fld} (hl : f.key ≠ F.BOOT_CAUSE_LAST.key) (hs : f.key ≠ F.BOOT_CAUSE_SEEN.key) :
    (a.cause k).rd f = a.rd f := by
  rw [Aon.cause, Aon.orf, Aon.rd_wr_ne _ _ hs, Aon.rd_wr_ne _ _ hl]

/-- The cause of a reset is the last one. -/
theorem Aon.rd_cause_last (a : Aon) (k : Nat) : (a.cause k).rd F.BOOT_CAUSE_LAST = k % 8 := by
  rw [Aon.cause, Aon.orf, Aon.rd_wr_ne _ _ (by decide), Aon.rd_wr_same]
  rfl

/-- After a power-on reset every field of the always-on domain but FAULTN_LOW has its reset value. -/
theorem Aon.rd_powerOn (a : Aon) (ok : Bool) {f : Fld} (h : f.key ≠ F.SEQ_STATUS_FAULTN_LOW.key) : (a.powerOn ok).rd f = f.reset := by
  rw [Aon.powerOn, Aon.showFaultN, Aon.rd_wr_ne _ _ h]
  rfl

/-- After a power-on reset no channel is on. -/
theorem Aon.on_powerOn (a : Aon) (ok : Bool) (n : Nat) : (a.powerOn ok).on n = false := by
  rw [Aon.on, Aon.is, Aon.rd_powerOn]
  · rfl
  · simp [Fld.key, F.SEQ_RAIL_STAT_ON, F.SEQ_STATUS_FAULTN_LOW]
    omega

/-- A noted cause leaves which channels are on. -/
theorem Aon.on_cause (a : Aon) (k n : Nat) (hn : n < 24) : (a.cause k).on n = a.on n := by
  rw [Aon.on, Aon.on, Aon.is, Aon.is, Aon.rd_cause_ne] <;>
    · simp [Fld.key, F.SEQ_RAIL_STAT_ON, F.BOOT_CAUSE_LAST, F.BOOT_CAUSE_SEEN]
      omega

/-- Settles O14: the power-on reset lists no field but FAULTN_LOW and, for its cause, those of BOOT_CAUSE. -/
theorem powerOnAndStraps : Obligations.PowerOnAndStraps := by
  unfold Obligations.PowerOnAndStraps
  intro s balls
  refine ⟨⟨_, rfl, rfl, rfl, rfl, Aon.rd_cause_last _ 0, ?seen, rfl, ?engine, ?pc, fun n hn => ?on, rfl, rfl, rfl, rfl, rfl⟩,
    ⟨_, rfl, rfl, rfl, rfl, fun n _ => Aon.on_powerOn _ _ _, rfl, rfl, rfl, rfl, rfl, rfl⟩, fun hs ho => ?sample⟩
  case seen =>
    show ((s.aon.powerOn true).cause 0).rd _ = _
    rw [Aon.cause, Aon.orf, Aon.rd_wr_same, Aon.rd_wr_ne _ _ (by decide), Aon.rd_powerOn _ _ (by decide)]
    rfl
  case engine => exact (Aon.rd_cause_ne _ _ (by decide) (by decide)).trans (Aon.rd_powerOn _ _ (by decide))
  case pc => exact (Aon.rd_cause_ne _ _ (by decide) (by decide)).trans (Aon.rd_powerOn _ _ (by decide))
  case on => exact (Aon.on_cause _ 0 n hn).trans (Aon.on_powerOn _ _ _)
  case sample =>
    show execStrapSample balls s = _
    rw [execStrapSample, if_neg (by simp [hs, ho])]

/-- What a full reset leaves empty outside the always-on domain. -/
theorem State.fullReset_dev (s : State) (k : Nat) : (s.fullReset k).dev.mem = {} ∧ (s.fullReset k).dev.ctxs = [] ∧
    (s.fullReset k).dev.queues = [] ∧ (s.fullReset k).dev.tiles = [] := by
  have hshow (d : Dev) : (d.showSfdp s.aon.sfdp).mem = d.mem ∧ (d.showSfdp s.aon.sfdp).ctxs = d.ctxs ∧
      (d.showSfdp s.aon.sfdp).queues = d.queues ∧ (d.showSfdp s.aon.sfdp).tiles = d.tiles := by
    unfold Dev.showSfdp
    split <;> exact ⟨rfl, rfl, rfl, rfl⟩
  have htell (d : Dev) : (d.tellDegraded s.aon).mem = d.mem ∧ (d.tellDegraded s.aon).ctxs = d.ctxs ∧
      (d.tellDegraded s.aon).queues = d.queues ∧ (d.tellDegraded s.aon).tiles = d.tiles := by
    unfold Dev.tellDegraded
    split <;> exact ⟨rfl, rfl, rfl, rfl⟩
  obtain ⟨hm, hc, hq, ht⟩ := htell (s.dev.reset.showSfdp s.aon.sfdp)
  obtain ⟨hm', hc', hq', ht'⟩ := hshow s.dev.reset
  exact ⟨hm.trans hm', hc.trans hc', hq.trans hq', ht.trans ht'⟩

/-- Settles O15. -/
theorem resetNResetsHostSide : Obligations.ResetNResetsHostSide := by
  unfold Obligations.ResetNResetsHostSide
  intro s hb
  refine ⟨fun hr => ?assert, fun hr he hboot ha => ?release, fun hr he => ?latched⟩
  case assert =>
    obtain ⟨hm, hc, hq, ht⟩ := (s.onAon fun a => { a with resetN := false }).fullReset_dev 2
    exact ⟨_, if_neg (by simp [hb, hr]), rfl, Aon.rd_cause_last _ 2, hm, hc, hq, ht, rfl, rfl⟩
  case release =>
    show execResetNRelease s = _
    rw [execResetNRelease, if_neg (by simp [hb, hr])]
    exact (if_neg he).trans (if_pos (by rw [Bool.and_eq_true]; exact ⟨hboot, ha⟩))
  case latched =>
    show execResetNRelease s = _
    rw [execResetNRelease, if_neg (by simp [hb, hr])]
    exact if_pos he

/-- Settles O16: each command is its record once its own condition is met. -/
theorem hostLinkResets : Obligations.HostLinkResets := by
  unfold Obligations.HostLinkResets
  intro s
  refine ⟨fun hp => State.inPeri_of_runs hp _, fun hb => ⟨if_neg (ne_true_of_eq_false hb), if_neg (ne_true_of_eq_false hb)⟩,
    fun hp => State.nextPeri_of_runs hp _, fun hp hd => (State.inPeri_of_runs hp _).trans (if_pos hd)⟩

/-- A change of the test port, where its supply is valid. -/
theorem State.nextTap_of_supply {s : State} (h : s.aon.supplyOk = true) (f : Aon → Aon) : s.nextTap f = s.nextAon f := if_pos h

/-- Settles O18: a ball whose pads have their supply takes its reset state while TEST_EN is high. -/
theorem testPortAndPins : Obligations.TestPortAndPins := by
  unfold Obligations.TestPortAndPins
  intro s levels cells
  refine ⟨fun h => ⟨State.nextTap_of_supply h _, State.nextTap_of_supply h _, ⟨_, State.nextTap_of_supply h _, rfl, rfl, rfl, rfl, rfl⟩⟩,
    ⟨_, rfl, rfl, rfl, fun b hpad => ?_⟩, rfl, rfl⟩
  rw [State.drive, hpad]
  rfl

end Sys2Proof.Machine
end

section
/-! PROOFS. The rail sequencer: its instructions, its waits, power-good, and the reactions (chapter 03): O19, O20, O22 to O25. -/

namespace Sys2Proof.Machine

/-! ### Instructions and waits -/

/-- What lets the engine execute the word at its index. -/
theorem Aon.of_instr {a : Aon} {w : Nat} (h : a.instr = some w) :
    a.engine = stRun ∧ a.src = .image ∧ a.wait = .none ∧ a.past = false := by
  unfold Aon.instr at h
  split at h
  · rename_i hc
    simpa only [Bool.and_eq_true, beq_iff_eq, Bool.not_eq_true', and_assoc] using hc
  · exact absurd h nofun

/-- An instruction the engine can execute is handed to its operation. -/
theorem Aon.onInstr_of_instrAt {s : State} {op w : Nat} (h : s.instrAt op w = true) (f : Nat → Aon → Aon) :
    s.aon.onInstr op f = f w s.aon := by
  obtain ⟨hi, ho⟩ := (State.instrAt_iff s op w).mp h
  simp only [Aon.onInstr, hi, if_pos ho]

/-- The command of the instruction the engine can execute. -/
theorem State.nextAon_onInstr {s : State} {op w : Nat} {a : Aon} {f : Nat → Aon → Aon} (h : s.instrAt op w = true) (hf : f w s.aon = a) :
    s.nextAon (fun a => a.onInstr op f) = .next { s with aon := a } :=
  State.nextAon_aon ((Aon.onInstr_of_instrAt h f).trans hf)

/-- A LOG goes on at once while the queue of the locket has room. -/
theorem Aon.resume_log_room {a : Aon} {code : Nat} (hw : a.wait = .logRoom code) (hr : a.running = true)
    (hq : a.locket.queue.length < 8) : a.resume = (a.record 2 0 0xFF code).advance := by
  simp [Aon.resume, hw, hr, hq]

/-- A LOG waits while the queue of the locket is full. -/
theorem Aon.resume_log_full {a : Aon} {code : Nat} (hw : a.wait = .logRoom code) (hq : 8 ≤ a.locket.queue.length) : a.resume = a := by
  simp [Aon.resume, hw, Nat.not_lt.mpr hq]

/-- The engine that executes an instruction is running. -/
theorem Aon.running_of_instr {a : Aon} {w : Nat} (h : a.instr = some w) : a.running = true := by
  simp [Aon.running, (Aon.of_instr h).1]

/-- Settles O19: an instruction is handed to its operation. END also runs past the last of them, which its own word never does. -/
theorem sequencerInstructions : Obligations.SequencerInstructions := by
  unfold Obligations.SequencerInstructions
  intro s w
  refine ⟨fun h => State.nextAon_aon ?endWord, fun he hs hp => State.nextAon_aon ?endPast, fun h => State.nextAon_onInstr h rfl,
    fun h => State.nextAon_onInstr h rfl, fun h => State.nextAon_onInstr h rfl, fun h => State.nextAon_onInstr h rfl,
    fun h => State.nextAon_onInstr h rfl, fun h => State.nextAon_onInstr h rfl, fun h => State.nextAon_onInstr h rfl,
    fun h => State.nextAon_onInstr h rfl, fun h hq => State.nextAon_onInstr h ?logRoom, fun h hq => State.nextAon_onInstr h ?logFull⟩
  case endWord =>
    obtain ⟨-, -, -, hpast⟩ := Aon.of_instr ((State.instrAt_iff s 0 w).mp h).1
    rw [if_neg (by simp [hpast]), Aon.onInstr_of_instrAt h]
  case endPast => exact if_pos (by simp [he, hs, hp])
  case logRoom =>
    have hr : s.aon.running = true := Aon.running_of_instr ((State.instrAt_iff s 9 w).mp h).1
    exact Aon.resume_log_room rfl hr hq
  case logFull => exact Aon.resume_log_full rfl hq

/-- Settles O20. -/
theorem sequencerWaits : Obligations.SequencerWaits := by
  unfold Obligations.SequencerWaits
  intro s chs
  refine ⟨fun he hs hp hw ht => State.nextAon_aon (if_pos ?_), fun hw hr he => ?_, fun he => if_pos he,
    fun hw hr hall => State.nextAon_aon ?_, fun hw hr hall => State.nextAon_aon ?_, fun hr => State.nextAon_aon (if_pos hr)⟩
  · simp [he, hs, hp, hw, ht]
  · exact (if_neg (ne_true_of_eq_false he)).trans (State.nextAon_aon (if_pos (by simp [hw, hr])))
  · simp only [hw, hr, hall, Bool.and_self, if_true]
  · simp only [hw, hr, hall, Bool.not_false, Bool.and_self, if_true]

/-! ### Power-good and the reactions of a rail -/

/-- Settles O22. -/
theorem powerGoodAndArming : Obligations.PowerGoodAndArming := by
  unfold Obligations.PowerGoodAndArming
  intro s ch hch
  refine ⟨fun ho ht => State.nextAon_aon (if_pos (by rw [ho, ht]; rfl)), State.nextAon_aon (if_pos hch), State.nextAon_aon (if_pos hch),
    fun ha hp hg hn => State.nextAon_aon (if_pos ?_)⟩
  simp [hch, ha, hp, hg, hn]

/-- The switch-off of the next of several channels. -/
theorem Aon.offNext_cons (a : Aon) (n : Nat) (ns : List Nat) : a.offNext (n :: ns) = ((a.railOff n).dropReacts n, ns) := rfl

/-- Settles O23: each command finds its rail or its group at its stage. -/
theorem railReactions : Obligations.RailReactions := by
  unfold Obligations.RailReactions
  intro s ch g p
  refine ⟨fun hn hr hc => State.nextAon_aon ?retry, fun h => State.nextAon_aon (if_pos h),
    fun h hp => State.nextAon_aon (if_pos (by rw [h, hp]; rfl)), fun h => State.nextAon_aon (if_pos h),
    fun hc ha hh hi => State.nextAon_aon (if_pos ?healthy), fun hn hr hg => State.nextAon_aon ?group,
    fun n ns h hns => State.nextAon_aon ?offMore, fun n h => State.nextAon_aon ?offLast⟩
  case retry => simp only [hn, hr, hc, beq_self_eq_true, Bool.and_self, if_true]
  case healthy => simp [hc, ha, hh, hi]
  case group =>
    cases hrail : p.ch with
    | none => simp only [hn, hr, hg, hrail, beq_self_eq_true, Bool.and_self, if_true]
    | some r => simp only [hn, hr, hg, hrail, beq_self_eq_true, Bool.and_self, if_true]
  case offMore => simp only [h, Aon.offNext_cons, List.isEmpty_eq_false_iff.mpr hns, Bool.false_eq_true, if_false]
  case offLast => simp only [h, Aon.offNext_cons, List.isEmpty_nil, if_true]

/-! ### SYSTEM_RESET, margins and FAULT_N -/

/-- Settles O24. -/
theorem systemResetSteps : Obligations.SystemResetSteps := by
  unfold Obligations.SystemResetSteps
  intro s p req n ns c l
  refine ⟨fun hn hr => ?start, fun h hns => State.nextAon_aon ?offMore, fun h => State.nextAon_aon ?offLast, fun h hg => ?restart,
    fun h hg => ?guard, fun h => State.nextAon_aon (if_pos (by simp [h])), fun hr hl he => ?swreset⟩
  case start =>
    show Host.Outcome.next s.sysReset = _
    simp only [State.sysReset, hn, hr, beq_self_eq_true, if_true]
  case offMore => simp only [h, Aon.offNext_cons, List.isEmpty_eq_false_iff.mpr hns, Bool.false_eq_true, if_false]
  case offLast => simp only [h, Aon.offNext_cons, List.isEmpty_nil, if_true]
  case restart =>
    show execSysresetWaitExpire s = _
    have hg' : (s.onAon fun a => if c then a.sat F.SEQ_STATUS_RST_COUNT else a).aon.faultN.guardWait = false := by
      cases c <;> exact hg
    simp only [execSysresetWaitExpire, h]
    exact if_neg (ne_true_of_eq_false hg')
  case guard =>
    show execSysresetWaitExpire s = _
    have hg' : (s.onAon fun a => if c then a.sat F.SEQ_STATUS_RST_COUNT else a).aon.faultN.guardWait = true := by
      cases c <;> exact hg
    simp only [execSysresetWaitExpire, h]
    exact if_pos hg'
  case swreset =>
    refine (State.atReg_of_reaches hr _).trans ?_
    rw [State.swreset, if_neg (by simp [hl, he])]

/-- A host margin is discarded under LOCK. -/
theorem Aon.hostMargin_locked {a : Aon} (h : a.is F.SEQ_CTRL_LOCK = true) (ch step : Nat) : a.hostMargin ch step = a := by
  rw [Aon.hostMargin, if_pos (by rw [h]; rfl)]

/-- FAULT_N, once released, is not driven, and its level is checked. -/
theorem Aon.freeFaultN_spec (a : Aon) : a.freeFaultN.rd F.SEQ_STATUS_FAULTN_DRIVE = 0 ∧ a.freeFaultN.faultN.releaseCheck = true := by
  refine ⟨?_, rfl⟩
  rw [Aon.freeFaultN, Aon.showFaultN, Aon.rd_wr_ne _ _ (by decide), Aon.rd_wr_same]
  rfl

/-- Showing the level of FAULT_N leaves the reaction in progress. -/
theorem Aon.showFaultN_reacting (a : Aon) : a.showFaultN.reacting = a.reacting := rfl

/-- Settles O25. -/
theorem marginsAndFaultN : Obligations.MarginsAndFaultN := by
  unfold Obligations.MarginsAndFaultN
  intro s req ch step
  refine ⟨fun hr => ⟨fun hl => (State.atReg_of_reaches hr _).trans (State.nextAon_aon (Aon.hostMargin_locked hl ch step)),
      fun hl hb => (State.atReg_of_reaches hr _).trans rfl⟩,
    fun n st h ok hm => State.nextAon_aon ?marginDone,
    fun hd hs he ht hb => ⟨_, State.nextAon_aon (if_pos ?release), rfl, (Aon.freeFaultN_spec s.aon).1, (Aon.freeFaultN_spec s.aon).2⟩,
    fun hc hd => ⟨State.nextAon_aon (if_pos (by rw [hc, hd]; rfl)), State.nextAon_aon (if_pos (by rw [hc, hd]; rfl))⟩,
    fun hd ho => State.nextAon_aon (if_neg (by simp [hd, ho])), fun hd => ⟨fun h => ?guard, fun h => ?latch⟩,
    fun h => State.nextAon_aon (if_pos h)⟩
  case marginDone => simp only [hm]
  case release => simp [hd, hs, he, ht, hb]
  case guard =>
    show execFaultnGuardExpire s = _
    rcases h with h | h
    · simp only [execFaultnGuardExpire, hd, State.onAon, Aon.showFaultN_reacting, h, Bool.false_eq_true, if_false]
    · simp only [execFaultnGuardExpire, hd, State.onAon, Aon.showFaultN_reacting, h, Bool.false_eq_true, if_false]
  case latch =>
    show execFaultnGuardExpire s = _
    simp only [execFaultnGuardExpire, hd, State.onAon, Aon.showFaultN_reacting, h, Bool.false_eq_true, if_false]

end Sys2Proof.Machine
end

section
/-! PROOFS. Supervision, the locket, brown-out and thermal trip (chapters 03, 04): O26 to O28. -/

namespace Sys2Proof.Machine

/-! ### Supervision -/

/-- Settles O26: each command finds its input, its bus and the state of the bus. -/
theorem adcAndPmbus : Obligations.AdcAndPmbus := by
  unfold Obligations.AdcAndPmbus
  intro s input code bus ch st vout iout pages t data
  refine ⟨fun ho hs hi hn => if_pos (by simp [ho, hs, ← hi, hn]), fun hc he hp => State.nextAon_aon (if_pos (by simp [hc, he, hp])),
    fun hb hp => State.nextAon_aon (if_pos (by simp [hb, hp])), fun hb ht hr => ⟨fun ha => ?ok, ?failed, fun ha hp => ⟨fun hm => ?again, fun hm => ?twice⟩⟩,
    fun hb hd hr => State.nextAon_aon (if_pos (by simp [hb, hd, hr])), fun hb => ⟨fun h => ⟨?step1Free, fun he ho => ?step1⟩, fun h free => ?step2,
      fun h => ⟨?step3Free, ?step3⟩⟩⟩
  case ok =>
    show execPmbTransactionDone bus _ s = _
    simp [execPmbTransactionDone, ht, hr, Nat.not_le.mpr hb, ha]
  case failed =>
    show execPmbTransactionDone bus _ s = _
    simp [execPmbTransactionDone, ht, hr, Nat.not_le.mpr hb]
  case again =>
    show execPmbTransactionDone bus _ s = _
    simp [execPmbTransactionDone, ht, hr, Nat.not_le.mpr hb, ha, hp, hm]
    rfl
  case twice =>
    show execPmbTransactionDone bus _ s = _
    simp [execPmbTransactionDone, ht, hr, Nat.not_le.mpr hb, ha, hp, hm]
  case step1Free | step2 | step3Free | step3 =>
    show execPmbRecoveryTimer bus _ s = _
    simp only [execPmbRecoveryTimer, if_neg (Nat.not_le.mpr hb), h]
    rfl
  case step1 =>
    show execPmbRecoveryTimer bus _ s = _
    simp only [execPmbRecoveryTimer, if_neg (Nat.not_le.mpr hb), h, he, ho]
    rfl

/-! ### The locket -/

/-- A field of the always-on domain but DROPPED stays when a record takes its place in the queue, and so does POR_COUNT. -/
structure Aon.SameLocket (a b : Aon) : Prop where
  rd : ∀ f : Fld, f.key ≠ F.LKT_STATUS_DROPPED.key → f.key ≠ F.LKT_STATUS_ERASING.key → b.rd f = a.rd f
  porCount : b.locket.porCount = a.locket.porCount

/-- Nothing changed. -/
theorem Aon.SameLocket.refl (a : Aon) : a.SameLocket a := ⟨fun _ _ _ => rfl, rfl⟩
/-- One change after another. -/
theorem Aon.SameLocket.trans {a b c : Aon} (h : a.SameLocket b) (h' : b.SameLocket c) : a.SameLocket c :=
  ⟨fun f hd he => (h'.rd f hd he).trans (h.rd f hd he), h'.porCount.trans h.porCount⟩
/-- One change or the other. -/
theorem Aon.SameLocket.ite {a b c : Aon} {p : Prop} [Decidable p] (h : a.SameLocket b) (h' : a.SameLocket c) :
    a.SameLocket (if p then b else c) := by
  split <;> assumption

/-- The writer takes the next record. -/
theorem Aon.sameLocket_lktKick (a : Aon) : a.SameLocket a.lktKick := by
  refine .ite (.refl a) ?_
  split
  · split
    · exact ⟨fun _ _ _ => rfl, rfl⟩
    · exact .refl a
  · exact .refl a

/-- A record is dropped. -/
theorem Aon.sameLocket_lktDrop (a : Aon) : a.SameLocket a.lktDrop :=
  ⟨fun _ hd _ => Aon.rd_wr_ne _ _ hd, rfl⟩

/-- A record is raised. -/
theorem Aon.sameLocket_lktAdd (a : Aon) (r : LRec) : a.SameLocket (a.lktAdd r) := by
  have hput (q u : List LRec) : a.SameLocket { a with locket := { a.locket with queue := q, urgent := u } } := ⟨fun _ _ _ => rfl, rfl⟩
  exact .ite (sameLocket_lktDrop a) (.ite ((hput _ _).trans (sameLocket_lktKick _))
    (.ite ((hput _ _).trans (sameLocket_lktKick _)) (sameLocket_lktDrop a)))

/-- A wanted erase starts. -/
theorem Aon.sameLocket_lktEraseKick (a : Aon) : a.SameLocket a.lktEraseKick := by
  refine .ite (.refl a) ?_
  split
  · exact ⟨fun _ _ he => Aon.rd_wr_ne _ _ he, rfl⟩
  · exact .refl a

/-- A program of the writer has failed. -/
theorem Aon.lktProgDone_failed {a : Aon} {i : Nat} {w : BitVec 512} (h : a.locket.prog = .body i w ∨ a.locket.prog = .head i w) :
    a.lktProgDone false = (a.lktRequeue i w).lktFail.lktKick.brownGiveUp.resume := by
  rcases h with h | h
  · simp [Aon.lktProgDone, h]
  · simp [Aon.lktProgDone, h]

/-- The always-on domain is the same after a change of PERI blocks. -/
theorem State.onPeri_aon (s : State) (f : Dev → Dev) : (s.onPeri f).aon = s.aon := by
  unfold State.onPeri
  split <;> rfl

/-- What PERI blocks are after a change of them. -/
theorem State.onPeri_dev (s : State) (f : Dev → Dev) : (s.onPeri f).dev = if s.periRuns then f s.dev else s.dev := by
  unfold State.onPeri
  split <;> rfl

/-- The same when a change of the always-on domain follows. -/
theorem State.onPeri_onAon_dev (s : State) (f : Dev → Dev) (g : Aon → Aon) :
    ((s.onPeri f).onAon g).dev = if s.periRuns then f s.dev else s.dev := s.onPeri_dev f

/-- Changes of the always-on domain that agree where they are made. -/
theorem State.onAon_congr {s : State} {f g : Aon → Aon} (h : f s.aon = g s.aon) : s.onAon f = s.onAon g := by
  rw [State.onAon, h]
  rfl

/-- Settles O27: each command finds the writer, the erase or the read in the state that it ends. -/
theorem locketOperations : Obligations.LocketOperations := by
  unfold Obligations.LocketOperations
  intro s req idx i w
  refine ⟨fun hp hy => ?body, fun hp => ?head, fun hp => ?failed, fun he ok => rfl, fun hp he => State.nextAon_aon ?eraseLong,
    fun hp => State.nextAon_aon ?progLong, fun hs hr hf hd => ⟨_, State.nextAon_aon (if_neg ?scanRuns), rfl, ?ready, ?por⟩,
    fun hr hst => ⟨_, (State.atReg_of_reaches hr _).trans (State.nextAon_aon (if_neg hst)), rfl, ?busy, rfl⟩,
    fun hr hn => ?readNone, fun hr hn => ?readData,
    fun ho => ⟨_, if_neg (by simp [ho]), rfl, Aon.rd_wr_same _ _ _, rfl⟩⟩
  case body =>
    show execLocketNorOpDone true s = _
    simp [execLocketNorOpDone, hp, State.onAon, Aon.lktProgDone, hy]
  case head =>
    show execLocketNorOpDone true s = _
    simp only [execLocketNorOpDone, hp, if_true]
    exact congrArg _ (State.onAon_congr (by simp [State.onPeri_aon, Aon.lktProgDone, hp]))
  case failed =>
    show execLocketNorOpDone false s = _
    simp only [execLocketNorOpDone, State.onAon, ← Aon.lktProgDone_failed hp]
    rcases hp with h | h <;> simp [h]
  case eraseLong => simp [hp]
  case progLong => simp [hp]
  case scanRuns => simp [hr, hf, hd, Option.isSome_iff_ne_none.mp hs]
  case ready =>
    refine beq_iff_eq.mpr ((((Aon.sameLocket_lktEraseKick _).trans (Aon.sameLocket_lktAdd _ _)).rd
      F.LKT_STATUS_READY (by decide) (by decide)).trans ?_)
    have hkey : F.LKT_STATUS_READY.key ≠ F.LKT_SEQ_SEQNUM.key := by decide
    exact (Aon.rd_wr_ne _ _ hkey).trans (Aon.rd_wr_same _ _ _)
  case por => exact ((Aon.sameLocket_lktEraseKick _).trans (Aon.sameLocket_lktAdd _ _)).porCount
  case busy => exact Aon.rd_wr_same _ _ _
  case readNone =>
    have hn' : ({ s.aon.locket with reading := none } : Locket).newestFirst[idx]? = none := hn
    show execLocketReadDone s = _
    simp only [execLocketReadDone, State.nextAon, State.onAon, hr, hn']
  case readData =>
    have hn' : ({ s.aon.locket with reading := none } : Locket).newestFirst[idx]? = some i := hn
    show execLocketReadDone s = _
    simp only [execLocketReadDone, State.nextAon, State.onAon, hr, hn']
    rfl

/-! ### Brown-out and thermal trip -/

/-- Marks of rails in reaction leave the order of enabling. -/
theorem Aon.foldl_inReaction_enOrder (l : List Nat) (a : Aon) :
    (l.foldl (fun (a : Aon) n => a.inReaction n false) a).enOrder = a.enOrder := by
  induction l generalizing a with
  | nil => rfl
  | cons n l ih => exact ih _

/-- The engine's HOLD leaves the order of enabling. -/
theorem Aon.holdUnlatched_enOrder (a : Aon) : a.holdUnlatched.enOrder = a.enOrder := by
  unfold Aon.holdUnlatched Aon.hold
  split
  · rfl
  · split <;> rfl

/-- Abandoning the reactions leaves the order of enabling. -/
theorem Aon.dropReactions_enOrder (a : Aon) : a.dropReactions.enOrder = a.enOrder := by
  unfold Aon.dropReactions
  generalize List.range 24 = l
  exact Aon.foldl_inReaction_enOrder l a

/-- Abandoning the records leaves the order of enabling. -/
theorem Aon.lktTrip_enOrder (a : Aon) : a.lktTrip.enOrder = a.enOrder := by
  unfold Aon.lktTrip
  dsimp only
  split <;> rfl

/-- FAULT_N is driven. -/
theorem Aon.rd_driveFaultN (a : Aon) : a.driveFaultN.rd F.SEQ_STATUS_FAULTN_DRIVE = 1 := by
  rw [Aon.driveFaultN, Aon.showFaultN, Aon.rd_wr_ne _ _ (by decide), Aon.rd_wr_same]
  rfl

/-- The brown-out sequence that a trip with code `code` begins. -/
def Aon.brownTrip (a : Aon) (code : Nat) : Aon :=
  { a with brown := { tripped := true, offs := a.enOrder.reverse, deciding := true, vinCode := code % 65536 } }

/-- The thermal trip of a sensor at a temperature. -/
def Aon.thermTrip (a : Aon) (sensor temp : Nat) : Aon :=
  { a with therm := { trip := true, lineLow := true, offs := a.enOrder.reverse, sensor := sensor, temp := temp },
           locket := { a.locket with tmax := temp % 65536, tsensor := sensor } }

/-- What a brown-out trip does with the standby supply good. -/
theorem execVinSenseTrip_of_supply {s : State} (h : s.aon.supplyOk = true) (code : Nat) : execVinSenseTrip code s =
    .next ((s.onPeri fun d => d.deactPower.kick).onAon fun _ =>
      (s.aon.holdUnlatched.dropReactions.lktTrip.driveFaultN).brownTrip code) :=
  if_neg (by simp [h])

/-- What a thermal trip does with the standby supply good, while none runs. -/
theorem execThermalTrip_of_supply {s : State} (ht : s.aon.therm.trip = false) (h : s.aon.supplyOk = true) {sensor : Nat}
    (hs : sensor < 24) (temp : Nat) : execThermalTrip sensor temp s =
    .next ((s.onPeri fun d => d.aerInternal.deactPower.kick).onAon fun _ =>
      (s.aon.holdUnlatched.dropReactions.driveFaultN).thermTrip sensor temp) :=
  if_neg (by simp [ht, h, hs])

/-- The registers of a brown-out trip. -/
theorem Aon.brownTrip_rd (a : Aon) (code : Nat) (f : Fld) : (a.brownTrip code).rd f = a.rd f := rfl

/-- The registers of a thermal trip. -/
theorem Aon.thermTrip_rd (a : Aon) (sensor temp : Nat) (f : Fld) : (a.thermTrip sensor temp).rd f = a.rd f := rfl

/-- Driving FAULT_N leaves the order of enabling. -/
theorem Aon.driveFaultN_enOrder (a : Aon) : a.driveFaultN.enOrder = a.enOrder := rfl

/-- Settles O28. -/
theorem brownoutAndThermalTrip : Obligations.BrownoutAndThermalTrip := by
  unfold Obligations.BrownoutAndThermalTrip
  intro s code sensor temp n ns
  refine ⟨fun ho => ⟨_, execVinSenseTrip_of_supply ho code, rfl, rfl, ?tripOffs, ?tripDrive, State.onPeri_onAon_dev s _ _⟩,
    fun ht hn => ?railOff, fun hb he ht => State.nextAon_aon ?restart, fun hb h => State.nextAon_aon ?noRestart,
    fun ht ho hs => ⟨_, execThermalTrip_of_supply ht ho hs temp, ?therm, ?thermDrive, State.onPeri_onAon_dev s _ _⟩,
    fun ht hr hn => ?thermOff⟩
  case tripOffs =>
    refine congrArg List.reverse (?_ : Aon.enOrder (Aon.driveFaultN _) = _)
    rw [Aon.driveFaultN_enOrder, Aon.lktTrip_enOrder, Aon.dropReactions_enOrder, Aon.holdUnlatched_enOrder]
  case tripDrive =>
    rw [State.onAon, Aon.brownTrip_rd, Aon.rd_driveFaultN]
  case therm =>
    have ho : (s.aon.holdUnlatched.dropReactions.driveFaultN).enOrder = s.aon.enOrder := by
      rw [Aon.driveFaultN_enOrder, Aon.dropReactions_enOrder, Aon.holdUnlatched_enOrder]
    rw [State.onAon, Aon.thermTrip, ho]
  case thermDrive =>
    rw [State.onAon, Aon.thermTrip_rd, Aon.rd_driveFaultN]
  case railOff =>
    show execBrownoutRailOff s = _
    simp only [execBrownoutRailOff, State.nextAon, State.onAon, ht, if_true, hn, Aon.offNext_cons]
  case restart => simp [hb, he, ht]
  case noRestart => rcases h with h | h <;> simp [hb, h]
  case thermOff =>
    show execThermtripRailOff s = _
    simp [execThermtripRailOff, State.nextAon, State.onAon, ht, hr, hn, Aon.offNext_cons]

end Sys2Proof.Machine
end

section
/-! PROOFS. Boot, configuration, the DRAM work, the standalone start and the watchdog (chapter 05): O29, O30, O32. -/

namespace Sys2Proof.Machine

/-! ### What an interrupt and a stage change leave -/

/-- A host-bound posted request changes the host interface and the record of what was sent, nothing else. -/
theorem Dev.postOut_same (d : Dev) (p : Posted) : ∃ x o, d.postOut p = { d with pci := x, out := o } := by
  unfold Dev.postOut
  split
  · exact ⟨_, _, rfl⟩
  · exact ⟨_, d.out, rfl⟩

/-- So does an interrupt. -/
theorem Dev.irq_same (d : Dev) (i : Nat) : ∃ x o, d.irq i = { d with pci := x, out := o } := by
  unfold Dev.irq Dev.raiseVec
  split
  · split
    · split
      · exact ⟨d.pci, d.out, rfl⟩
      · exact Dev.postOut_same d _
    · exact ⟨_, d.out, rfl⟩
  · exact ⟨d.pci, d.out, rfl⟩

@[simp] theorem Dev.irq_rd (d : Dev) (i : Nat) (f : Fld) : (d.irq i).rd f = d.rd f := by
  obtain ⟨x, o, h⟩ := d.irq_same i
  rw [h]
  rfl

@[simp] theorem Dev.irq_boot (d : Dev) (i : Nat) : (d.irq i).boot = d.boot := by
  obtain ⟨x, o, h⟩ := d.irq_same i
  rw [h]

@[simp] theorem Dev.irq_mem (d : Dev) (i : Nat) : (d.irq i).mem = d.mem := by
  obtain ⟨x, o, h⟩ := d.irq_same i
  rw [h]

/-- The stage after it has been set. -/
theorem Dev.rd_setStage_same (d : Dev) {n : Nat} (hn : n < 2 ^ F.BOOT_STATUS_STAGE.len) : (d.setStage n).rd F.BOOT_STATUS_STAGE = n := by
  unfold Dev.setStage
  split
  · assumption
  · rw [Dev.irq_rd, Dev.rd_wr_same, Nat.mod_eq_of_lt hn]

/-- Other fields stay. -/
theorem Dev.rd_setStage_ne (d : Dev) (n : Nat) {f : Fld} (h : f.key ≠ F.BOOT_STATUS_STAGE.key) : (d.setStage n).rd f = d.rd f := by
  unfold Dev.setStage
  split
  · rfl
  · rw [Dev.irq_rd, Dev.rd_wr_ne _ _ h]

@[simp] theorem Dev.setStage_boot (d : Dev) (n : Nat) : (d.setStage n).boot = d.boot := by
  unfold Dev.setStage
  split
  · rfl
  · rw [Dev.irq_boot, Dev.wr_boot]

@[simp] theorem Dev.setStage_mem (d : Dev) (n : Nat) : (d.setStage n).mem = d.mem := by
  unfold Dev.setStage
  split
  · rfl
  · rw [Dev.irq_mem, Dev.wr_mem]

/-! ### The copies -/

/-- What a NOR that cannot be used leaves of the locket. -/
theorem execSfdpDiscovery_unusable {s : State} {answer : Option Sfdp} (hs : s.aon.strapped = true) (hn : s.aon.sfdp = none)
    (hf : s.aon.is F.LKT_STATUS_NOR_FAIL = false) (h : (answer.filter fun f => f.erase4k && f.addr4b) = none) :
    ∃ t, execSfdpDiscovery answer s = .next t ∧ t.dev = s.dev ∧ t.aon.sfdp = none ∧ t.aon.is F.LKT_STATUS_NOR_FAIL = true := by
  rw [execSfdpDiscovery, if_neg (by simp [hs, hn, hf]), h]
  exact ⟨_, rfl, rfl, hn, beq_iff_eq.mpr (Aon.rd_wr_same _ _ _)⟩

/-- The engine that does not wait for the boot controller gets nothing handed over. -/
theorem State.handOver_of_not_boot {s : State} (h : s.aon.wait ≠ .boot) : s.handOver = s := by
  rw [State.handOver, if_pos (by simp [h])]

/-- An engine outside the preamble gets nothing handed over. -/
theorem State.handOver_of_engine {s : State} (h : s.aon.engine ≠ stPreamble) : s.handOver = s := by
  rw [State.handOver, if_pos (by simp [h])]

/-- Settles O29: each read finds the boot controller in its stage with the NOR free. -/
theorem bootReadsImage : Obligations.BootReadsImage := by
  unfold Obligations.BootReadsImage
  intro s f idx code bs img
  refine ⟨fun hs hn hf => ⟨fun he ha => ?usable, fun h => ?unusable, ?silent⟩, fun hr => ⟨fun hlt => ?again, fun hge => ?readError,
    fun hst hl => ⟨fun hc => ?header, fun hc => ?badHeader⟩, fun hst hl => ⟨fun hc => ?image, fun hc => ?badImage⟩⟩,
    fun hp hst => ⟨fun hi => ?rejected, fun hi hw => ?accepted⟩⟩
  case usable =>
    show execSfdpDiscovery _ s = _
    simp [execSfdpDiscovery, hs, hn, hf, Option.filter, he, ha]
  case unusable => exact execSfdpDiscovery_unusable hs hn hf (by rcases h with h | h <;> simp [Option.filter, h])
  case silent => exact execSfdpDiscovery_unusable hs hn hf (Option.filter_none _)
  case again =>
    refine (if_neg (by simp [hr])).trans ((if_pos hlt).trans rfl)
  case readError => exact (if_neg (by simp [hr])).trans (if_neg (Nat.not_lt.mpr hge))
  case header => exact (if_neg (by simp [hr, hst, hl])).trans (if_pos hc)
  case badHeader => exact (if_neg (by simp [hr, hst, hl])).trans (if_neg hc)
  case image => exact (if_neg (by simp [hr, hst, hl])).trans (if_pos hc)
  case badImage => exact (if_neg (by simp [hr, hst, hl])).trans (if_neg hc)
  case rejected =>
    show execBootVerifyDone s = _
    simp [execBootVerifyDone, hp, hst, hi]
  case accepted =>
    show ∃ t, execBootVerifyDone s = .next t ∧ _
    rw [execBootVerifyDone, if_neg (by simp [hp, hst])]
    simp only [hi]
    refine ⟨_, congrArg _ (State.handOver_of_not_boot hw), rfl, ?_, Dev.rd_setStage_same _ (by decide)⟩
    exact congrArg Boot.image (Dev.setStage_boot _ _)

/-! ### Configuration and the DRAM work -/

/-- Stage 7 leaves every field but the stage's. -/
theorem Dev.rd_bootDone_ne (d : Dev) {f : Fld} (h : f.key ≠ F.BOOT_STATUS_STAGE.key) : d.bootDone.rd f = d.rd f :=
  Dev.rd_setStage_ne _ _ h

@[simp] theorem Dev.bootDone_mem (d : Dev) : d.bootDone.mem = d.mem := Dev.setStage_mem _ _

/-- The end of the DRAM work leaves every field but DRAM_BUSY and the stage's. -/
theorem Dev.rd_dramEnd_ne (d : Dev) {f : Fld} (hs : f.key ≠ F.BOOT_STATUS_STAGE.key) (hb : f.key ≠ F.BOOT_STATUS_DRAM_BUSY.key) :
    d.dramEnd.rd f = d.rd f := by
  unfold Dev.dramEnd
  dsimp only
  split
  · rw [Dev.rd_bootDone_ne _ hs, Dev.rd_wr_ne _ _ hb]
  · rw [Dev.rd_wr_ne _ _ hb]

/-- The DRAM work is over. -/
theorem Dev.rd_dramEnd_busy (d : Dev) : d.dramEnd.rd F.BOOT_STATUS_DRAM_BUSY = 0 := by
  unfold Dev.dramEnd
  dsimp only
  split
  · rw [Dev.rd_bootDone_ne _ (by decide), Dev.rd_wr_same]
    rfl
  · rw [Dev.rd_wr_same]
    rfl

@[simp] theorem Dev.dramEnd_mem (d : Dev) : d.dramEnd.mem = d.mem := by
  unfold Dev.dramEnd
  dsimp only
  split
  · rw [Dev.bootDone_mem, Dev.wr_mem]
  · rw [Dev.wr_mem]

/-- Entries that a filter keeps are found. -/
theorem fget_filter_true {α : Type} (m : FMap α) (k : Nat) (p : Nat × α → Bool) (h : ∀ v, p (k, v) = true) :
    fget (m.filter p) k = fget m k := by
  induction m with
  | nil => rfl
  | cons e m ih =>
    obtain ⟨j, v⟩ := e
    unfold fget at *
    by_cases hj : k = j
    · subst hj
      simp [h v, List.lookup]
    · have hb : (k == j) = false := by simp [hj]
      by_cases hp : p (j, v) = true
      · simp [hp, List.lookup, hb, ih]
      · simp [hp, List.lookup, hb, ih]

/-- A byte outside DRAM that nothing has written reads as zero. -/
theorem Memory.dflt_above (m : Memory) {a : Nat} (h : 2 ^ 36 ≤ a) : m.dflt a = 0 := by
  unfold Memory.dflt
  split
  · exact if_neg (Nat.not_lt.mpr h)
  · rfl

/-- No entry of REG_INIT is applied where there is none. -/
theorem State.regEntries_nil {s : State} (h : s.dev.boot.image.regInit = []) (f : Nat → Bool) : s.regEntries f = s := by
  simp [State.regEntries, h]

/-- Stage 5 of a copy without a PCIE section. -/
def Dev.stage5 (d : Dev) (v i z : Nat) : Dev := ((d.setStage 5).onBoot fun b => { b with subsys := (v, i) }).wr F.PCI_BAR2_CTRL_SIZE z

/-- Stage 5 leaves the image and how its program was delivered. -/
theorem Dev.stage5_boot (d : Dev) (v i z : Nat) : (d.stage5 v i z).boot = { d.boot with subsys := (v, i) } := by
  rw [Dev.stage5, Dev.wr_boot, Dev.onBoot, Dev.setStage_boot]

/-- Stages 5 and 6 where the engine is in DONE, with the BAR2 size and the subsystem that the PCIE section or its default gives. -/
theorem execBootConfig_of_done {s : State} (hp : s.periRuns = true) (hst : s.dev.rd F.BOOT_STATUS_STAGE = 4)
    (he : s.aon.engine = stDone) {v i z : Nat} (hz : s.dev.boot.image.pcie.getD (0, 0, 8) = (v, i, z)) : execBootConfig s =
    .next (((s.onDev fun d => d.stage5 v i z).regEntries fun o => !seqLktOff o && (!aonOff o || s.dev.boot.redelivery)).onDev fun d =>
      if (d.setStage 6).dramOver then (d.setStage 6).bootDone else d.setStage 6) := by
  have hh : (if s.periRuns then s.handOver else s) = s := by rw [if_pos hp, State.handOver_of_engine (by rw [he]; decide)]
  have hr : (s.dev.stage5 v i z).boot.redelivery = s.dev.boot.redelivery := by rw [Dev.stage5_boot]
  unfold execBootConfig
  rw [hh]
  refine (if_neg (by simp [hp, hst, he])).trans ?_
  rcases hx : s.dev.boot.image.pcie with _ | ⟨v', i', z'⟩
  · obtain ⟨rfl, rfl, rfl⟩ : 0 = v ∧ 0 = i ∧ 8 = z := by simpa [hx] using hz
    simp only [State.onDev, State.nextDev, hx, ← hr]
    rfl
  · obtain ⟨rfl, rfl, rfl⟩ : v' = v ∧ i' = i ∧ z' = z := by simpa [hx] using hz
    simp only [State.onDev, State.nextDev, hx, ← hr]
    rfl

/-- Settles O30. -/
theorem bootConfiguresAndTrainsDram : Obligations.BootConfiguresAndTrainsDram := by
  unfold Obligations.BootConfiguresAndTrainsDram
  intro s x rs hp
  refine ⟨fun hst he => ?config, fun hst he hi => ?plain, fun hx ha hg => ?work, fun hx ht hok => ⟨fun hall => ?trained, fun hall => ?failed⟩,
    fun hx hi => ?init⟩
  case config =>
    rcases hx : s.dev.boot.image.pcie with _ | ⟨v, i, z⟩
    · exact execBootConfig_of_done hp hst he (by rw [hx]; rfl)
    · exact execBootConfig_of_done hp hst he (by rw [hx]; rfl)
  case plain =>
    have hb : (s.onDev fun d => d.stage5 0 0 8).dev.boot.image = {} := (congrArg Boot.image (Dev.stage5_boot s.dev 0 0 8)).trans hi
    have hd : ((s.dev.stage5 0 0 8).setStage 6).dramOver = true := by
      rw [Dev.dramOver, Dev.setStage_boot, Dev.stage5_boot, hi]
      rfl
    have h := execBootConfig_of_done hp hst he (v := 0) (i := 0) (z := 8) (by rw [hi]; rfl)
    rw [State.regEntries_nil (by rw [hb])] at h
    refine ⟨_, h, ?_, ?_, ?_⟩
    all_goals simp only [State.onDev, hd, if_true]
    · exact Dev.rd_setStage_same _ (by decide)
    · rw [Dev.rd_bootDone_ne _ (by decide), Dev.rd_setStage_ne _ _ (by decide), Dev.stage5, Dev.rd_wr_same]
      rfl
    · rw [Dev.bootDone, Dev.setStage_boot]
      rfl
  case work =>
    show ∃ t, execDramWorkStart s = .next t ∧ _
    simp only [execDramWorkStart, hx, hp, ha, hg]
    refine ⟨_, rfl, ?_, rfl, rfl, rfl⟩
    simp (disch := decide) only [State.onDev, Dev.wrs, Dev.rd_wr_ne, Dev.rd_wr_same]
    rfl
  case trained =>
    show execDramTrainingDone rs s = _
    simp only [execDramTrainingDone, hx, hp, ht, hok]
    exact if_pos hall
  case failed =>
    show execDramTrainingDone rs s = _
    simp only [execDramTrainingDone, hx, hp, ht, hok]
    exact if_neg (ne_true_of_eq_false hall)
  case init =>
    show ∃ t, execDramInitDone s = .next t ∧ _
    simp only [execDramInitDone, hx, hp, hi]
    refine ⟨_, rfl, rfl, ?_, Dev.rd_dramEnd_busy _, fun a ha hs => ?_, fun a ha => ?_⟩
    · simp (disch := decide) only [State.onDev, Dev.rd_dramEnd_ne, Dev.wrs, Dev.rd_wr_same]
      rfl
    · simp only [State.onDev, Dev.dramEnd_mem, Dev.wrs, Dev.wr_mem, Dev.onBoot, Memory.get]
      rw [fget_filter_false _ _ _ fun _ => by simpa using ha]
      simp [Memory.dflt, hs]
    · simp only [State.onDev, Dev.dramEnd_mem, Dev.wrs, Dev.wr_mem, Dev.onBoot, Memory.get]
      rw [fget_filter_true _ _ _ fun _ => by simpa using ha, Memory.dflt_above _ ha, Memory.dflt_above _ ha]

/-! ### The standalone start and the watchdog -/

/-- Settles O32. -/
theorem standaloneStartAndWatchdog : Obligations.StandaloneStartAndWatchdog := by
  unfold Obligations.StandaloneStartAndWatchdog
  intro s req st v hp
  refine ⟨fun hb hs hc h0 => ⟨fun hf => State.nextPeri_dev hp ?start, fun hf => State.nextPeri_dev hp ?startFails⟩,
    fun hs h1 hm hr hf hk => State.nextPeri_dev hp ?load, fun hr h4 => State.devReg_dev hr (if_pos h4), fun hr => State.devReg_dev hr rfl,
    fun hw hper => if_neg (by simp [hp, hw, hper])⟩
  case start => simp [hb, hs, hc, h0, hf]
  case startFails => simp [hb, hs, hc, h0, hf]
  case load => simp [hs, h1, hm, hr, hf, hk]

end Sys2Proof.Machine
end

section
/-! PROOFS. The host interface, shared SRAM, the scrubber and the key slots (chapters 06, 07): O33 to O36. -/

namespace Sys2Proof.Machine

/-! ### Configuration requests, BAR2 accesses and the link -/

/-- What a posted write through BAR2 does (R149, R154, R157). -/
def Dev.bar2Access (d : Dev) (off rid : Nat) (bs : List (Option Byte)) : Dev :=
  if d.is F.PCI_STATUS_D3 then d.send .unsupported else d.bar2Posted (d.bar2Target off) rid bs

/-- A posted write of a requester that matches no aperture. -/
theorem Dev.bar2Posted_unmatched {d : Dev} {p rid : Nat} {bs : List (Option Byte)} (hl : lastOn bs ≠ 0) (h : d.apMatch rid = []) :
    d.bar2Posted p rid bs = d.bar2Store p rid bs := by
  simp [Dev.bar2Posted, hl, h]

/-- A posted write that the lowest matching aperture holds. -/
theorem Dev.bar2Posted_held {d : Dev} {p rid k : Nat} {ks : List Nat} {bs : List (Option Byte)} (hl : lastOn bs ≠ 0)
    (h : d.apMatch rid = k :: ks) (hin : d.inAp k (spanOn p bs).1 (spanOn p bs).2 = true) : d.bar2Posted p rid bs =
    if d.bar2Takes p bs then (d.bar2Store p rid bs).apCount k (d.apSlots k p bs) else d.bar2Store p rid bs := by
  simp [Dev.bar2Posted, hl, h, hin]

/-- A posted write of a matching requester that no aperture holds. -/
theorem Dev.bar2Posted_violation {d : Dev} {p rid : Nat} {bs : List (Option Byte)} (hl : lastOn bs ≠ 0) (h : d.apMatch rid ≠ [])
    (hout : ∀ j ∈ d.apMatch rid, d.inAp j (spanOn p bs).1 (spanOn p bs).2 = false) : d.bar2Posted p rid bs =
    if ((d.pciErr 3 p rid).aerAdvisory rid).is F.PCI_P2P_CTRL_FILTER then (d.pciErr 3 p rid).aerAdvisory rid
    else ((d.pciErr 3 p rid).aerAdvisory rid).bar2Store p rid bs := by
  have hf : ((d.apMatch rid).find? fun k => d.inAp k (spanOn p bs).1 (spanOn p bs).2) = none := by
    simpa [List.find?_eq_none] using hout
  obtain ⟨k, ks, hk⟩ := List.exists_cons_of_ne_nil h
  rw [hk] at hf
  simp [Dev.bar2Posted, hl, hk, hf]

/-- Reporting an Unsupported Request leaves every field. -/
theorem Dev.aerAdvisory_rd (d : Dev) (rid : Nat) (f : Fld) : (d.aerAdvisory rid).rd f = d.rd f := by
  unfold Dev.aerAdvisory
  dsimp only
  split <;> rfl

/-- The record of a violation leaves the filter as it is set. -/
theorem Dev.is_filter_violation (d : Dev) (p rid : Nat) :
    ((d.pciErr 3 p rid).aerAdvisory rid).is F.PCI_P2P_CTRL_FILTER = d.is F.PCI_P2P_CTRL_FILTER := by
  rw [Dev.is, Dev.is, Dev.aerAdvisory_rd, Dev.pciErr_rd_ne] <;> decide

/-- The record of an error in PCI_ERR leaves what was sent. -/
theorem Dev.pciErr_out (d : Dev) (k addr rid : Nat) : (d.pciErr k addr rid).out = d.out := by
  by_cases h : d.rd F.PCI_ERR_FIRST = 0xFF
  · rw [Dev.pciErr_first h]; rfl
  · rw [Dev.pciErr_later h]; rfl

/-- Capturing an error leaves what was sent. -/
theorem Dev.logUe_out (d : Dev) (addr source ctx : Nat) : (d.logUe addr source ctx).out = d.out := by
  unfold Dev.logUe
  split <;> rfl

/-- The first error captured gives its address and its source. -/
theorem Dev.rd_logUe_first {d : Dev} (h : d.is F.MEM_ECC_STAT_UE = false) (addr source ctx : Nat) :
    (d.logUe addr source ctx).rd F.MEM_ERR_ADDR_ADDR = addr % 2 ^ 44 ∧
      (d.logUe addr source ctx).rd F.MEM_ERR_INFO_SOURCE = source % 8 := by
  rw [Dev.logUe, if_neg (ne_true_of_eq_false h)]
  simp (disch := decide) only [Dev.wrs, Dev.rd_wr_ne, Dev.rd_wr_same]
  exact ⟨rfl, rfl⟩

/-- After an error has been captured one stands. -/
theorem Dev.logUe_stands (d : Dev) (addr source ctx : Nat) : (d.logUe addr source ctx).is F.MEM_ECC_STAT_UE = true := by
  cases h : d.is F.MEM_ECC_STAT_UE
  · rw [Dev.logUe, if_neg (ne_true_of_eq_false h), Dev.is]
    simp (disch := decide) only [Dev.wrs, Dev.rd_wr_ne, Dev.rd_wr_same]
    rfl
  · rw [Dev.logUe, if_pos h, h]

/-- A BAR2 read in D3hot. -/
theorem execBar2Read_d3 {s : State} (hp : s.periRuns = true) (hd : s.dev.is F.PCI_STATUS_D3 = true) (off len rid : Nat) :
    execBar2Read off len rid s = .next (s.onDev fun d => d.send .unsupported) := by
  simp only [execBar2Read, State.nextPeri_of_runs hp, State.onDev, hd, if_true]

/-- A BAR2 read that reaches no memory answers zeros. -/
theorem execBar2Read_hole {s : State} {off len : Nat} (hp : s.periRuns = true) (hd : s.dev.is F.PCI_STATUS_D3 = false)
    (ho : s.dev.bar2Ok (s.dev.bar2Target off) len = false) (rid : Nat) : execBar2Read off len rid s =
    .next (s.onDev fun d => (d.pciErr 2 (d.bar2Target off) rid).send (.completion (List.replicate len 0) false)) :=
  State.nextPeri_dev hp ((if_neg (ne_true_of_eq_false hd)).trans (if_pos (by rw [ho]; rfl)))

/-- A BAR2 read of good memory answers its bytes. -/
theorem execBar2Read_good {s : State} {off len : Nat} (hp : s.periRuns = true) (hd : s.dev.is F.PCI_STATUS_D3 = false)
    (ho : s.dev.bar2Ok (s.dev.bar2Target off) len = true) (hb : s.dev.badGran (s.dev.bar2Target off) len = none) (rid : Nat) :
    execBar2Read off len rid s = .next (s.onDev fun d => (d.correct (d.bar2Target off) len).send (.completion
      (d.readMem (d.rd F.PCI_BAR2_CTRL_KEYSEL) (d.bar2Target off) (min len (2 ^ 36 - d.bar2Target off)) ++
        d.mem.read (d.bar2Target off + min len (2 ^ 36 - d.bar2Target off)) (len - min len (2 ^ 36 - d.bar2Target off))) false)) :=
  State.nextPeri_dev hp ((if_neg (ne_true_of_eq_false hd)).trans ((if_neg (by rw [ho]; decide)).trans (by simp only [hb])))

/-- A BAR2 read that meets a bad granule captures it and answers a poisoned completion. -/
theorem execBar2Read_poisoned {s : State} {off len g : Nat} (hp : s.periRuns = true) (hd : s.dev.is F.PCI_STATUS_D3 = false)
    (ho : s.dev.bar2Ok (s.dev.bar2Target off) len = true) (hb : s.dev.badGran (s.dev.bar2Target off) len = some g) (rid : Nat) :
    ∃ bytes, bytes.length = len ∧ execBar2Read off len rid s =
      .next (s.onDev fun d => ({ d with free := d.free + len }.logUe g 4 0).send (.completion bytes true)) :=
  ⟨(List.range len).map fun k => (Config.freeValue (s.dev.free + k)).setWidth 8, by simp,
    State.nextPeri_dev hp ((if_neg (ne_true_of_eq_false hd)).trans ((if_neg (by rw [ho]; decide)).trans (by simp only [hb])))⟩

/-- Settles O33. -/
theorem hostAccesses : Obligations.HostAccesses := by
  unfold Obligations.HostAccesses
  intro s r f k off len rid sp wd cr bs hp p write
  have hwrite (i : Instr) (hi : exec i s = s.nextPeri fun d => d.bar2Access off rid bs) : write i := by
    have hrun {t : State} {d : Dev} (hd : s.dev.is F.PCI_STATUS_D3 = false) (ht : t = { s with dev := d })
        (h : s.dev.bar2Posted p rid bs = d) : exec i s = .next t := by
      rw [hi, ht]
      exact State.nextPeri_dev hp ((if_neg (ne_true_of_eq_false hd)).trans h)
    refine ⟨fun hd => hi.trans (State.nextPeri_dev hp (if_pos hd)), fun hd => ⟨fun hl => hrun hd rfl (if_pos hl),
      fun hl hm => hrun hd rfl (Dev.bar2Posted_unmatched hl hm),
      fun ks hl hm hin => ⟨fun ht => hrun hd rfl ((Dev.bar2Posted_held hl hm hin).trans (if_pos ht)),
        fun ht => hrun hd rfl ((Dev.bar2Posted_held hl hm hin).trans (if_neg (ne_true_of_eq_false ht)))⟩,
      fun hl hm hout => hrun hd rfl ?_⟩⟩
    rw [Dev.bar2Posted_violation hl hm hout, Dev.is_filter_violation]
  refine ⟨fun hc => State.nextPeri_dev hp (if_pos hc), fun hc hr => State.nextPeri_dev hp ((if_pos hc).trans ?carried),
    fun hc => State.nextPeri_dev hp (if_neg (ne_true_of_eq_false hc)),
    fun hm hk => ⟨_, State.nextPeri_dev hp (if_neg (by simp [hm, hk])), ?size, rfl, rfl⟩,
    fun h => ?kept, fun hd => execBar2Read_d3 hp hd off len rid,
    fun hd ho hb => (execBar2Read_good hp hd ho hb rid).trans ?good, fun g hd ho hb => ?poisoned,
    fun hd ho => ⟨_, execBar2Read_hole hp hd ho rid, congrArg (· ++ _) (Dev.pciErr_out ..), (Dev.pciErr_bit_count ..).1,
      Dev.pciErr_mem ..⟩,
    hwrite _ rfl, hwrite _ rfl, fun hn ha hs hw => ⟨_, State.nextPeri_dev hp (if_pos (by rw [hn, ha]; rfl)), ?up, ?speed, ?width, rfl, rfl⟩⟩
  case kept =>
    have hc : (s.dev.pci.memEnable || 16 < k) = true := by simpa using h
    show execBar2Resize k s = _
    rw [execBar2Resize, State.nextPeri_of_runs hp, State.onDev, if_pos hc]
  case carried =>
    cases r
    case read g => exact absurd rfl (hr g)
    all_goals rfl
  case size => exact (Dev.rd_wr_same _ _ _).trans (Nat.mod_eq_of_lt (Nat.lt_of_le_of_lt hk (by decide)))
  case good => simp only [State.onDev, p]
  case poisoned =>
    obtain ⟨bytes, hlen, h⟩ := execBar2Read_poisoned hp hd ho hb rid
    exact ⟨_, bytes, h, hlen, congrArg (· ++ _) (Dev.logUe_out ..), Dev.logUe_mem .., 
      fun hu => (Dev.rd_logUe_first (d := { s.dev with free := s.dev.free + len }) hu g 4 0).1⟩
  case up => exact Dev.rd_wr_same _ _ _
  case speed =>
    refine Eq.trans ?_ (Nat.mod_eq_of_lt hs)
    simp (disch := decide) only [Dev.wrs, Dev.rd_wr_ne, Dev.rd_wr_same]
    rfl
  case width =>
    refine Eq.trans ?_ (Nat.mod_eq_of_lt hw)
    simp (disch := decide) only [Dev.wrs, Dev.rd_wr_ne, Dev.rd_wr_same]
    rfl

/-! ### Apertures, completions and credits -/

/-- No invalidation waits to be completed. -/
theorem Dev.invalEnd_of_none {d : Dev} (h : d.invals = []) : d.invalEnd = d := by
  simp only [Dev.invalEnd, h]

/-- Descriptors that wait are found in the queues alone. -/
theorem Dev.collect_congr {d e : Dev} (h : d.queues = e.queues) (p : Nat → Issued → Bool) : d.collect p = e.collect p := by
  rw [Dev.collect, Dev.collect, h]

/-- The pool with `n` more credits. -/
def Dev.withCredits (d : Dev) (n : Nat) : Dev :=
  { d with pci := { d.pci with credits := d.pci.credits + n, emptySince := if d.pci.credits + n = 0 then d.pci.emptySince else none } }

/-- Credits that return where no invalidation and no descriptor waits for them do no more than send what is stalled. -/
theorem execHostCreditsReturned_of_none {s : State} {n : Nat} {d : Dev} (hp : s.periRuns = true) (hn : 0 < n)
    (hc : (s.dev.collect fun _ i => i.endAs.isSome) = []) (hi : s.dev.invals = [])
    (hd : ((s.dev.withCredits n).wr F.PCI_STATUS_HCP_STALL 0).drainStalled (s.dev.pci.stalled.length + 1) = d)
    (hq : d.queues = s.dev.queues) (hv : d.invals = s.dev.invals) : execHostCreditsReturned s n = .next { s with dev := d } := by
  have hne : s.dev.pci.credits + n ≠ 0 := by omega
  have hend : d.invalEnd = d := Dev.invalEnd_of_none (hv.trans hi)
  have hnone : (d.collect fun _ i => i.endAs.isSome) = [] := (Dev.collect_congr hq _).trans hc
  refine State.nextPeri_dev hp ?_
  have hwr : (if (s.dev.withCredits n).pci.credits = 0 then s.dev.withCredits n else (s.dev.withCredits n).wr F.PCI_STATUS_HCP_STALL 0) =
    (s.dev.withCredits n).wr F.PCI_STATUS_HCP_STALL 0 := if_neg hne
  have hlen : ((s.dev.withCredits n).wr F.PCI_STATUS_HCP_STALL 0).pci.stalled.length = s.dev.pci.stalled.length := rfl
  unfold Dev.withCredits at hwr hd hlen
  simp only [hwr, hlen, hd, hend, hnone, List.foldl_nil]

/-- The pool with `n` more credits, and HCP_STALL cleared. -/
def Dev.creditsBack (d : Dev) (n : Nat) : Dev := (d.withCredits n).wr F.PCI_STATUS_HCP_STALL 0

/-- Nothing is sent where nothing waits. -/
theorem Dev.drainStalled_none {d : Dev} (h : d.pci.stalled = []) (k : Nat) : d.drainStalled (k + 1) = d := by
  rw [Dev.drainStalled, h]

/-- One request that waits goes out where there is a credit. -/
theorem Dev.drainStalled_one {d : Dev} {p : Posted} (h : d.pci.stalled = [p]) (hc : d.pci.credits ≠ 0) :
    d.drainStalled 2 = ({ d with pci := { d.pci with stalled := [] } } : Dev).takeCredit.send p.out := by
  rw [Dev.drainStalled, h]
  exact (if_neg hc).trans (Dev.drainStalled_none rfl 0)

/-- Settles O34. -/
theorem hostChannels : Obligations.HostChannels := by
  unfold Obligations.HostChannels
  intro s req k off w v q idx addr n bs r i p
  refine ⟨fun hk hr he => ⟨_, State.devReg_dev hr ((if_pos hk).trans (if_neg (ne_true_of_eq_false he))), ?enabled, rfl⟩,
    fun hr hlo hhi => State.devReg_dev hr (if_pos (by simp [hlo, hhi])),
    fun hc hf hl hs => ⟨State.nextCore_dev hc ?data, fun st hst => State.nextCore_dev hc ?failed⟩,
    fun hc hf hl st => State.nextCore_dev hc ?dead, fun hc hf hl hs => State.nextCore_dev hc ?timeout,
    fun hp hn hc hi => ⟨fun hs => ⟨_, execHostCreditsReturned_of_none (d := s.dev.creditsBack n) hp hn hc hi ?none rfl rfl, rfl,
        Dev.rd_wr_same _ _ _, rfl, rfl⟩,
      fun hs => ⟨_, execHostCreditsReturned_of_none hp hn hc hi (d := ({ s.dev.creditsBack n with
        pci := { (s.dev.creditsBack n).pci with stalled := [] } } : Dev).takeCredit.send p.out) ?one rfl rfl, rfl, rfl, rfl, rfl⟩⟩⟩
  case enabled =>
    refine (Dev.rd_wr_same _ _ _).trans ?_
    split <;> rfl
  case data => simp [hf, hl, hs]
  case failed => simp [hf, hl, hs, hst]
  case dead => simp [hf, hl]
  case timeout => simp [hf, hl, hs]
  case none => exact Dev.drainStalled_none (d := s.dev.creditsBack n) hs _
  case one =>
    have hne : (s.dev.creditsBack n).pci.credits ≠ 0 := by
      show s.dev.pci.credits + n ≠ 0
      omega
    rw [hs]
    exact Dev.drainStalled_one (d := s.dev.creditsBack n) hs hne

/-! ### Shared SRAM and the scrubber -/

/-- A capture leaves every field outside MEM_ECC_STAT, MEM_ERR_ADDR and MEM_ERR_INFO. -/
theorem Dev.rd_logUe_ne (d : Dev) (addr source ctx : Nat) {f : Fld} (hu : f.key ≠ F.MEM_ECC_STAT_UE.key)
    (ha : f.key ≠ F.MEM_ERR_ADDR_ADDR.key) (hs : f.key ≠ F.MEM_ERR_INFO_SOURCE.key) (hx : f.key ≠ F.MEM_ERR_INFO_CTX.key)
    (hch : f.key ≠ F.MEM_ERR_INFO_CHANNEL.key) : (d.logUe addr source ctx).rd f = d.rd f := by
  unfold Dev.logUe
  split
  · rfl
  · simp only [Dev.wrs, Dev.rd_wr_ne _ _ hu, Dev.rd_wr_ne _ _ ha, Dev.rd_wr_ne _ _ hs, Dev.rd_wr_ne _ _ hx, Dev.rd_wr_ne _ _ hch]

/-- Capturing an error leaves the granules with wrong bits. -/
theorem Dev.logUe_ecc (d : Dev) (addr source ctx : Nat) : (d.logUe addr source ctx).ecc = d.ecc := by
  unfold Dev.logUe
  split <;> rfl

/-- An INFO event is lost while the ring is not enabled. -/
theorem Dev.postInfo_of_disabled {d : Dev} (h : d.is F.CMD_EVT_CTRL_EN = false) (src code data addr : Nat) :
    d.postInfo src code data addr = ({ d with evt := { d.evt with lostBefore := true } } : Dev).sat F.CMD_EVT_STAT_LOST := by
  rw [Dev.postInfo, Dev.post, h]
  rfl

/-- A granule with an uncorrectable error, once scrubbed while the ring is not enabled. -/
theorem Dev.scrub_uncorrectable {d : Dev} (h : d.is F.CMD_EVT_CTRL_EN = false) (g : Nat) : ∃ evt free, d.scrub g .uncorrectable =
    ({ ({ d with ecc := fset d.ecc g .poison } : Dev).logUe g 5 0 with evt := evt, free := free } : Dev).sat F.CMD_EVT_STAT_LOST := by
  have hen : ((({ d with ecc := fset d.ecc g .poison } : Dev).logUe g 5 0).fresh.2).is F.CMD_EVT_CTRL_EN = false :=
    (congrArg (· == 1) (Dev.rd_logUe_ne _ g 5 0 (by decide) (by decide) (by decide) (by decide) (by decide))).trans h
  refine ⟨_, _, (if_pos (by simp)).trans ((Dev.postInfo_of_disabled hen ..).trans rfl)⟩

/-- The scrubber at work on a channel with ECC. -/
theorem execScrubRead_of_ecc {s : State} {addr : Nat} (hp : s.periRuns = true) (hper : s.dev.rd F.MEM_SCRUB_PERIOD ≠ 0)
    (he : s.dev.is F.MEM_CFG_ECC = true) (hm : addr < s.dev.memSize) (r : EccResult) :
    execScrubRead addr r s = .next (s.onDev fun d => d.scrub (addr / 64 * 64) r) := by
  refine (State.inPeri_of_runs hp _).trans (congrArg Host.Outcome.next ?_)
  exact congrArg (fun d => ({ s with dev := d } : State)) (if_neg (by simp [hper, he, Nat.not_le.mpr hm]))

/-- A scrub that has nothing to do leaves what the bit errors have done. -/
theorem execScrubRead_idle {s : State} {addr : Nat} {us : List Upset} (hp : s.periRuns = true)
    (h : ((us.foldl State.upset s).dev.rd F.MEM_SCRUB_PERIOD = 0 ∨ (us.foldl State.upset s).dev.is F.MEM_CFG_ECC = false))
    (r : EccResult) : execScrubRead addr r s us = .next (us.foldl State.upset s) := by
  refine (State.inPeri_of_runs hp _).trans (congrArg Host.Outcome.next ?_)
  refine congrArg (fun d => ({ us.foldl State.upset s with dev := d } : State)) (if_pos ?_)
  rcases h with h | h <;> simp [h]

/-- Settles O35. -/
theorem sramAndScrub : Obligations.SramAndScrub := by
  unfold Obligations.SramAndScrub
  intro s addr us
  refine ⟨fun hp ha hr => ⟨_, State.nextPeri_dev hp (if_pos (by rw [ha, hr]; rfl)), rfl, fun a hlo hhi => ?zero, fun a hout => ?kept⟩,
    fun hp hper he hm => ⟨fun hb => (execScrubRead_of_ecc hp hper he hm _).trans ?correctable, fun hev => ?uncorrectable⟩,
    fun r hp hper => execScrubRead_idle (us := []) hp (.inl hper) r, fun r hp he => execScrubRead_idle hp (.inr he) r⟩
  case zero =>
    have h : fget (s.dev.mem.clear sramBase (sramBase + sramSize)).cells a = none :=
      fget_filter_false _ _ _ fun _ => by simp [hlo, hhi]
    show Memory.get (s.dev.mem.clear sramBase (sramBase + sramSize)) a = 0
    rw [Memory.get, h]
    exact Memory.dflt_above _ (Nat.le_trans (by decide) hlo)
  case kept =>
    have h : fget (s.dev.mem.clear sramBase (sramBase + sramSize)).cells a = fget s.dev.mem.cells a :=
      fget_filter_true _ _ _ fun _ => by simp; omega
    show Memory.get (s.dev.mem.clear sramBase (sramBase + sramSize)) a = _
    rw [Memory.get, h]
    rfl
  case correctable => simp [State.onDev, Dev.scrub, hb]
  case uncorrectable =>
    obtain ⟨evt, free, h⟩ := Dev.scrub_uncorrectable hev (addr / 64 * 64)
    refine ⟨_, execScrubRead_of_ecc hp hper he hm _, ?_⟩
    simp only [State.onDev, h]
    refine ⟨?poisoned, Dev.logUe_mem .., ?stands, fun hu => ⟨?address, ?source⟩⟩
    case poisoned =>
      show fget (Dev.logUe _ _ 5 0).ecc _ = _
      rw [Dev.logUe_ecc, fget_fset_same]
    case stands =>
      rw [Dev.is, Dev.rd_sat_ne _ _ (by decide)]
      exact Dev.logUe_stands ..
    case address =>
      rw [Dev.rd_sat_ne _ _ (by decide)]
      exact (Dev.rd_logUe_first (d := { s.dev with ecc := fset s.dev.ecc (addr / 64 * 64) .poison }) hu _ 5 0).1
    case source =>
      rw [Dev.rd_sat_ne _ _ (by decide)]
      exact (Dev.rd_logUe_first (d := { s.dev with ecc := fset s.dev.ecc (addr / 64 * 64) .poison }) hu _ 5 0).2

/-! ### Key slots -/

/-- The staging registers of different words are different registers. -/
theorem keyData_key_ne {i j : Nat} (h : i ≠ j) : (F.MEM_KEY_DATA_DATA i).key ≠ (F.MEM_KEY_DATA_DATA j).key := by
  simp only [Fld.key, F.MEM_KEY_DATA_DATA]
  omega

/-- A staging register that is cleared, or was zero before, is zero. -/
theorem Dev.rd_foldl_clear_same (l : List Nat) (d : Dev) {i : Nat} (h : i ∈ l ∨ d.rd (F.MEM_KEY_DATA_DATA i) = 0) :
    (l.foldl (fun (d : Dev) j => d.wr (F.MEM_KEY_DATA_DATA j) 0) d).rd (F.MEM_KEY_DATA_DATA i) = 0 := by
  induction l generalizing d with
  | nil => simpa using h
  | cons j l ih =>
    refine ih _ ?_
    by_cases hij : i = j
    · subst hij
      exact .inr ((Dev.rd_wr_same _ _ _).trans (Nat.zero_mod _))
    · rw [Dev.rd_wr_ne _ _ (keyData_key_ne hij)]
      simpa [hij] using h

/-- Clearing staging registers leaves every other field. -/
theorem Dev.rd_foldl_clear_ne (l : List Nat) (d : Dev) {f : Fld} (h : ∀ j, f.key ≠ (F.MEM_KEY_DATA_DATA j).key) :
    (l.foldl (fun (d : Dev) j => d.wr (F.MEM_KEY_DATA_DATA j) 0) d).rd f = d.rd f := by
  induction l generalizing d with
  | nil => rfl
  | cons j l ih => exact (ih _).trans (Dev.rd_wr_ne _ _ (h j))

/-- Clearing the staging registers leaves the keys and memory. -/
theorem Dev.foldl_clear_keys_mem (l : List Nat) (d : Dev) :
    (l.foldl (fun (d : Dev) j => d.wr (F.MEM_KEY_DATA_DATA j) 0) d).keys = d.keys ∧
      (l.foldl (fun (d : Dev) j => d.wr (F.MEM_KEY_DATA_DATA j) 0) d).mem = d.mem := by
  induction l generalizing d with
  | nil => exact ⟨rfl, rfl⟩
  | cons j l ih => exact ih _

/-- Clearing the staging registers leaves every key. -/
theorem Dev.clearStage_key (d : Dev) (j : Nat) : d.clearStage.key j = d.key j := by
  unfold Dev.clearStage Dev.key
  generalize List.range 16 = l
  rw [(Dev.foldl_clear_keys_mem l d).1]

/-- It leaves memory. -/
theorem Dev.clearStage_mem (d : Dev) : d.clearStage.mem = d.mem := by
  unfold Dev.clearStage
  generalize List.range 16 = l
  exact (Dev.foldl_clear_keys_mem l d).2

/-- The key of a slot that has been set. -/
theorem Dev.key_setKey_same (d : Dev) (n : Nat) {k : KeySlot} (h : k.st = .empty → k = {}) : (d.setKey n k).key n = k := by
  unfold Dev.setKey Dev.key
  by_cases he : k.st = .empty
  · simp only [if_pos he, fget_fdel_same]
    exact (h he).symm
  · simp only [if_neg he, fget_fset_same]
    rfl

/-- The record that a key command leaves in MEM_KEY_CMD and MEM_KEY_STAT. -/
def Dev.keyRecord (d : Dev) (op slot r : Nat) : Dev := d.wrs [(F.MEM_KEY_CMD_OP, op), (F.MEM_KEY_CMD_SLOT, slot), (F.MEM_KEY_STAT_RESULT, r)]

/-- RESULT of a key command. -/
theorem Dev.rd_keyRecord_result (d : Dev) (op slot : Nat) {r : Nat} (h : r < 8) : (d.keyRecord op slot r).rd F.MEM_KEY_STAT_RESULT = r :=
  (Dev.rd_wr_same _ _ _).trans (Nat.mod_eq_of_lt h)

/-- Fields beside the command's own stay. -/
theorem Dev.rd_keyRecord_ne (d : Dev) (op slot r : Nat) {f : Fld} (ho : f.key ≠ F.MEM_KEY_CMD_OP.key) (hs : f.key ≠ F.MEM_KEY_CMD_SLOT.key)
    (hr : f.key ≠ F.MEM_KEY_STAT_RESULT.key) : (d.keyRecord op slot r).rd f = d.rd f := by
  simp only [Dev.keyRecord, Dev.wrs, Dev.rd_wr_ne _ _ ho, Dev.rd_wr_ne _ _ hs, Dev.rd_wr_ne _ _ hr]

/-- The record leaves every key and memory. -/
theorem Dev.keyRecord_key (d : Dev) (op slot r j : Nat) : (d.keyRecord op slot r).key j = d.key j := rfl
theorem Dev.keyRecord_mem (d : Dev) (op slot r : Nat) : (d.keyRecord op slot r).mem = d.mem := rfl

/-- The result codes fit their field. -/
theorem Dev.keyResult_lt (d : Dev) (op slot : Nat) : d.keyResult op slot < 8 := by
  unfold Dev.keyResult
  split
  · decide
  · split
    · decide
    · split <;> decide

/-- The staging registers are zero once cleared. -/
theorem Dev.stagedKey_clearStage (d : Dev) (op slot r : Nat) : (d.clearStage.keyRecord op slot r).stagedKey = 0 := by
  have hz (j : Nat) (hj : j ∈ List.range 16) : (d.clearStage.keyRecord op slot r).rd (F.MEM_KEY_DATA_DATA j) = 0 := by
    rw [Dev.rd_keyRecord_ne]
    · exact Dev.rd_foldl_clear_same _ _ (.inl hj)
    all_goals simp [Fld.key, F.MEM_KEY_DATA_DATA, F.MEM_KEY_CMD_OP, F.MEM_KEY_CMD_SLOT, F.MEM_KEY_STAT_RESULT]; omega
  unfold Dev.stagedKey
  refine List.sum_eq_zero fun x hx => ?_
  obtain ⟨j, hj, rfl⟩ := List.mem_map.mp hx
  rw [hz j hj, Nat.zero_mul]

/-- LOAD of a slot that allows it. -/
theorem Dev.keyCmd_load {d : Dev} {slot : Nat} (h : d.keyResult 0 slot = 0) :
    d.keyCmd 0 slot = (d.setKey slot { st := .host, key := d.stagedKey }).clearStage.keyRecord 0 slot 0 := by
  simp [Dev.keyCmd, h, Dev.keyRecord]

/-- LOAD takes the staged key and clears the staging registers. -/
theorem Dev.keyCmd_load_spec {d : Dev} {slot : Nat} (h : d.keyResult 0 slot = 0) :
    (d.keyCmd 0 slot).key slot = { st := .host, key := d.stagedKey } ∧ (d.keyCmd 0 slot).stagedKey = 0 ∧
      (d.keyCmd 0 slot).rd F.MEM_KEY_STAT_RESULT = 0 := by
  rw [Dev.keyCmd_load h, Dev.keyRecord_key, Dev.clearStage_key]
  exact ⟨Dev.key_setKey_same _ _ nofun, Dev.stagedKey_clearStage .., Dev.rd_keyRecord_result _ _ _ (by decide)⟩

/-- ZEROIZE of a slot that allows it. -/
theorem Dev.keyCmd_zeroize {d : Dev} {slot : Nat} (h : d.keyResult 1 slot = 0) :
    d.keyCmd 1 slot = (d.setKey slot {}).keyRecord 1 slot 0 := by
  simp [Dev.keyCmd, h, Dev.keyRecord]

/-- QUERY of a slot that allows it. -/
theorem Dev.keyCmd_query {d : Dev} {slot : Nat} (h : d.keyResult 2 slot = 0) :
    d.keyCmd 2 slot = (d.wr F.MEM_KEY_STAT_STATE (d.key slot).st.code).keyRecord 2 slot 0 := by
  simp [Dev.keyCmd, h, Dev.keyRecord]

/-- A key command of a slot that does not allow it. -/
theorem Dev.keyCmd_refused {d : Dev} {op slot : Nat} (h : d.keyResult op slot ≠ 0) :
    d.keyCmd op slot = (if op = 0 then d.clearStage else d).keyRecord op slot (d.keyResult op slot) := by
  simp [Dev.keyCmd, h, Dev.keyRecord]

/-- The key command that a key slot's command runs. -/
theorem State.keyCmd_next {s : State} {req : Requester} {op slot : Nat} {d : Dev} (hr : s.reaches req 0x400040 = true) (hs : slot < 256)
    (h : s.dev.keyCmd op slot = d) : s.devReg req 0x400040 (fun d => d.keyCmd op (slot % 256)) = .next { s with dev := d } :=
  State.devReg_dev hr (by rw [Nat.mod_eq_of_lt hs, h])

/-- A refused key command leaves the keys and memory and shows its reason. -/
theorem Dev.keyCmd_refused_keeps {d : Dev} {op slot : Nat} (h : d.keyResult op slot ≠ 0) : (∀ j, (d.keyCmd op slot).key j = d.key j) ∧
    (d.keyCmd op slot).rd F.MEM_KEY_STAT_RESULT = d.keyResult op slot ∧ (d.keyCmd op slot).mem = d.mem := by
  rw [Dev.keyCmd_refused h]
  refine ⟨fun j => ?_, Dev.rd_keyRecord_result _ _ _ (d.keyResult_lt op slot), ?_⟩
  · rw [Dev.keyRecord_key]
    split
    · exact d.clearStage_key j
    · rfl
  · rw [Dev.keyRecord_mem]
    split
    · exact d.clearStage_mem
    · rfl

/-- Settles O36. -/
theorem keyCommands : Obligations.KeyCommands := by
  unfold Obligations.KeyCommands
  intro s req slot hs hr
  refine ⟨fun h => ⟨_, State.keyCmd_next hr hs rfl, Dev.keyCmd_load_spec h⟩,
    fun h => ⟨_, State.keyCmd_next hr hs (Dev.keyCmd_zeroize h), Dev.key_setKey_same _ _ fun _ => rfl, Dev.rd_keyRecord_result _ _ _ (by decide)⟩,
    fun h => ⟨_, State.keyCmd_next hr hs (Dev.keyCmd_query h), rfl, ?state, Dev.rd_keyRecord_result _ _ _ (by decide)⟩,
    fun op i hi h => ?refused⟩
  case state =>
    rw [Dev.rd_keyRecord_ne _ _ _ _ (by decide) (by decide) (by decide), Dev.rd_wr_same]
    cases (s.dev.key slot).st <;> rfl
  case refused =>
    obtain ⟨hk, hres, hm⟩ := Dev.keyCmd_refused_keeps h
    simp only [List.mem_cons, Prod.mk.injEq, List.not_mem_nil, or_false] at hi
    rcases hi with ⟨rfl, rfl⟩ | ⟨rfl, rfl⟩ | ⟨rfl, rfl⟩
    all_goals exact ⟨_, State.keyCmd_next hr hs rfl, hk, hres, hm⟩

end Sys2Proof.Machine
end

section
/-! PROOFS. Contexts, pin windows and translation (chapter 08): O37 to O39. -/

namespace Sys2Proof.Machine

/-! ### What posting an event leaves -/

/-- What a write to memory, a posted request, an interrupt and an event may change: registers, the host interface, what was sent, memory
and the event ring. -/
def Dev.SameWork (d e : Dev) : Prop :=
  ∃ regs pci out mem ecc writeQ evt, e = { d with regs, pci, out, mem, ecc, writeQ, evt }

theorem Dev.SameWork.refl (d : Dev) : d.SameWork d := ⟨d.regs, d.pci, d.out, d.mem, d.ecc, d.writeQ, d.evt, rfl⟩

theorem Dev.SameWork.trans {d e f : Dev} (h : d.SameWork e) (h' : e.SameWork f) : d.SameWork f := by
  obtain ⟨_, _, _, _, _, _, _, rfl⟩ := h
  obtain ⟨_, _, _, _, _, _, _, rfl⟩ := h'
  exact ⟨_, _, _, _, _, _, _, rfl⟩

theorem Dev.SameWork.ite {d e f : Dev} {p : Prop} [Decidable p] (h : d.SameWork e) (h' : d.SameWork f) :
    d.SameWork (if p then e else f) := by
  split <;> assumption

/-- The contexts stay. -/
theorem Dev.SameWork.ctx {d e : Dev} (h : d.SameWork e) (c : Nat) : e.ctx c = d.ctx c := by
  obtain ⟨_, _, _, _, _, _, _, rfl⟩ := h
  rfl

theorem Dev.sameWork_wr (d : Dev) (f : Fld) (v : Nat) : d.SameWork (d.wr f v) := ⟨_, _, _, _, _, _, _, rfl⟩

theorem Dev.sameWork_wrs (l : List (Fld × Nat)) (d : Dev) : d.SameWork (d.wrs l) := by
  induction l generalizing d with
  | nil => exact .refl d
  | cons p l ih => exact (d.sameWork_wr p.1 p.2).trans (ih _)

theorem Dev.sameWork_irq (d : Dev) (i : Nat) : d.SameWork (d.irq i) := by
  obtain ⟨x, o, h⟩ := d.irq_same i
  exact ⟨_, x, o, _, _, _, _, h⟩

theorem Dev.sameWork_postOut (d : Dev) (p : Posted) : d.SameWork (d.postOut p) := by
  obtain ⟨x, o, h⟩ := d.postOut_same p
  exact ⟨_, x, o, _, _, _, _, h⟩

theorem Dev.sameWork_logUe (d : Dev) (addr source ctx : Nat) : d.SameWork (d.logUe addr source ctx) :=
  .ite (.refl d) (d.sameWork_wrs _)

theorem Dev.sameWork_correctPart (d : Dev) (p n : Nat) : d.SameWork (d.correctPart p n) := by
  obtain ⟨m, e, h⟩ := d.correctPart_eq p n
  rw [h]
  exact ⟨_, _, _, _, _, _, _, rfl⟩

theorem Dev.sameWork_writeMem (d : Dev) (k p : Nat) (bs : List Byte) (source ctx : Nat) :
    d.SameWork (d.writeMem k p bs source ctx) := by
  have hbefore : d.SameWork (d.beforeWrite p bs.length source ctx) := by
    have hlog : d.SameWork (match d.ecc.find? fun e => e.2.bad && touches p bs.length e.1 && !covers p bs.length e.1 with
        | some g => d.logUe g.1 source ctx
        | none => d) := by
      split
      · exact d.sameWork_logUe _ _ _
      · exact .refl d
    exact .ite ((hlog.trans (Dev.sameWork_correctPart _ _ _)).trans ⟨_, _, _, _, _, _, _, rfl⟩)
      (hlog.trans (Dev.sameWork_correctPart _ _ _))
  rw [Dev.writeMem_eq]
  exact hbefore.trans ⟨_, _, _, _, _, _, _, rfl⟩

theorem Dev.sameWork_hostWriteFor (ctx : Option Nat) (own : Option (Nat × Nat)) (fuel : Nat) (dst : HostAt) (bs : List Byte) (d : Dev) :
    d.SameWork (d.hostWriteFor dst ctx own fuel bs) := by
  induction fuel generalizing d dst bs with
  | zero => exact .refl d
  | succ fuel ih => exact .ite (.refl d) ((d.sameWork_postOut _).trans (ih _ _ _))

theorem Dev.sameWork_evStore (d : Dev) (o : Nat) (bs : List Byte) : d.SameWork (d.evStore o bs) :=
  .ite (Dev.sameWork_hostWriteFor _ _ _ _ _ d) (d.sameWork_writeMem _ _ _ _ _)

theorem Dev.sameWork_evWrite (d : Dev) (e : Ev) : d.SameWork (d.evWrite e) := by
  have hfatal {x : Dev} (h : d.SameWork x) : d.SameWork (if e.fatal then x.clrf F.CMD_EVT_CREDIT_HELD (2 ^ e.src) else x) :=
    .ite (h.trans (x.sameWork_wr _ _)) h
  have htail {x : Dev} (t : Nat) (h : d.SameWork x) : d.SameWork (if t = 4095 then
      (x.wr F.CMD_EVT_TAIL_TAIL 0).wr F.CMD_EVT_TAIL_PHASE (1 - x.rd F.CMD_EVT_TAIL_PHASE) else x.wr F.CMD_EVT_TAIL_TAIL (t + 1)) :=
    .ite ((h.trans (x.sameWork_wr _ _)).trans (Dev.sameWork_wr _ _ _)) (h.trans (x.sameWork_wr _ _))
  have hirq {x : Dev} (h : d.SameWork x) : d.SameWork (if e.fatal then (x.irq 0).irq 1 else x.irq 0) :=
    .ite ((h.trans (x.sameWork_irq 0)).trans (Dev.sameWork_irq _ 1)) (h.trans (x.sameWork_irq 0))
  have hentry : d.SameWork ((d.evStore (32 * d.rd F.CMD_EVT_TAIL_TAIL + 4) ((d.evBytes e).drop 4)).evStore
      (32 * d.rd F.CMD_EVT_TAIL_TAIL) ((d.evBytes e).take 4)) := (d.sameWork_evStore _ _).trans (Dev.sameWork_evStore _ _ _)
  exact hirq (htail _ (hfatal (hentry.trans ⟨_, _, _, _, _, _, _, rfl⟩)))

theorem Dev.sameWork_post (d : Dev) (e : Ev) : d.SameWork (d.post e) := by
  have hevt (evt) : d.SameWork { d with evt := evt } := ⟨_, _, _, _, _, _, evt, rfl⟩
  exact .ite (.ite (d.sameWork_evWrite e) ((hevt _).trans (Dev.sameWork_wr _ _ _)))
    (.ite (.refl d) (.ite (d.sameWork_evWrite e) ((hevt _).trans (Dev.sameWork_wr _ _ _))))

theorem Dev.sameWork_preSettle (d : Dev) : d.SameWork d.preSettle := .ite (d.sameWork_wr _ _) (.refl d)

/-! ### Context operations -/

/-- What an operation with code `op` starts from: the state with its OP written. -/
def Dev.ctxOp (d : Dev) (op : Nat) : Dev := d.wr F.MMU_CTX_CMD_OP op

@[simp] theorem Dev.ctxOp_ctx (d : Dev) (op c : Nat) : (d.ctxOp op).ctx c = d.ctx c := rfl
@[simp] theorem Dev.ctxOp_mem (d : Dev) (op : Nat) : (d.ctxOp op).mem = d.mem := rfl
@[simp] theorem Dev.ctxOp_active (d : Dev) (op c : Nat) : (d.ctxOp op).active c = d.active c := rfl
@[simp] theorem Dev.ctxOp_pasidTaken (d : Dev) (op c p : Nat) : (d.ctxOp op).pasidTaken c p = d.pasidTaken c p := rfl

/-- Writing OP leaves every other field. -/
theorem Dev.rd_ctxOp_ne (d : Dev) (op : Nat) {f : Fld} (h : f.key ≠ F.MMU_CTX_CMD_OP.key) : (d.ctxOp op).rd f = d.rd f :=
  Dev.rd_wr_ne _ _ h

@[simp] theorem Dev.ctxOp_rootArg (d : Dev) (op : Nat) : (d.ctxOp op).rootArg = d.rootArg := by
  rw [Dev.rootArg, Dev.rd_ctxOp_ne _ _ (by decide), Dev.rootArg]

@[simp] theorem Dev.ctxOp_freeRec (d : Dev) (op : Nat) : (d.ctxOp op).freeRec = d.freeRec := by
  rw [Dev.freeRec, Dev.rd_ctxOp_ne _ _ (by decide)]
  rfl

@[simp] theorem Dev.ctxOp_inMem (d : Dev) (op p n : Nat) : (d.ctxOp op).inMem p n = d.inMem p n := by
  have hsize : (d.ctxOp op).memSize = d.memSize := Dev.rd_ctxOp_ne _ _ (by decide)
  have hpool : (d.ctxOp op).poolBase = d.poolBase := by
    rw [Dev.poolBase, Dev.rd_ctxOp_ne _ _ (by decide)]
    rfl
  simp only [Dev.inMem, Dev.inDram, Dev.inSram, hsize, hpool]

/-- Writing OP leaves a register of an array of the command processor. -/
theorem Dev.rd_ctxOp_above (d : Dev) (op : Nat) {f : Fld} (h : 0x600000 ≤ f.off) : (d.ctxOp op).rd f = d.rd f := by
  refine Dev.rd_ctxOp_ne _ _ ?_
  simp only [Fld.key, F.MMU_CTX_CMD_OP]
  omega

@[simp] theorem Dev.ctxOp_flying (d : Dev) (op c : Nat) (p : Desc → Bool) : (d.ctxOp op).flying c p = d.flying c p := by
  have hq (q : Nat) : (d.ctxOp op).qctx q = d.qctx q := d.rd_ctxOp_above op (by simp only [F.Q_CFG_CTX]; omega)
  simp only [Dev.flying, hq]
  rfl

@[simp] theorem Dev.ctxOp_tileMarks (d : Dev) (op c : Nat) : (d.ctxOp op).tileMarks c = d.tileMarks c := by
  have hl (n : Nat) : (d.ctxOp op).leasedTo n c = d.leasedTo n c := by
    rw [Dev.leasedTo, Dev.is, d.rd_ctxOp_above op (by simp only [F.CMD_TILE_LEASED]; omega),
      d.rd_ctxOp_above op (by simp only [F.CMD_TILE_CTX]; omega)]
    rfl
  simp only [Dev.tileMarks, hl]
  rfl

@[simp] theorem Dev.ctxOp_quiet (d : Dev) (op : Nat) (m : List (Nat × Nat)) : (d.ctxOp op).quiet m = d.quiet m := rfl

/-- An operation on a selected context, which is not context 0, while none is busy. -/
theorem State.ctxGo_next {s : State} {req : Requester} {c op : Nat} {f : Dev → Nat → Dev} {d : Dev} (hr : s.reaches req 0x500014 = true)
    (hb : s.dev.is F.MMU_CTX_CMD_BUSY = false) (hs : s.dev.sel = c) (hc : c ≠ 0) (h : f (s.dev.ctxOp op) c = d) :
    s.devReg req 0x500014 (fun d => d.ctxGo op f) = .next { s with dev := d } := by
  have hsel : (s.dev.ctxOp op).sel = c := (Dev.rd_ctxOp_ne _ _ (by decide)).trans hs
  refine State.devReg_dev hr ((if_neg (ne_true_of_eq_false hb)).trans ?_)
  rw [← h]
  refine (if_neg ?_).trans (congrArg (f (s.dev.ctxOp op)) hsel)
  show ¬ (decide ((s.dev.ctxOp op).sel = 0) && op != 7) = true
  simp [hsel, hc]

/-- RESULT and BUSY at the end of an operation. -/
theorem Dev.rd_ctxEnd (d : Dev) (r : CtxRes) :
    (d.ctxEnd r).rd F.MMU_CTX_CMD_RESULT = r.code ∧ (d.ctxEnd r).rd F.MMU_CTX_CMD_BUSY = 0 := by
  rw [Dev.ctxEnd]
  simp (disch := decide) only [Dev.wrs, Dev.rd_wr_ne, Dev.rd_wr_same]
  exact ⟨by cases r <;> rfl, rfl⟩

/-- Other fields at the end of an operation. -/
theorem Dev.rd_ctxEnd_ne (d : Dev) (r : CtxRes) {f : Fld} (hr : f.key ≠ F.MMU_CTX_CMD_RESULT.key) (hb : f.key ≠ F.MMU_CTX_CMD_BUSY.key) :
    (d.ctxEnd r).rd f = d.rd f := by
  simp only [Dev.ctxEnd, Dev.wrs, Dev.rd_wr_ne _ _ hr, Dev.rd_wr_ne _ _ hb]

@[simp] theorem Dev.ctxEnd_ctx (d : Dev) (r : CtxRes) (c : Nat) : (d.ctxEnd r).ctx c = d.ctx c := rfl
@[simp] theorem Dev.ctxEnd_mem (d : Dev) (r : CtxRes) : (d.ctxEnd r).mem = d.mem := rfl

/-- What an operation that gives the context a new state leaves. -/
theorem Dev.ctxEnd_setCtx (d : Dev) (c : Nat) (x : Ctx) :
    ((d.setCtx c x).ctxEnd .ok).ctx c = x ∧ ((d.setCtx c x).ctxEnd .ok).rd F.MMU_CTX_CMD_RESULT = 0 :=
  ⟨Dev.ctx_setCtx_same .., (Dev.rd_ctxEnd _ _).1⟩

/-- Settles O37: the checks of an operation read what writing its OP leaves. -/
theorem contextOperations : Obligations.ContextOperations := by
  unfold Obligations.ContextOperations
  intro s req c n hr hb hs hc
  refine ⟨fun h0 hm hf => ⟨_, State.ctxGo_next hr hb hs hc (d := ((s.dev.ctxOp 0).setCtx c
      { state := 1, root := s.dev.rootArg, saveRec := some n }).ctxEnd .ok) ?create, (Dev.ctxEnd_setCtx ..).1,
      (Dev.ctxEnd_setCtx ..).2, (Dev.rd_ctxEnd _ _).2, rfl⟩,
    fun ha h0 hv => State.ctxGo_next hr hb hs hc ?destroy,
    fun ha hp ht => ⟨_, State.ctxGo_next hr hb hs hc (d := ((s.dev.ctxOp 2).setCtx c
      { s.dev.ctx c with pasid := some (s.dev.rd F.MMU_CTX_PASID_PASID) }).ctxEnd .ok) ?bind, Dev.ctxEnd_setCtx ..⟩,
    fun ha hp hf => ⟨_, State.ctxGo_next hr hb hs hc (d := ((s.dev.ctxOp 3).setCtx c
      { s.dev.ctx c with pasid := none }).ctxEnd .ok) ?unbind, Dev.ctxEnd_setCtx ..⟩,
    fun ha hm hf => ⟨_, State.ctxGo_next hr hb hs hc (d := ((s.dev.ctxOp 4).setCtx c
      { s.dev.ctx c with root := s.dev.rootArg }).ctxEnd .ok) ?setRoot, Dev.ctxEnd_setCtx ..⟩,
    ⟨_, State.ctxGo_next hr hb hs hc rfl, ?state, ?cause, ?root, ?bound, (Dev.rd_ctxEnd _ _).1, rfl⟩⟩
  case create => simp [Dev.ctxCreate, h0, hm, hf]
  case destroy =>
    simp [Dev.ctxDestroy, ha, h0, hv]
    rfl
  case bind =>
    have hpasid : (s.dev.ctxOp 2).rd F.MMU_CTX_PASID_PASID = s.dev.rd F.MMU_CTX_PASID_PASID := Dev.rd_ctxOp_ne _ _ (by decide)
    simp [Dev.ctxBind, ha, hp, hpasid, ht]
  case unbind => simp [Dev.ctxUnbind, ha, hp, hf]
  case setRoot => simp [Dev.ctxSetRoot, ha, hm, hf]
  case state | cause | root =>
    rw [Dev.ctxQuery, Dev.rd_ctxEnd_ne _ _ (by decide) (by decide)]
    simp (disch := decide) only [Dev.wrs, Dev.rd_wr_ne, Dev.rd_wr_same]
    rfl
  case bound =>
    rw [Dev.ctxQuery, Dev.rd_ctxEnd_ne _ _ (by decide) (by decide)]
    simp (disch := decide) only [Dev.wrs, Dev.rd_wr_same]
    show (if (s.dev.ctx c).pasid.isSome then 1 else 0) % 2 ^ 1 = _
    cases (s.dev.ctx c).pasid <;> rfl

/-! ### Pin windows -/

/-- Clearing a window, unless a PIN waits for it. -/
theorem Dev.unpinNow_spec {d : Dev} (h : d.rd F.MMU_CTX_CMD_OP ≠ 5) (c i : Nat) :
    (d.unpinNow c i).ctx c = { d.ctx c with pins := fdel (d.ctx c).pins i, unpin := none, marks := [] } ∧
      (d.unpinNow c i).rd F.MMU_CTX_CMD_RESULT = 0 := by
  rw [Dev.unpinNow]
  exact (if_neg h : (if _ = 5 then _ else _) = _) ▸ Dev.ctxEnd_setCtx ..

/-- Settles O38. -/
theorem pinWindows : Obligations.PinWindows := by
  unfold Obligations.PinWindows
  intro s req c i
  have hop : (s.dev.ctxOp 6).rd F.MMU_CTX_CMD_OP = 6 := Dev.rd_wr_same _ _ _
  have hidx (op : Nat) : (s.dev.ctxOp op).rd F.MMU_PIN_IDX_IDX = s.dev.rd F.MMU_PIN_IDX_IDX := Dev.rd_ctxOp_ne _ _ (by decide)
  refine ⟨fun hr hb hs hc ha hi => ⟨fun hl0 hl hva hfree => State.ctxGo_next hr hb hs hc ?pin,
    fun hfree => ⟨_, State.ctxGo_next hr hb hs hc (d := (s.dev.ctxOp 6).ctxEnd .ok) ?none, (Dev.rd_ctxEnd _ _).1, rfl⟩,
    fun hbusy hq => ⟨_, State.ctxGo_next hr hb hs hc (d := (s.dev.ctxOp 6).unpinNow c i) ?now, Dev.unpinNow_spec (by rw [hop]; decide) c i⟩,
    fun hbusy hq => ⟨_, State.ctxGo_next hr hb hs hc (d := ((s.dev.ctxOp 6).setCtx c
      { s.dev.ctx c with unpin := some i, marks := s.dev.tileMarks c }).wr F.MMU_CTX_CMD_BUSY 1) ?later, Dev.ctx_setCtx_same ..,
      Dev.rd_wr_same ..⟩⟩,
    fun hc hu hq hop => ⟨_, State.nextCore_dev hc (if_pos (by simp [hu, hq])), (Dev.unpinNow_spec hop c i).2, (Dev.unpinNow_spec hop c i).1⟩⟩
  case pin =>
    have hlen : (s.dev.ctxOp 5).rd F.MMU_PIN_LEN_LEN = s.dev.rd F.MMU_PIN_LEN_LEN := Dev.rd_ctxOp_ne _ _ (by decide)
    have hstart : (s.dev.ctxOp 5).rd F.MMU_PIN_VA_VA = s.dev.rd F.MMU_PIN_VA_VA := Dev.rd_ctxOp_ne _ _ (by decide)
    simp [Dev.ctxPin, ha, hidx, hi, hlen, hstart, hfree]
    exact if_neg (by omega)
  case none => simp [Dev.ctxUnpin, ha, hidx, hi, hfree]
  case now => simp [Dev.ctxUnpin, Dev.unpinAsk, ha, hidx, hi, Option.isSome_iff_ne_none.mpr hbusy, hq]
  case later => simp [Dev.ctxUnpin, Dev.unpinAsk, ha, hidx, hi, Option.isSome_iff_ne_none.mpr hbusy, hq]

/-! ### The translation of movers -/

/-- Disabling the queues of a context leaves the contexts. -/
theorem Dev.foldl_disable_ctxs (p : Dev → Nat → Bool) (l : List Nat) (d : Dev) : (l.foldl (fun (d : Dev) q =>
    if p d q then (d.wrs [(F.Q_STATUS_STATE q, 0), (F.Q_CFG_EN q, 0)]).setQueue q {} else d) d).ctxs = d.ctxs := by
  induction l generalizing d with
  | nil => rfl
  | cons q l ih =>
    refine (ih _).trans (?_ : Dev.ctxs (if p d q then _ else _) = _)
    split <;> rfl

/-- A context that enters FREE is not being revoked. -/
theorem Dev.freeCtx_revoking (d : Dev) (c : Nat) : ((d.freeCtx c).ctx c).revoking = false := by
  have h : (d.freeCtx c).ctxs = (d.setCtx c { energy := (d.ctx c).energy, frac := (d.ctx c).frac }).ctxs := by
    unfold Dev.freeCtx
    generalize List.range 64 = l
    exact Dev.foldl_disable_ctxs (fun d q => d.qctx q == c && d.qstate q == 3) l _
  rw [Dev.ctx, h, ← Dev.ctx, Dev.ctx_setCtx_same]

/-- The end of a revocation: whether a DESTROY waited for it or not, the context is no longer being revoked. -/
theorem Dev.revoking_at_end (d : Dev) (c : Nat) (x : Ctx) (e : Ev) :
    ((if x.destroying then (((d.setCtx c { x with revoking := false, destroying := false }).post e).freeCtx c).ctxEnd .ok
      else (d.setCtx c { x with revoking := false, destroying := false }).post e).preSettle.ctx c).revoking = false := by
  rw [(Dev.sameWork_preSettle _).ctx c]
  split
  · rw [Dev.ctxEnd_ctx, Dev.freeCtx_revoking]
  · rw [(Dev.sameWork_post _ _).ctx c, Dev.ctx_setCtx_same]

/-- Settles O39. -/
theorem moverTranslation : Obligations.MoverTranslation := by
  unfold Obligations.MoverTranslation
  intro s q idx va pa z k c w i p v x who hc
  refine ⟨fun hi hm hin hva => ⟨fun ho => State.nextCore_dev hc ?walk, fun ho => State.nextCore_dev hc ?prefetch⟩,
    fun hx r w u => State.nextCore_dev hc ?ats, fun hk hl code => State.nextCore_dev hc ?dead,
    fun hk hl => ⟨fun code hcode => State.nextCore_dev hc ?answer, State.nextCore_dev hc ?failure⟩,
    fun hk hl ho => State.nextCore_dev hc ?timeout, fun ps hv => State.nextCore_dev hc ?invalStart,
    fun ps vs hv => State.nextCore_dev hc ?invalWaits, fun vs hv hs hd => State.nextCore_dev hc ?drained,
    fun hr => ⟨_, State.nextCore_dev hc (if_neg (by simp [hr])), ?revoked⟩⟩
  case walk | prefetch =>
    simp [hi, hm, hin, ho]
    exact fun h => absurd hva (Nat.not_lt.mpr h)
  case ats => simp [hx]
  case dead => simp [hk, hl]
  case answer => simp [hk, hl, hcode]
  case failure => simp [hk, hl]
  case timeout =>
    simp only [hk, hl]
    cases hown : p.own with
    | advise a n => exact absurd hown (ho a n)
    | desc n => rfl
    | ring w => rfl
  case invalStart => simp [hv]
  case invalWaits => simp [hv]
  case drained => simp [hv, hs, hd]
  case revoked => exact Dev.revoking_at_end _ c _ _

end Sys2Proof.Machine
end

section
/-! PROOFS. Pre-emption, events and the registers of queues (chapters 09 and 10): O40 to O43. -/

namespace Sys2Proof.Machine

/-! ### CMD_PRE_CMD -/

/-- What an operation of CMD_PRE_CMD with code `op` starts from: the state with its OP written. -/
def Dev.preOp (d : Dev) (op : Nat) : Dev := d.wr F.CMD_PRE_CMD_OP op

@[simp] theorem Dev.preOp_ctx (d : Dev) (op c : Nat) : (d.preOp op).ctx c = d.ctx c := rfl
@[simp] theorem Dev.preOp_active (d : Dev) (op c : Nat) : (d.preOp op).active c = d.active c := rfl
@[simp] theorem Dev.preOp_queue (d : Dev) (op q : Nat) : (d.preOp op).queue q = d.queue q := rfl
@[simp] theorem Dev.preOp_queues (d : Dev) (op : Nat) : (d.preOp op).queues = d.queues := rfl
@[simp] theorem Dev.preOp_preQ (d : Dev) (op : Nat) : (d.preOp op).preQ = d.preQ := rfl
@[simp] theorem Dev.preOp_unpre (d : Dev) (op q : Nat) : (d.preOp op).unpre q = d.unpre q := rfl

/-- Writing OP leaves every other field. -/
theorem Dev.rd_preOp_ne (d : Dev) (op : Nat) {f : Fld} (h : f.key ≠ F.CMD_PRE_CMD_OP.key) : (d.preOp op).rd f = d.rd f :=
  Dev.rd_wr_ne _ _ h

@[simp] theorem Dev.preOp_qctx (d : Dev) (op q : Nat) : (d.preOp op).qctx q = d.qctx q :=
  Dev.rd_preOp_ne _ _ (by simp only [Fld.key, F.Q_CFG_CTX, F.CMD_PRE_CMD_OP]; omega)

@[simp] theorem Dev.preOp_qstate (d : Dev) (op q : Nat) : (d.preOp op).qstate q = d.qstate q :=
  Dev.rd_preOp_ne _ _ (by simp only [Fld.key, F.Q_STATUS_STATE, F.CMD_PRE_CMD_OP]; omega)

@[simp] theorem Dev.preOp_queuesOf (d : Dev) (op c : Nat) : (d.preOp op).queuesOf c = d.queuesOf c := by simp [Dev.queuesOf]

@[simp] theorem Dev.preOp_pstate (d : Dev) (op c : Nat) : (d.preOp op).pstate c = d.pstate c := by simp [Dev.pstate]

@[simp] theorem Dev.preOp_badSpill (d : Dev) (op c base key : Nat) : (d.preOp op).badSpill c base key = d.badSpill c base key := by
  have hsize : (d.preOp op).memSize = d.memSize := Dev.rd_preOp_ne _ _ (by decide)
  simp only [Dev.badSpill, Dev.inDram, hsize]
  rfl

/-- An operation of CMD_PRE_CMD on the selected context, while none is busy. -/
theorem State.preGo_next {s : State} {req : Requester} {c op : Nat} {f : Dev → Nat → Dev × Nat} {r : Dev × Nat}
    (hr : s.reaches req 0x608058 = true) (hb : s.dev.is F.CMD_PRE_CMD_BUSY = false) (hs : s.dev.rd F.CMD_PRE_SEL_CTX = c)
    (h : f (s.dev.preOp op) c = r) :
    s.devReg req 0x608058 (fun d => d.preGo op f) = .next { s with dev := r.1.preEnd op r.2 } := by
  subst hs h
  exact State.devReg_dev hr (if_neg (ne_true_of_eq_false hb))

/-- RESULT at the end of an operation that succeeds. -/
theorem Dev.rd_preEnd_ok (d : Dev) (op : Nat) : (d.preEnd op 0).rd F.CMD_PRE_CMD_RESULT = 0 := by
  rw [Dev.preEnd, Dev.rd_wr_ne _ _ (by decide), Dev.rd_wr_same]
  rfl

/-- Other fields at the end of an operation. -/
theorem Dev.rd_preEnd_ne (d : Dev) (op res : Nat) {f : Fld} (hr : f.key ≠ F.CMD_PRE_CMD_RESULT.key)
    (hb : f.key ≠ F.CMD_PRE_CMD_BUSY.key) : (d.preEnd op res).rd f = d.rd f := by
  rw [Dev.preEnd, Dev.rd_wr_ne _ _ hb, Dev.rd_wr_ne _ _ hr]

@[simp] theorem Dev.preEnd_ctx (d : Dev) (op res c : Nat) : (d.preEnd op res).ctx c = d.ctx c := rfl
@[simp] theorem Dev.preEnd_preQ (d : Dev) (op res : Nat) : (d.preEnd op res).preQ = d.preQ := rfl

/-! ### The pre-emptions that are due -/

/-- With GRACE 0 no waiting DISPATCH pre-empts (R220). -/
theorem Dev.served_of_noGrace {d : Dev} (h : d.rd F.CMD_PRE_CTRL_GRACE = 0) : d.served = none := by
  have hw : (d.queues.map (·.1)).filter d.wouldPre = [] := List.filter_eq_nil_iff.mpr fun q _ => by simp [Dev.wouldPre, h]
  rw [Dev.served, hw]
  rfl

/-- Nothing begins while nobody asks and GRACE is 0. -/
theorem Dev.preNext_idle {d : Dev} (hq : d.preQ = []) (hg : d.rd F.CMD_PRE_CTRL_GRACE = 0) (n : Nat) : d.preNext n = d := by
  cases n with
  | zero => rfl
  | succ n =>
    have hsame : { d with preQ := [] } = d := by rw [← hq]
    simp only [Dev.preNext, hq, List.filter_nil, List.find?_nil, hsame, Dev.served_of_noGrace hg, ite_self]

/-- Nothing begins while a pre-emption is in progress. -/
theorem Dev.preNext_active {d : Dev} (h : d.preActive = true) (n : Nat) : d.preNext n = d := by
  cases n with
  | zero => rfl
  | succ n => exact if_pos h

/-- The queues of context `c` that PREEMPT adds to those that wait (R220). -/
def Dev.preAsks (d : Dev) (c : Nat) : List Nat :=
  (d.liveQueues c).filter fun q => ((d.queue q).pre == PrePhase.running || (d.queue q).pre == PrePhase.restoring) && !d.preQ.contains q

/-- Context `c` on HOLD, with the queues `qs` waiting to be pre-empted. -/
def Dev.holdCtx (d : Dev) (c : Nat) (qs : List Nat) : Dev := { d.setCtx c { d.ctx c with hold := true } with preQ := qs }

/-- PREEMPT of a context that may be pre-empted: its context is held, and its queues ask. -/
theorem Dev.preemptCtx_of_spill {d : Dev} {c : Nat} (hc : c ≠ 0) (ha : d.active c = true) (hs : (d.ctx c).spill ≠ none) :
    d.preemptCtx c = ((d.holdCtx c (d.preQ ++ d.preAsks c)).preNext 130, 0) := by
  have hs' : ¬ (d.ctx c).spill.isNone = true := fun h => hs (Option.isNone_iff_eq_none.mp h)
  exact (if_neg hc).trans ((if_neg (by simp [ha])).trans (if_neg hs'))

/-- Where no queue asks and none waits, PREEMPT only holds its context. -/
theorem Dev.preemptCtx_of_none {d : Dev} {c : Nat} (hc : c ≠ 0) (ha : d.active c = true) (hs : (d.ctx c).spill ≠ none)
    (hl : d.liveQueues c = []) (hq : d.preQ = []) (hg : d.rd F.CMD_PRE_CTRL_GRACE = 0) :
    d.preemptCtx c = (d.holdCtx c [], 0) := by
  have hasks : d.preQ ++ d.preAsks c = [] := by rw [hq, Dev.preAsks, hl]; rfl
  rw [Dev.preemptCtx_of_spill hc ha hs, hasks]
  exact congrArg (·, 0) (Dev.preNext_idle (d := d.holdCtx c []) rfl hg 130)

/-- While another pre-emption is in progress, the one running queue of the context waits for its turn. -/
theorem Dev.preemptCtx_of_active {d : Dev} {c q : Nat} (hc : c ≠ 0) (ha : d.active c = true) (hs : (d.ctx c).spill ≠ none)
    (hl : d.liveQueues c = [q]) (hrun : (d.queue q).pre = .running) (hq : d.preQ = []) (hact : d.preActive = true) :
    d.preemptCtx c = (d.holdCtx c [q], 0) := by
  have hasks : d.preQ ++ d.preAsks c = [q] := by simp [hq, Dev.preAsks, hl, hrun]
  rw [Dev.preemptCtx_of_spill hc ha hs, hasks]
  exact congrArg (·, 0) (Dev.preNext_active (d := d.holdCtx c [q]) hact 130)

/-- Settles O40. -/
theorem preemptionCommands : Obligations.PreemptionCommands := by
  unfold Obligations.PreemptionCommands
  intro s req c hr hb hs hc ha
  have hlive : (s.dev.preOp 1).liveQueues c = s.dev.liveQueues c := by simp [Dev.liveQueues]
  refine ⟨fun hsp hl hq hg => ⟨_, State.preGo_next hr hb hs
      (Dev.preemptCtx_of_none hc ha hsp (hlive.trans hl) hq ((Dev.rd_preOp_ne _ _ (by decide)).trans hg)),
      congrArg Ctx.hold (Dev.ctx_setCtx_same ..), Dev.rd_preEnd_ok ..⟩,
    fun q hsp hl hrun hq hact => ⟨_, State.preGo_next hr hb hs
      (Dev.preemptCtx_of_active hc ha hsp (hlive.trans hl) hrun hq hact), rfl,
      congrArg Ctx.hold (Dev.ctx_setCtx_same ..), Dev.rd_preEnd_ok ..⟩,
    ⟨_, State.preGo_next hr hb hs (r := ((s.dev.preOp 2).setCtx c { s.dev.ctx c with hold := false }, 0)) ?resume,
      Dev.ctx_setCtx_same .., Dev.rd_preEnd_ok ..⟩,
    State.preGo_next hr hb hs (r := ((s.dev.preOp 3).kill { c := c, cause := 0x12, src := 0 }, 0)) ?kill,
    fun hbad => ⟨_, State.preGo_next hr hb hs (r := ((s.dev.preOp 0).setCtx c { s.dev.ctx c with
      spill := some (s.dev.rd F.CMD_PRE_SPILL_BASE * 65536, s.dev.rd F.CMD_PRE_SPILL_KEY) }, 0)) ?setSpill, Dev.rd_preEnd_ok ..,
      congrArg Ctx.spill (Dev.ctx_setCtx_same ..)⟩,
    fun huse => ⟨_, State.preGo_next hr hb hs (r := ((s.dev.preOp 5).setCtx c { s.dev.ctx c with spill := none }, 0)) ?clear,
      congrArg Ctx.spill (Dev.ctx_setCtx_same ..), Dev.rd_preEnd_ok ..⟩,
    ⟨_, State.preGo_next hr hb hs (r := (s.dev.preOp 4).preQuery c) rfl, ?pstate, ?count, rfl⟩⟩
  case resume => exact if_neg (by simp [ha])
  case kill => exact (if_neg hc).trans (if_neg (by simp [ha]))
  case setSpill =>
    have hbase : (s.dev.preOp 0).rd F.CMD_PRE_SPILL_BASE = s.dev.rd F.CMD_PRE_SPILL_BASE := Dev.rd_preOp_ne _ _ (by decide)
    have hkey : (s.dev.preOp 0).rd F.CMD_PRE_SPILL_KEY = s.dev.rd F.CMD_PRE_SPILL_KEY := Dev.rd_preOp_ne _ _ (by decide)
    simp [Dev.setSpillCtx, ha, hbase, hkey, hbad]
  case clear =>
    simp only [Dev.clearSpillCtx, Dev.preOp_active, ha, Dev.preOp_queuesOf, Dev.preOp_unpre, huse]
    rfl
  case pstate =>
    have hle : s.dev.pstate c < 4 := by
      unfold Dev.pstate
      dsimp only
      repeat' split
      all_goals omega
    rw [Dev.rd_preEnd_ne _ _ _ (by decide) (by decide), Dev.preQuery]
    simp (disch := decide) only [Dev.wrs, Dev.rd_wr_ne, Dev.rd_wr_same, Dev.preOp_pstate]
    exact Nat.mod_eq_of_lt hle
  case count =>
    rw [Dev.rd_preEnd_ne _ _ _ (by decide) (by decide), Dev.preQuery]
    simp (disch := decide) only [Dev.wrs, Dev.rd_wr_same]
    rfl

/-! ### Save and restore -/

/-- Queues whose list names queue 0 twice: the entry that a look-up finds is being stopped; the other, which no look-up finds, has issued a
DMA before the fence of queue 1 that waits for every queue of its context. -/
def twiceListed : FMap Queue :=
  [(0, { pre := .stop }), (0, { issued := [{ idx := 0, d := 1, seq := 0 }] }),
   (1, { issued := [{ idx := 0, d := BitVec.ofNat _ (0x103 + 2 ^ 64), seq := 1 }] })]

/-- Context 0 with those queues enabled, and every domain running. -/
def twiceListedState : State :=
  { aon := ({} : Aon).wrs [(F.SEQ_RAIL_STAT_ARMED 0, 1), (F.SEQ_RAIL_STAT_ARMED 6, 1)],
    dev := { ({} : Dev).wrs [(F.Q_STATUS_STATE 0, 1), (F.Q_STATUS_STATE 1, 1)] with
      sramReady := true, ctxs := [(0, { state := 1 })], queues := twiceListed } }

/-- The phase of queue 0 after a command. -/
def phaseAfter (r : Res) : PrePhase :=
  match r with
  | .next t => (t.dev.queue 0).pre
  | _ => .stop

/-- Refutes O41: nothing keeps the list of queues free of a second entry of a queue. PREEMPT_STOP_DONE writes the queue's entry and so drops
the second one; the fence that waited for its DMA completes, its record meets a ring that no table maps, and the kill that follows ends the
pre-emption. -/
theorem not_saveAndRestore : ¬ Obligations.SaveAndRestore := by
  unfold Obligations.SaveAndRestore
  intro h
  obtain ⟨-, hstop, -⟩ := h twiceListedState 0 0 0 (0, 0) (by decide +kernel)
  obtain ⟨t, ht, hsave⟩ := hstop (by decide +kernel) (by decide +kernel) (by decide +kernel) (by decide +kernel) (by decide +kernel)
  have hphase : phaseAfter (exec (.preemptStopDone 0) twiceListedState) = .running := by decide +kernel
  rw [ht] at hphase
  exact absurd (hphase.symm.trans hsave) (by decide)

/-! ### Event ring and save pool -/

/-- With nothing merged there is no FATAL_MERGED entry to write. -/
theorem Dev.evMergedAll_of_none {d : Dev} (h : d.evt.merged = []) : d.evMergedAll = d := by
  unfold Dev.evMergedAll
  generalize List.range 45 = l
  induction l with
  | nil => rfl
  | cons k l ih =>
    have hk : d.evMerged k = d := by rw [Dev.evMerged, h]; rfl
    rw [List.foldl_cons, hk, ih]

/-- The entries that a write of HEAD passes (R231). -/
def Dev.headPasses (d : Dev) (h : Nat) : Nat := (h % 4096 + 4096 - d.rd F.CMD_EVT_HEAD_HEAD) % 4096

/-- A write of HEAD that passes no more than what is unread, with nothing merged. -/
theorem Dev.evHead_of_le {d : Dev} {h : Nat} (hle : d.headPasses h ≤ d.evt.unread) (hm : d.evt.merged = []) :
    (d.evHead h).rd F.CMD_EVT_HEAD_HEAD = h % 4096 ∧ (d.evHead h).evt.unread = d.evt.unread - d.headPasses h := by
  have hnot : ¬ d.evt.unread < (h % 4096 + 4096 - d.rd F.CMD_EVT_HEAD_HEAD) % 4096 := Nat.not_lt.mpr hle
  rw [Dev.evHead]
  dsimp only
  rw [if_neg hnot, Dev.evMergedAll_of_none]
  · refine ⟨?_, rfl⟩
    rw [Dev.orf, Dev.rd_wr_ne _ _ (by decide), Dev.rd_wr_same]
    rfl
  · exact hm

/-- Settles O42. -/
theorem eventRing : Obligations.EventRing := by
  unfold Obligations.EventRing
  intro s req v h size
  refine ⟨fun hr => State.devReg_dev hr rfl, fun hr => ⟨fun hlt => State.devReg_dev hr (if_pos hlt),
      fun hle hm => ⟨_, State.devReg_dev hr rfl, (Dev.evHead_of_le hle hm).1, (Dev.evHead_of_le hle hm).2, rfl⟩⟩,
    fun hr h1 h16 hu hen => State.devReg_dev hr ?pool⟩
  case pool =>
    have hmod : size % 32 = size := Nat.mod_eq_of_lt (by omega)
    have h0 : size ≠ 0 := by omega
    have hmax : ¬ 16 < size := by omega
    show s.dev.poolWrite (size % 32) = _
    rw [hmod, Dev.poolWrite]
    simp [h0, hmax, hu, hen]

/-! ### Queue and semaphore registers -/

/-- A write of TAIL within the ring, by a requester that may write it (R236). -/
theorem Dev.doorbell_of_lt {d : Dev} {req : Requester} {q v : Nat} (ho : d.qProtected req q = false)
    (hv : v < 2 ^ d.rd (F.Q_CFG_LOG2 q)) : ∃ x, d.doorbell req q v = (d.setQueue q x).wr (F.Q_TAIL_TAIL q) v :=
  ⟨_, (if_neg (ne_true_of_eq_false ho)).trans (if_neg (Nat.not_le.mpr hv))⟩

/-- Settles O43. -/
theorem queueRegisters : Obligations.QueueRegisters := by
  unfold Obligations.QueueRegisters
  intro s req q sem v es hq hsem hown hsown
  have hown' : ¬ s.dev.qProtected req q = true := ne_true_of_eq_false hown
  refine ⟨fun hr => ⟨fun hlt hv => ?bell, fun hle hv => State.devReg_dev hr ?outside⟩,
    fun hr => ⟨fun h0 => State.devReg_dev hr ?enable, fun h12 => State.devReg_dev hr ?disable, fun h2 => State.devReg_dev hr ?resume⟩,
    fun hr => State.devReg_dev hr ?semVal,
    fun hr hen => ⟨_, State.devReg_dev hr (d := s.dev.wrs [(F.SEM_CFG_EN sem, bits v 0 1), (F.SEM_CFG_SHARE sem, bits v 1 1),
      (F.SEM_CFG_CTX sem, bits v 16 12)]) ?semCfg, ?semFields⟩,
    fun hc h1 hu hp => State.nextCore_dev hc (if_pos (by simp [h1, hu, hp]))⟩
  case bell =>
    obtain ⟨x, hx⟩ := Dev.doorbell_of_lt hown hlt
    refine ⟨_, State.devReg_dev hr ((if_pos hq).trans ((congrArg _ (Nat.mod_eq_of_lt hv)).trans hx)),
      (Dev.rd_wr_same ..).trans (Nat.mod_eq_of_lt hv), rfl, rfl, fun j hj => Dev.queue_setQueue_ne _ _ hj, fun f hf => Dev.rd_wr_ne _ _ hf⟩
  case outside =>
    exact (if_pos hq).trans ((congrArg _ (Nat.mod_eq_of_lt hv)).trans ((if_neg hown').trans (if_pos hle)))
  case enable => simp [hq, h0, Dev.cfgWrite, hown]
  case disable =>
    have hne : s.dev.qstate q ≠ 0 := by omega
    simp [hq, hne, Dev.cfgWrite, hown, h12, bits]
  case resume => simp [hq, h2, Dev.cfgWrite, hown, bits]
  case semVal => exact (if_pos hsem).trans (if_neg (ne_true_of_eq_false hsown))
  case semCfg => exact (if_pos hsem).trans ((if_neg (ne_true_of_eq_false hsown)).trans (if_neg (ne_true_of_eq_false hen)))
  case semFields =>
    have hbits (lo n : Nat) : bits v lo n % 2 ^ n = bits v lo n := Nat.mod_eq_of_lt (Nat.mod_lt _ (Nat.two_pow_pos n))
    have hkey (i : Nat) : (F.SEM_CFG_SHARE i).key ≠ (F.SEM_CFG_CTX i).key ∧ (F.SEM_CFG_EN i).key ≠ (F.SEM_CFG_CTX i).key ∧
        (F.SEM_CFG_EN i).key ≠ (F.SEM_CFG_SHARE i).key := by
      simp only [Fld.key, F.SEM_CFG_SHARE, F.SEM_CFG_CTX, F.SEM_CFG_EN]
      omega
    obtain ⟨hsc, hec, hes⟩ := hkey sem
    simp only [Dev.wrs, Dev.rd_wr_ne _ _ hsc, Dev.rd_wr_ne _ _ hec, Dev.rd_wr_ne _ _ hes, Dev.rd_wr_same]
    exact ⟨hbits 0 1, hbits 1 1, hbits 16 12⟩

end Sys2Proof.Machine
end

section
/-! PROOFS. Descriptors and position commands (chapters 08, 10, 16 and 17): O44, O46 and O47. -/

namespace Sys2Proof.Machine

/-! ### Descriptors at the head of a queue -/

/-- The next state of the command of a head descriptor that nothing keeps from issuing. -/
theorem State.goHead_next {s : State} {q op : Nat} {x : Desc} {f : Dev → Desc → Dev} {d : Dev} (h : s.headAt q op x = true)
    (hd : f s.dev x = d) : (s.nextCore fun d => d.goHead q op f) = .next { s with dev := d } :=
  hd ▸ State.nextCore_goHead_of_headAt h f

/-- The next state of a DISPATCH command whose mode `p` admits. -/
theorem State.dispatchHead_next {s : State} {q : Nat} {x : Desc} {p : Nat → Bool} (h : s.headAt q 2 x = true) (hp : p (dMode x) = true) :
    s.dev.dispatchHead q p = s.dev.dispatch q x := by
  obtain ⟨-, -, -, hop, -, hst, -⟩ := (State.headAt_iff s q 2 x).mp h
  have hstatus : dispatchStatus x = 0 := by
    rw [Dev.headStatus, hop] at hst
    exact hst
  rw [Dev.dispatchHead, Dev.onHead_of_headAt h]
  simp [hp, hstatus]

/-- No RUN of a queue waits for its tiles while its head descriptor can issue (R241). -/
theorem Dev.tryStart_of_headAt {s : State} {q op : Nat} {x : Desc} (h : s.headAt q op x = true) : s.dev.tryStart q = s.dev := by
  obtain ⟨-, -, -, -, hblock, -, -⟩ := (State.headAt_iff s q op x).mp h
  have hfree : s.dev.blocked q = false := by
    by_contra hb
    rw [Dev.issueBlock, if_pos (by simp [eq_true_of_ne_false hb])] at hblock
    exact absurd hblock (by decide)
  have hnone : ((s.dev.queue q).issued.find? fun i => dOp i.d == 2 && i.wait) = none := by
    rw [List.find?_eq_none]
    rw [Dev.blocked, List.any_eq_false] at hfree
    intro i hi hw
    exact hfree i hi (by rw [hw]; simp)
  rw [Dev.tryStart, hnone]

/-- The POWER_HINT of a tag (R371). -/
theorem State.powerHint_next {s : State} {q : Nat} {x : Desc} {t : Tag} (h : s.headAt q 0x30 x = true)
    (ht : (if dfld x 12 0 1 = 1 then { s.dev.tag (dTag x) with hint := 0, hinted := false, overridden := false, misses := 0 }
      else if (s.dev.tag (dTag x)).overridden then s.dev.tag (dTag x)
      else { s.dev.tag (dTag x) with hint := dfld x 8 0 32, hinted := true, misses := 0 }) = t) :
    exec (.powerHint q) s = .next { s with dev := (s.dev.setTag (dTag x) t).reject q x 0 } :=
  State.goHead_next h (congrArg (fun t => (s.dev.setTag (dTag x) t).reject q x 0) ht)

/-- Settles O44. -/
theorem descriptorsIssue : Obligations.DescriptorsIssue := by
  unfold Obligations.DescriptorsIssue
  intro s q x
  refine ⟨fun h => State.goHead_next h rfl, fun h => State.goHead_next h rfl,
    fun h => ⟨fun hm => ?acquire, fun hm => ?run, fun hm => ?release, fun hm hl => ?grant⟩, fun h => State.goHead_next h rfl,
    fun h h0 => State.goHead_next h (if_pos h0), fun h h1 => State.goHead_next h (if_pos h1),
    fun h => ⟨fun hc => State.goHead_next h (if_neg (ne_true_of_eq_false hc)), fun hc => State.goHead_next h (if_pos hc)⟩,
    fun h => State.goHead_next h rfl,
    fun h => ⟨fun hk => State.goHead_next h (if_neg hk), fun hk => State.goHead_next h (if_pos hk)⟩,
    fun h => ⟨fun d' sp hi => State.goHead_next h ?items, fun k hi => State.goHead_next h ?badItem, fun p v r h1 hg hi hin => State.goHead_next h ?one⟩,
    fun h => ⟨fun h1 => State.powerHint_next h (if_pos h1), fun h0 ho => State.powerHint_next h ?hint,
      fun h0 ho => State.powerHint_next h ?overridden⟩⟩
  case acquire | run | release =>
    obtain ⟨hc, -⟩ := (State.headAt_iff s q 2 x).mp h
    exact State.nextCore_dev hc (State.dispatchHead_next h (beq_iff_eq.mpr hm))
  case grant =>
    obtain ⟨hc, -⟩ := (State.headAt_iff s q 2 x).mp h
    refine State.nextCore_dev hc ((if_pos hl).trans ?_)
    rw [Dev.tryStart_of_headAt h]
    exact State.dispatchHead_next h (decide_eq_true hm)
  case items | badItem => simp only [hi]
  case one =>
    simp only [h1, Dev.items, hg, hi, hin, Bool.true_or, if_true, List.nil_append]
  case hint | overridden => simp [h0, ho]

/-! ### Position commands -/

/-- A gate's entries after they are set; an empty list of them is not listed. -/
@[simp] theorem Dev.gate_setGate_append (d : Dev) (g : Nat) (l : List GEntry) (e : GEntry) : (d.setGate g (l ++ [e])).gate g = l ++ [e] := by
  simp [Dev.gate, Dev.setGate]

/-- Settles O46. -/
theorem positionCommandsWait : Obligations.PositionCommandsWait := by
  unfold Obligations.PositionCommandsWait
  intro s q t x
  refine ⟨fun hp => ⟨fun h => ⟨_, State.goHead_next h (if_neg (ne_true_of_eq_false hp)), fget_fset_same .., rfl⟩,
    fun h => ⟨_, _, State.goHead_next h (if_neg (ne_true_of_eq_false hp)), fget_fset_same .., rfl, rfl, rfl, rfl⟩,
    fun h himm hen hown hlen => ?verdict, fun h hen hown hoff hlen => ?gate⟩, fun hp h => State.goHead_next h (if_pos hp)⟩
  case verdict =>
    refine ⟨_, _, State.goHead_next h ((if_neg (Dev.verdictBlock_accepts hen hown)).trans ((if_neg (by omega)).trans
      ((if_neg (ne_true_of_eq_false hp)).trans (if_neg (Nat.not_le.mpr hlen))))), rfl, rfl, rfl, rfl, rfl⟩
  case gate =>
    refine ⟨_, _, State.goHead_next h ((if_neg (by simp [hen, hown])).trans ((if_neg (by simp [hoff])).trans
      ((if_neg (Nat.not_le.mpr hlen)).trans (if_neg (ne_true_of_eq_false hp))))), Dev.gate_setGate_append .., rfl, rfl, rfl, rfl⟩

/-! ### The end of a descriptor -/

/-- A DMA of which every element is written ends (R255). -/
theorem State.dmaGo_of_written {s : State} {q n : Nat} {i : Issued} (hi : s.dev.bySeq q n = some i) (hm : s.dev.moving q i = true)
    (he : i.endAs = none) (ht : dTotal i.d ≤ i.progress) (fuel : Nat) : s.dmaGo q n (fuel + 1) = s.onDev fun d =>
      Dev.done (d.endMover q n 0 (i.cnts.1 % 2 ^ 32 + i.cnts.2.1 % 2 ^ 32 * 2 ^ 32) (i.cnts.2.2 % 2 ^ 32)) := by
  have hgoes : ¬ (!(s.dev.moving q i && i.endAs.isNone)) = true := by simp [hm, he]
  rw [State.dmaGo, hi]
  exact (if_neg hgoes).trans (if_pos ht)

/-- Settles O47. -/
theorem descriptorsEnd : Obligations.DescriptorsEnd := by
  unfold Obligations.DescriptorsEnd
  intro s q n x i l hc
  refine ⟨fun hf hb hst ho => State.nextCore_dev hc ?reserved, fun hw hu => State.nextCore_dev hc ?timeout,
    fun hf => State.nextCore_dev hc ?flush, fun hi hop => ?dma, fun hi hs hop hm he ht => ?ended,
    fun hcl hl hr => ⟨_, State.nextCore_dev hc (if_pos (by simp [hcl, hl, hr])), ?ctx, ?queue, rfl⟩⟩
  case reserved =>
    have hhead : s.dev.head q (dOp x) = some x := by simp [Dev.head, hf]
    simp only [hf, Dev.onHead, hhead, hb, ho]
    simp [hst]
  case timeout => simp only [hw, hu, if_true]
  case flush => simp only [hf]
  case dma =>
    refine (State.inCore_of_runs hc _).trans ?_
    simp only [hi, hop, if_true]
  case ended =>
    refine (State.inCore_of_runs hc _).trans ?_
    simp only [hi, hop, if_true]
    exact congrArg _ (State.dmaGo_of_written hs hm he ht _)
  case ctx =>
    have hne : (F.CMD_TILE_CTX n).key ≠ (F.CMD_TILE_QUEUE n).key := by simp [Fld.key, F.CMD_TILE_CTX, F.CMD_TILE_QUEUE]
    rw [Dev.wrs, Dev.wrs, Dev.wrs, Dev.rd_wr_ne _ _ hne]
    exact Dev.rd_wr_same ..
  case queue => exact Dev.rd_wr_same ..

end Sys2Proof.Machine
end

section
/-! PROOFS. Power (chapter 16): O48 and O49. -/

namespace Sys2Proof.Machine

/-! ### What posting an event leaves in the registers -/

/-- The registers above those of the command processor stay: those of power, the timebase, the card slot and the clasp links. -/
def Dev.SameHigh (d e : Dev) : Prop := ∀ f : Fld, 0x700000 ≤ f.off → e.rd f = d.rd f

theorem Dev.SameHigh.refl (d : Dev) : d.SameHigh d := fun _ _ => rfl

theorem Dev.SameHigh.trans {d e f : Dev} (h : d.SameHigh e) (h' : e.SameHigh f) : d.SameHigh f :=
  fun g hg => (h' g hg).trans (h g hg)

theorem Dev.SameHigh.ite {d e f : Dev} {p : Prop} [Decidable p] (h : d.SameHigh e) (h' : d.SameHigh f) :
    d.SameHigh (if p then e else f) := by
  split <;> assumption

/-- A change beside the registers. -/
theorem Dev.sameHigh_of_regs {d e : Dev} (h : e.regs = d.regs) : d.SameHigh e := fun f _ => congrArg (Machine.rd · f) h

theorem Dev.sameHigh_wr (d : Dev) {f : Fld} (v : Nat) (h : f.key < 0x700000 * 64) : d.SameHigh (d.wr f v) := by
  intro g hg
  refine Dev.rd_wr_ne _ _ ?_
  simp only [Fld.key] at h ⊢
  omega

theorem Dev.sameHigh_irq (d : Dev) (i : Nat) : d.SameHigh (d.irq i) := by
  obtain ⟨x, o, h⟩ := d.irq_same i
  exact Dev.sameHigh_of_regs (by rw [h])

theorem Dev.sameHigh_postOut (d : Dev) (p : Posted) : d.SameHigh (d.postOut p) := by
  obtain ⟨x, o, h⟩ := d.postOut_same p
  exact Dev.sameHigh_of_regs (by rw [h])

theorem Dev.sameHigh_logUe (d : Dev) (addr source ctx : Nat) : d.SameHigh (d.logUe addr source ctx) :=
  .ite (.refl d) (((((d.sameHigh_wr (f := F.MEM_ECC_STAT_UE) 1 (by decide)).trans
    (Dev.sameHigh_wr _ (f := F.MEM_ERR_ADDR_ADDR) _ (by decide))).trans (Dev.sameHigh_wr _ (f := F.MEM_ERR_INFO_SOURCE) _ (by decide))).trans
    (Dev.sameHigh_wr _ (f := F.MEM_ERR_INFO_CTX) _ (by decide))).trans (Dev.sameHigh_wr _ (f := F.MEM_ERR_INFO_CHANNEL) _ (by decide)))

theorem Dev.sameHigh_correctPart (d : Dev) (p n : Nat) : d.SameHigh (d.correctPart p n) := by
  have hcount (l : List (Nat × Ecc)) (e : Dev) : e.SameHigh (l.foldl (fun (d : Dev) (g : Nat × Ecc) =>
      if g.1 < 2 ^ 36 then d.sat F.MEM_ECC_STAT_DRAM_CE else d.sat F.MEM_ECC_STAT_SRAM_CE) e) := by
    induction l generalizing e with
    | nil => exact .refl e
    | cons g l ih => exact (Dev.SameHigh.ite (e.sameHigh_wr _ (by decide)) (e.sameHigh_wr _ (by decide))).trans (ih _)
  exact (hcount _ d).trans (Dev.sameHigh_of_regs rfl)

theorem Dev.sameHigh_writeMem (d : Dev) (k p : Nat) (bs : List Byte) (source ctx : Nat) :
    d.SameHigh (d.writeMem k p bs source ctx) := by
  have hbefore : d.SameHigh (d.beforeWrite p bs.length source ctx) := by
    have hlog : d.SameHigh (match d.ecc.find? fun e => e.2.bad && touches p bs.length e.1 && !covers p bs.length e.1 with
        | some g => d.logUe g.1 source ctx
        | none => d) := by
      split
      · exact d.sameHigh_logUe _ _ _
      · exact .refl d
    have hpart := hlog.trans (Dev.sameHigh_correctPart _ p bs.length)
    exact .ite (hpart.trans (Dev.sameHigh_of_regs rfl)) hpart
  rw [Dev.writeMem_eq]
  exact hbefore.trans (Dev.sameHigh_of_regs rfl)

theorem Dev.sameHigh_hostWriteFor (ctx : Option Nat) (own : Option (Nat × Nat)) (fuel : Nat) (dst : HostAt) (bs : List Byte) (d : Dev) :
    d.SameHigh (d.hostWriteFor dst ctx own fuel bs) := by
  induction fuel generalizing d dst bs with
  | zero => exact .refl d
  | succ fuel ih => exact .ite (.refl d) ((d.sameHigh_postOut _).trans (ih _ _ _))

theorem Dev.sameHigh_evStore (d : Dev) (o : Nat) (bs : List Byte) : d.SameHigh (d.evStore o bs) :=
  .ite (Dev.sameHigh_hostWriteFor _ _ _ _ _ d) (d.sameHigh_writeMem _ _ _ _ _)

theorem Dev.sameHigh_evWrite (d : Dev) (e : Ev) : d.SameHigh (d.evWrite e) := by
  have hfatal {x : Dev} (h : d.SameHigh x) : d.SameHigh (if e.fatal then x.clrf F.CMD_EVT_CREDIT_HELD (2 ^ e.src) else x) :=
    .ite (h.trans (x.sameHigh_wr _ (by decide))) h
  have htail {x : Dev} (t : Nat) (h : d.SameHigh x) : d.SameHigh (if t = 4095 then
      (x.wr F.CMD_EVT_TAIL_TAIL 0).wr F.CMD_EVT_TAIL_PHASE (1 - x.rd F.CMD_EVT_TAIL_PHASE) else x.wr F.CMD_EVT_TAIL_TAIL (t + 1)) :=
    .ite ((h.trans (x.sameHigh_wr _ (by decide))).trans (Dev.sameHigh_wr _ _ (by decide))) (h.trans (x.sameHigh_wr _ (by decide)))
  have hirq {x : Dev} (h : d.SameHigh x) : d.SameHigh (if e.fatal then (x.irq 0).irq 1 else x.irq 0) :=
    .ite ((h.trans (x.sameHigh_irq 0)).trans (Dev.sameHigh_irq _ 1)) (h.trans (x.sameHigh_irq 0))
  have hentry : d.SameHigh ((d.evStore (32 * d.rd F.CMD_EVT_TAIL_TAIL + 4) ((d.evBytes e).drop 4)).evStore
      (32 * d.rd F.CMD_EVT_TAIL_TAIL) ((d.evBytes e).take 4)) := (d.sameHigh_evStore _ _).trans (Dev.sameHigh_evStore _ _ _)
  exact hirq (htail _ (hfatal (hentry.trans (Dev.sameHigh_of_regs rfl))))

theorem Dev.sameHigh_post (d : Dev) (e : Ev) : d.SameHigh (d.post e) := by
  have hevt (evt) : d.SameHigh { d with evt := evt } := Dev.sameHigh_of_regs rfl
  exact .ite (.ite (d.sameHigh_evWrite e) ((hevt _).trans (Dev.sameHigh_wr _ _ (by decide))))
    (.ite (.refl d) (.ite (d.sameHigh_evWrite e) ((hevt _).trans (Dev.sameHigh_wr _ _ (by decide)))))

/-! ### What a clasp message leaves -/

/-- What sending on the clasp links may change: the links and what was sent. -/
def Dev.SameButClasp (d e : Dev) : Prop := ∃ cls out, e = { d with cls, out }

theorem Dev.SameButClasp.refl (d : Dev) : d.SameButClasp d := ⟨d.cls, d.out, rfl⟩

theorem Dev.SameButClasp.trans {d e f : Dev} (h : d.SameButClasp e) (h' : e.SameButClasp f) : d.SameButClasp f := by
  obtain ⟨_, _, rfl⟩ := h
  obtain ⟨_, _, rfl⟩ := h'
  exact ⟨_, _, rfl⟩

theorem Dev.SameButClasp.ite {d e f : Dev} {p : Prop} [Decidable p] (h : d.SameButClasp e) (h' : d.SameButClasp f) :
    d.SameButClasp (if p then e else f) := by
  split <;> assumption

theorem Dev.sameButClasp_setPort (d : Dev) (p : Nat) (x : Port) : d.SameButClasp (d.setPort p x) := ⟨_, d.out, rfl⟩

theorem Dev.sameButClasp_flitSent (d : Dev) (p : Nat) (f : BitVec 256) : d.SameButClasp (d.flitSent p f) :=
  .ite ⟨_, _, rfl⟩ ⟨_, _, rfl⟩

theorem Dev.sameButClasp_pump (p : Nat) (fs : List (BitVec 256)) (d : Dev) (kept : List (BitVec 256)) :
    d.SameButClasp (d.pump p kept fs) := by
  induction fs generalizing d kept with
  | nil => exact d.sameButClasp_setPort p _
  | cons f fs ih => exact .ite (((d.sameButClasp_setPort p _).trans (Dev.sameButClasp_flitSent _ p _)).trans (ih _ _)) (ih _ _)

theorem Dev.sameButClasp_sendOn (d : Dev) (p hop : Nat) (m : ClaspMsg) : d.SameButClasp (d.sendOn p hop m) :=
  (d.sameButClasp_setPort p _).trans (Dev.sameButClasp_pump p _ _ _)

theorem Dev.sameButClasp_claspSend (d : Dev) (m : ClaspMsg) : d.SameButClasp (d.claspSend m) := by
  rw [Dev.claspSend]
  split
  · exact d.sameButClasp_sendOn _ 0 m
  · exact .refl d

/-! ### What is shown of the power manager -/

theorem Dev.sameWork_showPower (d : Dev) : d.SameWork d.showPower := by
  have hfields := d.sameWork_wrs [(F.PWR_STATUS_LOUVRE, d.louvre), (F.PWR_STATUS_REASON, d.reason),
    (F.PWR_STATUS_REPEAT_HELD, if d.repeatHeld then 1 else 0)]
  have hirq := Dev.SameWork.ite (p := d.rd F.PWR_STATUS_REASON = d.reason) hfields (hfields.trans (Dev.sameWork_irq _ 70))
  exact .ite (hirq.trans (Dev.sameWork_post _ _)) hirq

@[simp] theorem Dev.showPower_pwr (d : Dev) : d.showPower.pwr = d.pwr := by
  obtain ⟨_, _, _, _, _, _, _, h⟩ := d.sameWork_showPower
  rw [h]

/-- Showing the louvre, the reason and REPEAT_HELD leaves the other registers of the power manager. -/
theorem Dev.rd_showPower (d : Dev) {f : Fld} (h : 0x700000 ≤ f.off) (hl : f.key ≠ F.PWR_STATUS_LOUVRE.key)
    (hr : f.key ≠ F.PWR_STATUS_REASON.key) (hh : f.key ≠ F.PWR_STATUS_REPEAT_HELD.key) : d.showPower.rd f = d.rd f := by
  have hfields : (d.wrs [(F.PWR_STATUS_LOUVRE, d.louvre), (F.PWR_STATUS_REASON, d.reason),
      (F.PWR_STATUS_REPEAT_HELD, if d.repeatHeld then 1 else 0)]).rd f = d.rd f := by
    simp only [Dev.wrs, Dev.rd_wr_ne _ _ hl, Dev.rd_wr_ne _ _ hr, Dev.rd_wr_ne _ _ hh]
  rw [← hfields]
  have hirq := Dev.SameHigh.ite (p := d.rd F.PWR_STATUS_REASON = d.reason) (Dev.SameHigh.refl _) (Dev.sameHigh_irq
    (d.wrs [(F.PWR_STATUS_LOUVRE, d.louvre), (F.PWR_STATUS_REASON, d.reason),
      (F.PWR_STATUS_REPEAT_HELD, if d.repeatHeld then 1 else 0)]) 70)
  exact Dev.SameHigh.ite (hirq.trans (Dev.sameHigh_post _ _)) hirq f h

/-! ### The interval's count and its running tags -/

/-- The count of the interval's microseconds and its running tags stay. -/
def Dev.SameInterval (d e : Dev) : Prop := e.pwr.ivCnt = d.pwr.ivCnt ∧ e.pwr.running = d.pwr.running

theorem Dev.SameInterval.refl (d : Dev) : d.SameInterval d := ⟨rfl, rfl⟩

theorem Dev.SameInterval.trans {d e f : Dev} (h : d.SameInterval e) (h' : e.SameInterval f) : d.SameInterval f :=
  ⟨h'.1.trans h.1, h'.2.trans h.2⟩

theorem Dev.SameInterval.ite {d e f : Dev} {p : Prop} [Decidable p] (h : d.SameInterval e) (h' : d.SameInterval f) :
    d.SameInterval (if p then e else f) := by
  split <;> assumption

theorem Dev.sameInterval_of_pwr {d e : Dev} (h : e.pwr = d.pwr) : d.SameInterval e :=
  ⟨congrArg Pwr.ivCnt h, congrArg Pwr.running h⟩

theorem Dev.SameButClasp.interval {d e : Dev} (h : d.SameButClasp e) : d.SameInterval e := by
  obtain ⟨_, _, rfl⟩ := h
  exact ⟨rfl, rfl⟩

theorem Dev.sameInterval_capLoop (d : Dev) (total : Nat) : d.SameInterval (d.capLoop total) := by
  unfold Dev.SameInterval Dev.capLoop
  dsimp only
  split_ifs <;> exact ⟨rfl, rfl⟩

theorem Dev.sameInterval_allocate (d : Dev) : d.SameInterval d.allocate := .ite ⟨rfl, rfl⟩ (.ite ⟨rfl, rfl⟩ ⟨rfl, rfl⟩)

theorem Dev.sameInterval_sendOffer (d : Dev) (k : Nat) : d.SameInterval (d.sendOffer k) := by
  have hall (m : Nat → ClaspMsg) (l : List Nat) (e : Dev) :
      e.SameButClasp (l.foldl (fun d c => if c = d.chip then d else d.claspSend (m c)) e) := by
    induction l generalizing e with
    | nil => exact .refl e
    | cons c l ih => exact (Dev.SameButClasp.ite (.refl e) (e.sameButClasp_claspSend _)).trans (ih _)
  have hoffer (o : FMap Nat) : d.SameInterval { d with pwr := { d.pwr with offers := o } } := ⟨rfl, rfl⟩
  have hmembers {m : Nat → ClaspMsg} {l : List Nat} := Dev.SameInterval.ite (p := d.is F.PWR_CTRL_MC_MODE = true)
    ((hoffer (fset d.pwr.offers 16 k)).trans (hall m l _).interval) (hoffer (fset d.pwr.offers 16 k))
  exact .ite (.refl d) (.ite (hmembers.trans (Dev.sameButClasp_sendOn ..).interval) hmembers)

/-- A decision for a point leaves them. -/
theorem State.sameInterval_steer (s : State) (k : Nat) : s.dev.SameInterval (s.steer k).dev := by
  have hdrop : s.dev.SameInterval s.stepDrop.dev := by
    rw [State.stepDrop]
    split <;> exact ⟨rfl, rfl⟩
  unfold State.steer
  dsimp only
  split_ifs
  · exact .refl _
  · exact hdrop
  · exact hdrop
  · exact hdrop
  · exact hdrop
  · split <;> exact hdrop

/-- The limits, the allocator and the offer of an interval boundary (R367, R370, R375, R377, R383). -/
def Dev.boundary (d : Dev) (total : Nat) : Dev :=
  let d := (d.capLoop total).thermalStep.edcStep
  let d := (d.wr F.PWR_MC_CEIL d.ceiling).allocate
  d.sendOffer d.offerPoint

theorem Dev.sameInterval_thermalStep (d : Dev) : d.SameInterval d.thermalStep := ⟨rfl, rfl⟩
theorem Dev.sameInterval_edcStep (d : Dev) : d.SameInterval d.edcStep := ⟨rfl, rfl⟩
theorem Dev.sameInterval_wr (d : Dev) (f : Fld) (v : Nat) : d.SameInterval (d.wr f v) := ⟨rfl, rfl⟩

theorem Dev.sameInterval_boundary (d : Dev) (total : Nat) : d.SameInterval (d.boundary total) :=
  (((((d.sameInterval_capLoop total).trans (Dev.sameInterval_thermalStep _)).trans (Dev.sameInterval_edcStep _)).trans
    (Dev.sameInterval_wr _ _ _)).trans (Dev.sameInterval_allocate _)).trans (Dev.sameInterval_sendOffer _ _)

/-- The working estimate of an interval, after SENSE_FAIL (R365, R366). -/
def Dev.intervalHat (d : Dev) (gone : Bool) : PowerParts := (if gone then d.setSense true else d).hat

/-- The energy, the tags and the new count of an interval (R365, R368, R369, R379). -/
def Dev.intervalShares (d : Dev) (gone : Bool) (tags : List TagShare) (ctxs : List CtxShare) (rest : RestShare) : Dev :=
  let d := if gone then d.setSense true else d
  let hat := d.hat
  let d := d.energy hat ctxs rest
  let d := tags.foldl (Dev.tagInterval hat tags) d
  { d with pwr := { d.pwr with ivSum := ⟨0, 0, 0, 0⟩, ivCnt := 0, static := hat.static,
                               running := tags.map fun (x : TagShare) => (x.tag, x.tiles) } }

/-- POWER_INTERVAL is the end of an interval and its boundary, with the decision for the next one. -/
theorem execPowerInterval_eq (tags : List TagShare) (ctxs : List CtxShare) (rest : RestShare) (s : State) :
    execPowerInterval tags ctxs rest s = s.inPeri (
      let s := s.onDev fun d => (d.intervalShares s.senseGone tags ctxs rest).boundary (partsTotal (d.intervalHat s.senseGone))
      .next ((s.steer s.nextPoint).onDev Dev.showPower)) := by
  unfold execPowerInterval Dev.intervalShares Dev.boundary Dev.intervalHat
  rfl

/-- The end of an interval begins the next count, with the tags that run now. -/
theorem Dev.intervalShares_interval (d : Dev) (gone : Bool) (tags : List TagShare) (ctxs : List CtxShare) (rest : RestShare) :
    (d.intervalShares gone tags ctxs rest).pwr.ivCnt = 0 ∧
      (d.intervalShares gone tags ctxs rest).pwr.running = tags.map fun (x : TagShare) => (x.tag, x.tiles) := ⟨rfl, rfl⟩

/-- The boundary that follows keeps them. -/
theorem State.powerInterval_next {s : State} (tags : List TagShare) (ctxs : List CtxShare) (rest : RestShare) (hp : s.periRuns = true) :
    ∃ t, exec (.powerInterval tags ctxs rest) s = .next t ∧ (s.dev.intervalShares s.senseGone tags ctxs rest).SameInterval t.dev := by
  have hexec : exec (.powerInterval tags ctxs rest) s = execPowerInterval tags ctxs rest s := rfl
  have hbound := (s.dev.intervalShares s.senseGone tags ctxs rest).sameInterval_boundary (partsTotal (s.dev.intervalHat s.senseGone))
  rw [hexec, execPowerInterval_eq, State.inPeri_of_runs hp, State.onDev]
  generalize (s.dev.intervalShares s.senseGone tags ctxs rest).boundary (partsTotal (s.dev.intervalHat s.senseGone)) = d at hbound ⊢
  exact ⟨_, rfl, (hbound.trans (State.sameInterval_steer { s with dev := d } _)).trans (Dev.sameInterval_of_pwr (Dev.showPower_pwr _))⟩

/-- The demand of the current limit after a tick (R375). -/
theorem Pwr.edc_tick_le (p : Pwr) (lim i : Nat) (off : Bool) :
    (if lim < i || off then { p with edc := max 8 (p.edc - 8), edcTicks := 0, edcFull := false }
      else if 100 * i < 95 * lim then
        (if p.edcTicks + 1 < 10 then { p with edcTicks := p.edcTicks + 1 } else { p with edcTicks := 0, edc := min 64 (p.edc + 1) })
      else { p with edcTicks := 0 } : Pwr).edc ≤ max 64 p.edc := by
  split_ifs <;> dsimp only <;> omega

/-- The registers of the sensors lie above those of the command processor, and apart from the shown ones and from each other. -/
theorem sensor_keys (i j : Nat) : 0x700000 ≤ (F.PWR_TEMP_FAIL i).off ∧ 0x700000 ≤ (F.PWR_TEMP_TEMP i).off ∧
    (F.PWR_TEMP_FAIL i).key ≠ (F.PWR_TEMP_TEMP j).key ∧ (i ≠ j → (F.PWR_TEMP_TEMP i).key ≠ (F.PWR_TEMP_TEMP j).key) := by
  simp only [Fld.key, F.PWR_TEMP_FAIL, F.PWR_TEMP_TEMP]
  omega

/-- The failed sensors read as hot as the hottest valid one, with a margin (R377). -/
def Dev.failedTemps (d : Dev) (l : List Nat) : Dev :=
  l.foldl (fun d i => if d.is (F.PWR_TEMP_FAIL i) then d.wr (F.PWR_TEMP_TEMP i) (twos 12 (d.hottest + 40)) else d) d

/-- That leaves every flag, and the reading of every valid sensor. -/
theorem Dev.rd_failedTemps (l : List Nat) (d : Dev) (n : Nat) : (d.failedTemps l).rd (F.PWR_TEMP_FAIL n) = d.rd (F.PWR_TEMP_FAIL n) ∧
    (d.rd (F.PWR_TEMP_FAIL n) = 0 → (d.failedTemps l).rd (F.PWR_TEMP_TEMP n) = d.rd (F.PWR_TEMP_TEMP n)) := by
  induction l generalizing d with
  | nil => exact ⟨rfl, fun _ => rfl⟩
  | cons i l ih =>
    have hflag : (if d.is (F.PWR_TEMP_FAIL i) then d.wr (F.PWR_TEMP_TEMP i) (twos 12 (d.hottest + 40)) else d).rd (F.PWR_TEMP_FAIL n) =
        d.rd (F.PWR_TEMP_FAIL n) := by
      split
      · exact Dev.rd_wr_ne _ _ (sensor_keys n i).2.2.1
      · rfl
    have htemp (h0 : d.rd (F.PWR_TEMP_FAIL n) = 0) :
        (if d.is (F.PWR_TEMP_FAIL i) then d.wr (F.PWR_TEMP_TEMP i) (twos 12 (d.hottest + 40)) else d).rd (F.PWR_TEMP_TEMP n) =
          d.rd (F.PWR_TEMP_TEMP n) := by
      split
      case isTrue hi =>
        refine Dev.rd_wr_ne _ _ ((sensor_keys n i).2.2.2 ?_)
        rintro rfl
        rw [Dev.is, h0] at hi
        exact absurd hi (by decide)
      case isFalse => rfl
    obtain ⟨hf, ht⟩ := ih (if d.is (F.PWR_TEMP_FAIL i) then d.wr (F.PWR_TEMP_TEMP i) (twos 12 (d.hottest + 40)) else d)
    exact ⟨hf.trans hflag, fun h0 => (ht (hflag.trans h0)).trans (htemp h0)⟩

/-- The hottest valid reading is shown, where there is one. -/
def Dev.hottestShown (d : Dev) : Dev :=
  match hottestOf d.validTemps with
  | some (i, t) => d.wrs [(F.PWR_TMAX_TEMP, twos 12 t), (F.PWR_TMAX_SENSOR, i)]
  | none => d

theorem Dev.rd_hottestShown (d : Dev) {f : Fld} (h : f.off < 0x800160) (hl : f.lo < 64) : d.hottestShown.rd f = d.rd f := by
  have hne (g : Fld) (hg : g.off = 0x800160) : f.key ≠ g.key := by
    simp only [Fld.key, hg]
    omega
  rw [Dev.hottestShown]
  split
  · simp only [Dev.wrs, Dev.rd_wr_ne _ _ (hne F.PWR_TMAX_TEMP rfl), Dev.rd_wr_ne _ _ (hne F.PWR_TMAX_SENSOR rfl)]
  · rfl

/-- The registers of a sensor reading, before what is shown of the power manager (R377). -/
def Dev.sensorRead (d : Dev) (n temp : Nat) (fail : Bool) : Dev :=
  (d.wrs [(F.PWR_TEMP_FAIL n, if fail then 1 else 0), (F.PWR_TEMP_TEMP n, temp)]).hottestShown.failedTemps (List.range 24)

/-- Where the register of a sensor lies. -/
theorem sensor_regs {n : Nat} (hn : n < 24) : ((F.PWR_TEMP_FAIL n).off < 0x800160 ∧ (F.PWR_TEMP_FAIL n).lo < 64 ∧
    (F.PWR_TEMP_TEMP n).lo < 64) ∧ 0x800100 ≤ (F.PWR_TEMP_FAIL n).off ∧ 0x800100 ≤ (F.PWR_TEMP_TEMP n).off ∧
    (F.PWR_TEMP_TEMP n).off < 0x800160 := by
  simp only [F.PWR_TEMP_FAIL, F.PWR_TEMP_TEMP]
  omega

/-- Its flag, and its reading where it is valid. -/
theorem Dev.rd_sensorRead (d : Dev) {n : Nat} (hn : n < 24) (temp : Nat) (fail : Bool) :
    (d.sensorRead n temp fail).rd (F.PWR_TEMP_FAIL n) = (if fail then 1 else 0) ∧
      (fail = false → (d.sensorRead n temp fail).rd (F.PWR_TEMP_TEMP n) = temp % 4096) := by
  obtain ⟨-, -, hft, -⟩ := sensor_keys n n
  obtain ⟨⟨hfo, hfl, htl⟩, -, -, hto⟩ := sensor_regs hn
  have hflag : ((d.wrs [(F.PWR_TEMP_FAIL n, if fail then 1 else 0), (F.PWR_TEMP_TEMP n, temp)]).hottestShown).rd (F.PWR_TEMP_FAIL n) =
      if fail then 1 else 0 := by
    rw [Dev.rd_hottestShown _ hfo hfl, Dev.wrs, Dev.wrs, Dev.wrs, Dev.rd_wr_ne _ _ hft, Dev.rd_wr_same]
    cases fail <;> rfl
  have htemp : ((d.wrs [(F.PWR_TEMP_FAIL n, if fail then 1 else 0), (F.PWR_TEMP_TEMP n, temp)]).hottestShown).rd (F.PWR_TEMP_TEMP n) =
      temp % 4096 := by
    rw [Dev.rd_hottestShown _ hto htl]
    exact Dev.rd_wr_same ..
  rw [Dev.sensorRead]
  generalize (d.wrs [(F.PWR_TEMP_FAIL n, if fail then 1 else 0), (F.PWR_TEMP_TEMP n, temp)]).hottestShown = e at hflag htemp ⊢
  obtain ⟨hfailed, hvalid⟩ := e.rd_failedTemps (List.range 24) n
  exact ⟨hfailed.trans hflag, fun hf => (hvalid (hflag.trans (by rw [hf]; rfl))).trans htemp⟩

/-- A sensor reading sets the registers, the demand it makes and what the gauge logs. -/
theorem execSensorUpdate_eq {s : State} {n : Nat} (hp : s.periRuns = true) (hn : n < 24) (temp : Nat) (fail : Bool) :
    ∃ aon pwr, execSensorUpdate n temp fail s =
      .next { s with aon := aon, dev := { s.dev.sensorRead n temp fail with pwr := pwr }.showPower } := by
  have hgo : ¬ (24 ≤ n || !s.periRuns) = true := by simp [hp, hn]
  unfold execSensorUpdate Dev.sensorRead Dev.hottestShown Dev.failedTemps
  rw [if_neg hgo]
  generalize s.dev.wrs [(F.PWR_TEMP_FAIL n, if fail then 1 else 0), (F.PWR_TEMP_TEMP n, temp)] = d
  generalize List.range 24 = l
  dsimp only
  cases hottestOf d.validTemps with
  | none => exact ⟨_, _, rfl⟩
  | some x => exact ⟨_, _, rfl⟩

/-- What a sensor reading leaves in that sensor's register. -/
theorem State.sensorUpdate_next {s : State} {n : Nat} (hp : s.periRuns = true) (hn : n < 24) (temp : Nat) (fail : Bool) :
    ∃ t, exec (.sensorUpdate n temp fail) s = .next t ∧ t.dev.rd (F.PWR_TEMP_FAIL n) = (if fail then 1 else 0) ∧
      (fail = false → t.dev.rd (F.PWR_TEMP_TEMP n) = temp % 4096) := by
  obtain ⟨aon, pwr, hexec⟩ := execSensorUpdate_eq hp hn temp fail
  obtain ⟨hflag, htemp⟩ := s.dev.rd_sensorRead hn temp fail
  generalize s.dev.sensorRead n temp fail = d at hexec hflag htemp
  have hshown {f : Fld} (ho : 0x800100 ≤ f.off) : ({ d with pwr := pwr }.showPower).rd f = d.rd f := by
    have hkey (g : Fld) (hg : g.key < 0x800100 * 64) : f.key ≠ g.key := by
      simp only [Fld.key] at hg ⊢
      omega
    exact Dev.rd_showPower _ (by omega) (hkey _ (by decide)) (hkey _ (by decide)) (hkey _ (by decide))
  obtain ⟨-, hfo, hto, -⟩ := sensor_regs hn
  exact ⟨_, hexec, (hshown hfo).trans hflag, fun hf => (hshown hto).trans (htemp hf)⟩

/-- Settles O48. -/
theorem powerSamples : Obligations.PowerSamples := by
  unfold Obligations.PowerSamples
  intro s p tags ctxs rest n temp k hp
  refine ⟨?interval, ⟨_, State.nextPeri_dev hp rfl, ?parts, ?modelCnt, ?ivCnt, rfl⟩, ⟨_, State.nextPeri_dev hp rfl, ?edc, ?edcOff, rfl⟩,
    ⟨_, State.nextPeri_dev hp rfl, ?droop, ?held, rfl⟩, State.nextPeri_dev hp rfl, fun hn => ?valid, fun hn => ?failed,
    fun hm => State.nextPeri_dev hp (if_pos hm), fun hm ha => State.nextPeri_dev hp (if_pos ?lost)⟩
  case parts | modelCnt | ivCnt | droop | held => rw [Dev.showPower_pwr]
  case lost => rw [hm, ha]; rfl
  case edc =>
    rw [Dev.showPower_pwr]
    exact Pwr.edc_tick_le _ _ _ _
  case edcOff =>
    intro h0
    rw [Dev.showPower_pwr]
    exact congrArg Pwr.edc (if_pos ((Bool.or_eq_true ..).mpr (Or.inr (beq_iff_eq.mpr h0))))
  case interval =>
    obtain ⟨t, hexec, hcnt, htags⟩ := State.powerInterval_next tags ctxs rest hp
    obtain ⟨hcnt0, htags0⟩ := s.dev.intervalShares_interval s.senseGone tags ctxs rest
    exact ⟨t, hexec, hcnt.trans hcnt0, htags.trans htags0⟩
  case valid =>
    obtain ⟨d, hexec, hfail, htemp⟩ := State.sensorUpdate_next hp hn temp false
    exact ⟨_, hexec, hfail, htemp rfl⟩
  case failed =>
    obtain ⟨d, hexec, hfail, -⟩ := State.sensorUpdate_next hp hn temp true
    exact ⟨_, hexec, hfail⟩

/-! ### Voltage steps and shutters -/

/-- A field that is set stays as set while the rest of the power manager is shown. -/
theorem Dev.rd_showPower_wr (d : Dev) (f : Fld) (v : Nat) (h : 0x700000 ≤ f.off) (hl : f.key ≠ F.PWR_STATUS_LOUVRE.key)
    (hr : f.key ≠ F.PWR_STATUS_REASON.key) (hh : f.key ≠ F.PWR_STATUS_REPEAT_HELD.key) :
    (d.wr f v).showPower.rd f = v % 2 ^ f.len :=
  (Dev.rd_showPower _ h hl hr hh).trans (Dev.rd_wr_same _ _ _)

/-- The end of a restore of the phases (R376). -/
theorem Dev.phasesRestored_spec (d : Dev) :
    (({ d with pwr := { d.pwr with lost := [] } }.wr F.PWR_STATUS_PH_LOST 0).showEdcLim.showPower).rd F.PWR_STATUS_PH_LOST = 0 ∧
    (({ d with pwr := { d.pwr with lost := [] } }.wr F.PWR_STATUS_PH_LOST 0).showEdcLim.showPower).pwr.lost = [] := by
  rw [Dev.rd_showPower _ (by decide) (by decide) (by decide) (by decide), Dev.showPower_pwr, Dev.showEdcLim, Dev.rd_wr_ne _ _ (by decide),
    Dev.rd_wr_same]
  exact ⟨rfl, rfl⟩

/-- Settles O49. -/
theorem powerSteps : Obligations.PowerSteps := by
  unfold Obligations.PowerSteps
  intro s req n k c
  refine ⟨fun hp hs => ⟨_, State.nextPeri_dev hp (d := ({ s.dev with pwr := { s.dev.pwr with step := .none } }.wr F.PWR_STATUS_POINT k).showPower)
      ?settle, Dev.rd_showPower_wr _ _ _ (by decide) (by decide) (by decide) (by decide), ?step, rfl⟩,
    fun hp hs => ⟨{ s with aon := if s.voltageFree then s.aon.coreCommand c else s.aon,
                           dev := { s.dev with pwr := { s.dev.pwr with step := .none } } }, ?down, rfl, rfl⟩,
    fun hr => ⟨fun hl hb => ⟨_, (State.atReg_of_reaches hr _).trans (congrArg _ (if_pos ?healthy)), (Dev.phasesRestored_spec _).1,
      (Dev.phasesRestored_spec _).2, rfl⟩, fun hbad => (State.atReg_of_reaches hr _).trans (congrArg _ (if_neg ?lost))⟩,
    fun hc hn hi hl hcl hsh => State.nextCore_dev hc (if_pos ?close),
    fun hc hn hsh hcl hw hb h0 hle => (State.inCore_of_runs hc _).trans ((if_neg ?wakes).trans (if_pos ?voltage)),
    fun hc hsh => ⟨fun hl => State.nextCore_dev hc ((if_pos (beq_iff_eq.mpr hsh)).trans (if_neg (ne_true_of_eq_false hl))),
      fun hl => State.nextCore_dev hc ((if_pos (beq_iff_eq.mpr hsh)).trans (if_pos hl))⟩⟩
  case settle => simp only [hs]
  case step => rw [Dev.showPower_pwr]; rfl
  case down =>
    refine (State.inPeri_of_runs hp _).trans ?_
    simp only [hs]
  case healthy => simp [hl, hb]
  case lost =>
    rw [Bool.and_eq_true, List.isEmpty_iff, List.isEmpty_iff]
    exact fun h => hbad.elim (absurd h.1) (absurd h.2)
  case close => simp [hn, hi, hl, hcl, hsh]
  case wakes => simp [hn, hsh, hcl, hw, hb]
  case voltage => simp [hle, h0]

end Sys2Proof.Machine
end

section
/-! PROOFS. The timebase and the verdict port (chapter 17): O55. -/

namespace Sys2Proof.Machine

/-- A write of TB_CTRL while it is not locked, by its EN, SRC and LOCK bits (R391, R411). -/
theorem Dev.tbCtrl_unlocked {d : Dev} {v : Nat} (hl : d.is F.TB_CTRL_LOCK = false) (hv : v < 8) : d.tbCtrl v =
    if d.is F.TB_CTRL_EN then
      if v % 2 = 1 then d else (d.wrs [(F.TB_CTRL_EN, 0), (F.TB_CTRL_SRC, d.rd F.TB_CTRL_SRC), (F.TB_STATUS_ACQUIRED, 0)]).enterLost
    else if v % 2 = 1 then (d.wr F.TB_CTRL_SRC (v / 2)).tbEnable else d.wr F.TB_CTRL_SRC (v / 2) := by
  have hen : bits v 0 1 = v % 2 := by simp [bits]
  have hsrc : bits v 1 2 = v / 2 := by
    simp only [bits]
    omega
  have hlock : bits v 3 1 ≠ 1 := by
    simp only [bits]
    omega
  simp only [Dev.tbCtrl, hl, if_neg hlock, hen, hsrc, Bool.false_eq_true, if_false]

/-- A cleared verdict word reads 0 (R408). -/
theorem Dev.rd_verdictClear {d : Dev} (hl : d.is F.TB_CTRL_LOCK = false) {i : Nat} (hi : i < 1024) :
    d.verdictClear.rd (F.VP_TABLE_WORD i) = 0 := by
  rw [Dev.verdictClear, if_neg (ne_true_of_eq_false hl)]
  have hnone : fget (d.regs.filter fun e => !(decide (0x901000 ≤ e.1 / 64) && decide (e.1 / 64 < 0x902000))) (F.VP_TABLE_WORD i).key = none := by
    refine fget_filter_false _ _ _ fun v => ?_
    have hlo : 0x901000 ≤ (F.VP_TABLE_WORD i).key / 64 := by
      simp only [Fld.key, F.VP_TABLE_WORD]
      omega
    have hhi : (F.VP_TABLE_WORD i).key / 64 < 0x902000 := by
      simp only [Fld.key, F.VP_TABLE_WORD]
      omega
    simp [hlo, hhi]
  show (fget _ _).getD _ = 0
  rw [hnone]
  rfl

/-- Settles O55. -/
theorem timebaseEvents : Obligations.TimebaseEvents := by
  unfold Obligations.TimebaseEvents
  intro s t v slot q g req a x up cs oe d' g' v' w' b
  refine ⟨⟨_, rfl, rfl, rfl, rfl, rfl, rfl, rfl, rfl⟩, fun hp => ⟨?quad, ?pulse, ?mains, ?index, ?loss, ?holdover, ?slew, ?holdback,
      ?alarm, ?verdict, ?gate, ?wait, State.nextPeri_dev hp rfl, ?pulseEnd, ?capture⟩,
    fun hr hl => ⟨fun he hv h0 => State.devReg_dev hr ((Dev.tbCtrl_unlocked hl hv).trans ?srcOnly),
      fun he hv h1 => State.devReg_dev hr ((Dev.tbCtrl_unlocked hl hv).trans ?enable),
      fun he hv h1 => State.devReg_dev hr ((Dev.tbCtrl_unlocked hl hv).trans ?stays),
      fun he hv h0 => State.devReg_dev hr ((Dev.tbCtrl_unlocked hl hv).trans ?disable)⟩,
    fun hr ho hl hv => State.devReg_dev hr ?step,
    fun hr hl => ⟨_, State.devReg_dev hr rfl, fun i hi => Dev.rd_verdictClear hl hi, ?clearTb, rfl⟩⟩
  case quad =>
    intro hon
    have hgo : ¬ (!s.dev.tbOn 0) = true := by simp [hon]
    exact ⟨State.nextPeri_dev hp (if_neg hgo), State.nextPeri_dev hp (if_neg hgo), State.nextPeri_dev hp (if_neg hgo)⟩
  case pulse => exact fun hon => State.nextPeri_dev hp (if_pos hon)
  case mains =>
    intro hon hlate
    refine State.nextPeri_dev hp ((if_neg (by simp [hon])).trans ?_)
    change (match d'.tb.edges with
      | e :: _ => if e + 15300000 ≤ d'.tb.now then d'.edge 65536 else if d'.canLose then d'.tbLoss else d'
      | [] => d'.edge 65536) = _
    cases he : d'.tb.edges with
    | nil => rfl
    | cons e l => exact if_pos (hlate e (by rw [he]; rfl))
  case index =>
    intro hon href hq haw
    refine State.nextPeri_dev hp ((if_neg ?_).trans (if_pos ?_))
    · rcases hon with hon | hon <;> simp [hon, href]
    · exact (Bool.and_eq_true ..).mpr ⟨decide_eq_true hq, haw⟩
  case loss => exact fun hc ho => State.nextPeri_dev hp (if_pos ((Bool.and_eq_true ..).mpr ⟨hc, ho⟩))
  case holdover => exact fun hq ht => State.nextPeri_dev hp (if_pos ((Bool.and_eq_true ..).mpr ⟨decide_eq_true hq, decide_eq_true ht⟩))
  case slew =>
    intro hm hreach
    have hmode : (s.dev.tbTo t).tb.mode = .slew up := hm
    refine State.nextPeri_dev hp ?_
    simp only [hmode]
    exact if_pos hreach
  case holdback => exact fun hm hreach => State.nextPeri_dev hp (if_pos ((Bool.and_eq_true ..).mpr ⟨decide_eq_true hm, decide_eq_true hreach⟩))
  case alarm =>
    intro ha hr hq
    refine State.nextPeri_dev hp ?_
    change v'.alarmDue slot = _
    rw [Dev.alarmDue, ha]
    exact if_pos ((Bool.and_eq_true ..).mpr ⟨hr, bne_iff_ne.mpr hq⟩)
  case verdict => exact fun hq => State.nextPeri_dev hp (if_neg hq)
  case gate => exact fun hq hg => State.nextPeri_dev hp ((if_neg (by omega)).trans (if_neg hq))
  case wait =>
    intro hw hr hq
    have hwait : fget (s.dev.tbTo t).gatesDue.verdictsDue.alarmsDue.tb.waits q = some x := hw
    refine State.nextPeri_dev hp ?_
    simp only [hwait]
    exact if_pos ((Bool.and_eq_true ..).mpr ⟨hr, bne_iff_ne.mpr hq⟩)
  case pulseEnd =>
    refine ⟨_, State.nextPeri_dev hp rfl, fun e he => ?_, rfl, rfl⟩
    exact of_decide_eq_true (List.mem_filter.mp he).2
  case capture => exact fun hc => ⟨_, State.nextPeri_dev hp (if_pos hc), rfl, rfl, rfl⟩
  case srcOnly => simp only [he, h0, Bool.false_eq_true, if_false, Nat.zero_ne_one]
  case enable => simp only [he, h1, Bool.false_eq_true, if_false, if_true]
  case stays => simp only [he, h1, if_true]
  case disable => simp only [he, h0, if_true, if_false, Nat.zero_ne_one]
  case step =>
    have hmod : v % 2 ^ 64 = v := Nat.mod_eq_of_lt (lt_of_le_of_lt hv (by decide))
    change d'.hostStep (v % 2 ^ 64) = _
    rw [hmod, Dev.hostStep]
    simp [ho, hl]
    omega
  case clearTb => rw [Dev.verdictClear, if_neg (ne_true_of_eq_false hl)]

end Sys2Proof.Machine
end

section
/-! PROOFS. The card slot (chapter 18): O56. -/

namespace Sys2Proof.Machine

/-! ### CRD_CMD -/

/-- What an operation of CRD_CMD starts from: its OP written, and BUSY set. -/
def Dev.crdOn (d : Dev) (op : Nat) : Dev := d.wrs [(F.CRD_CMD_OP, op), (F.CRD_CMD_BUSY, 1)]

theorem Dev.rd_crdOn (d : Dev) (op : Nat) {f : Fld} (ho : f.key ≠ F.CRD_CMD_OP.key) (hb : f.key ≠ F.CRD_CMD_BUSY.key) :
    (d.crdOn op).rd f = d.rd f := by
  simp only [Dev.crdOn, Dev.wrs, Dev.rd_wr_ne _ _ ho, Dev.rd_wr_ne _ _ hb]

@[simp] theorem Dev.crdOn_slot (d : Dev) (op : Nat) : (d.crdOn op).slot = d.slot := d.rd_crdOn op (by decide) (by decide)
@[simp] theorem Dev.crdOn_allowed (d : Dev) (op n : Nat) : (d.crdOn op).crdAllowed n = d.crdAllowed n := by
  simp only [Dev.crdAllowed, Dev.crdOn_slot]

/-- What an operation of CRD_CMD does while none is busy (R433, R435). -/
theorem Dev.crdCmd_spec {d : Dev} (hb : d.is F.CRD_CMD_BUSY = false) (owned : Bool) (op : Nat) : d.crdCmd owned op =
    if owned then (d.crdOn op).crdDone 12
    else if !d.crdAllowed op || (2 ≤ op && (d.t1Waiting || d.rd F.CBP_STATUS_STATE == 1)) then (d.crdOn op).crdDone 13
    else ((d.crdOn op).crdRun op).kick := by
  rw [← d.crdOn_allowed op op, ← d.rd_crdOn op (f := F.CBP_STATUS_STATE) (by decide) (by decide)]
  exact if_neg (ne_true_of_eq_false hb)

/-- The command of an operation of CRD_CMD, which acts where the requester may use the slot and its state allows it. -/
theorem State.crdCmd_next {s : State} {req : Requester} {op : Nat} (hr : s.reaches req 0xA00044 = true)
    (hb : s.dev.is F.CRD_CMD_BUSY = false) :
    (s.dev.owned req = true → (s.devReg req 0xA00044 fun d => d.crdCmd (d.owned req) op) = .next { s with dev := (s.dev.crdOn op).crdDone 12 }) ∧
    (s.dev.owned req = false → s.dev.crdAllowed op = false →
      (s.devReg req 0xA00044 fun d => d.crdCmd (d.owned req) op) = .next { s with dev := (s.dev.crdOn op).crdDone 13 }) ∧
    (s.dev.owned req = false → s.dev.crdAllowed op = true → (2 ≤ op → s.dev.t1Waiting = false ∧ s.dev.rd F.CBP_STATUS_STATE ≠ 1) →
      (s.devReg req 0xA00044 fun d => d.crdCmd (d.owned req) op) = .next { s with dev := ((s.dev.crdOn op).crdRun op).kick }) := by
  refine ⟨fun ho => State.devReg_dev hr ((Dev.crdCmd_spec hb _ _).trans (if_pos ho)),
    fun ho ha => State.devReg_dev hr ((Dev.crdCmd_spec hb _ _).trans ((if_neg (ne_true_of_eq_false ho)).trans (if_pos (by simp [ha])))),
    fun ho ha hfree => State.devReg_dev hr ((Dev.crdCmd_spec hb _ _).trans ((if_neg (ne_true_of_eq_false ho)).trans (if_neg ?_)))⟩
  by_cases h2 : 2 ≤ op
  · obtain ⟨ht, hw⟩ := hfree h2
    simp [ha, ht, hw]
  · simp [ha, h2]

/-- The end of an operation leaves the slot beside its registers. -/
@[simp] theorem Dev.crdDone_card (d : Dev) (r : Nat) : (d.crdDone r).card = d.card := by
  rw [Dev.crdDone]
  split
  · rfl
  · split <;> rfl

/-- Other fields at the end of an operation. -/
theorem Dev.rd_crdDone (d : Dev) (r : Nat) {f : Fld} (hb : f.key ≠ F.CRD_CMD_BUSY.key) (hr : f.key ≠ F.CRD_CMD_RESULT.key)
    (hl : f.key ≠ F.CRD_STATUS_LAST.key) : (d.crdDone r).rd f = d.rd f := by
  have hends : (d.wrs [(F.CRD_CMD_BUSY, 0), (F.CRD_CMD_RESULT, r)]).rd f = d.rd f := by
    simp only [Dev.wrs, Dev.rd_wr_ne _ _ hb, Dev.rd_wr_ne _ _ hr]
  rw [Dev.crdDone]
  split
  · rfl
  · split
    · exact hends
    · exact (Dev.rd_wr_ne _ _ hl).trans hends

/-- Settles O56. -/
theorem cardSlot : Obligations.CardSlot := by
  unfold Obligations.CardSlot
  intro s req lv ok bs on b cmd n inf whole
  refine ⟨State.crdCmd_next, State.crdCmd_next, State.crdCmd_next, State.crdCmd_next, State.crdCmd_next, State.crdCmd_next,
    State.crdCmd_next, ⟨_, rfl, ?det, rfl, ?detShown⟩, fun hp => ⟨?inserted, ?removed, ?overcurrent, ?setup, ?settle, ?clkStart, ?rstLow,
      ?answer, ?pps, ?block, ?clock⟩⟩
  case det =>
    split
    · rfl
    · rfl
  case detShown =>
    intro hp hon
    have hboth : (s.periRuns && s.crdOn) = true := by rw [hp, hon]; rfl
    dsimp only [State.onDev]
    rw [if_pos hboth]
    refine (Dev.rd_wr_same ..).trans ?_
    cases lv <;> rfl
  case inserted =>
    intro hon hdet hpres
    exact State.nextPeri_dev hp (if_neg (by simp [hon, hdet, hpres]))
  case removed =>
    intro hon hdet hpres
    exact State.nextPeri_dev hp (if_neg (by simp [hon, hdet, hpres]))
  case overcurrent => exact fun hon => State.nextPeri_dev hp (if_neg (by simp [hon]))
  case setup =>
    intro hs hon
    refine ⟨_, State.nextPeri_dev hp rfl, ?_⟩
    simp only [hs, hon, if_true]
    exact ⟨rfl, rfl⟩
  case settle =>
    intro hs
    refine ⟨_, State.nextPeri_dev hp rfl, ?_⟩
    simp only [hs]
    rfl
  case clkStart | rstLow =>
    intro hs
    refine ⟨_, State.nextPeri_dev hp rfl, ?_⟩
    simp only [hs]
    exact ⟨rfl, rfl⟩
  case answer =>
    intro hs
    have hstep : (s.dev.card.step == .awaitTs) = true := beq_iff_eq.mpr hs
    exact ⟨State.nextPeri_dev hp (if_pos hstep), State.nextPeri_dev hp (if_pos hstep), State.nextPeri_dev hp (if_pos hstep)⟩
  case pps =>
    intro hs
    have hstep : ¬ (s.dev.card.step != .pps) = true := by simp [hs]
    exact ⟨State.nextPeri_dev hp (if_pos (beq_iff_eq.mpr hs)),
      fun hl => State.nextPeri_dev hp ((if_neg hstep).trans (if_pos (beq_iff_eq.mpr hl))),
      fun hl => State.nextPeri_dev hp ((if_neg hstep).trans (if_neg fun h => hl (beq_iff_eq.mp h)))⟩
  case block =>
    intro hw
    have hwaits : ¬ (!s.dev.t1Waiting) = true := by simp [hw]
    have hread (hwhole : whole) : ¬ (!true || !(bs.length == 3 + n + (if s.dev.is F.CRD_PARAM2_EDC then 2 else 1) &&
        bs.drop (3 + n) == s.dev.t1Edc (bs.take (3 + n)))) = true ∧ ¬ (bytesAt bs 0 1 != 0 || s.dev.rd F.CRD_T1_IFSD < n) = true := by
      obtain ⟨hlen, hedc, hnad, hn⟩ := hwhole
      exact ⟨by simp [hlen, hedc], by simp [hnad, hn]⟩
    refine ⟨State.nextPeri_dev hp (if_pos hw), State.nextPeri_dev hp ((if_neg hwaits).trans (congrArg Dev.kick (if_pos rfl))),
      fun hwhole hi => State.nextPeri_dev hp ((if_neg hwaits).trans (congrArg Dev.kick ?iBlock)),
      fun hwhole hr hlt hn => State.nextPeri_dev hp ((if_neg hwaits).trans (congrArg Dev.kick ?rBlock)),
      fun hwhole hs => State.nextPeri_dev hp ((if_neg hwaits).trans (congrArg Dev.kick ?sBlock))⟩
    case iBlock => exact (if_neg (hread hwhole).1).trans ((if_neg (hread hwhole).2).trans (if_pos hi))
    case rBlock =>
      exact (if_neg (hread hwhole).1).trans ((if_neg (hread hwhole).2).trans ((if_neg (Nat.not_lt.mpr hr)).trans ((if_pos hlt).trans (if_pos hn))))
    case sBlock =>
      exact (if_neg (hread hwhole).1).trans ((if_neg (hread hwhole).2).trans
        ((if_neg (by omega)).trans (if_neg (Nat.not_lt.mpr hs))))
  case clock =>
    intro hstop hslot
    refine ⟨_, State.nextPeri_dev hp (if_pos (by simp [hstop, hslot])), ?_, ?_, ?_, rfl⟩
    · exact congrArg Card.clkStop (Dev.crdDone_card ..)
    · exact congrArg Card.clk (Dev.crdDone_card ..)
    · exact (Dev.rd_crdDone _ _ (by decide) (by decide) (by decide)).trans (Dev.rd_wr_same ..)

end Sys2Proof.Machine
end

section
/-! PROOFS. The cartridge bus (chapter 19): O57. -/

namespace Sys2Proof.Machine

/-- What an operation of CBP_CMD starts from: its OP written, and BUSY set. -/
def Dev.cbpOn (d : Dev) (op : Nat) : Dev := d.wrs [(F.CBP_CMD_OP, op), (F.CBP_CMD_BUSY, 1)]

theorem Dev.rd_cbpOn (d : Dev) (op : Nat) {f : Fld} (ho : f.key ≠ F.CBP_CMD_OP.key) (hb : f.key ≠ F.CBP_CMD_BUSY.key) :
    (d.cbpOn op).rd f = d.rd f := by
  simp only [Dev.cbpOn, Dev.wrs, Dev.rd_wr_ne _ _ ho, Dev.rd_wr_ne _ _ hb]

@[simp] theorem Dev.cbpOn_card (d : Dev) (op : Nat) : (d.cbpOn op).card = d.card := rfl
@[simp] theorem Dev.cbpOn_slot (d : Dev) (op : Nat) : (d.cbpOn op).slot = d.slot := d.rd_cbpOn op (by decide) (by decide)
@[simp] theorem Dev.cbpOn_state (d : Dev) (op : Nat) : (d.cbpOn op).rd F.CBP_STATUS_STATE = d.rd F.CBP_STATUS_STATE :=
  d.rd_cbpOn op (by decide) (by decide)
@[simp] theorem Dev.cbpOn_rate (d : Dev) (op : Nat) : (d.cbpOn op).rd F.CBP_CFG_RATE = d.rd F.CBP_CFG_RATE :=
  d.rd_cbpOn op (by decide) (by decide)
@[simp] theorem Dev.cbpOn_idle (d : Dev) (op : Nat) : (d.cbpOn op).cbpIdle = d.cbpIdle := by
  rw [Dev.cbpIdle, Dev.cbpOn_state]
  rfl

/-- What an operation of CBP_CMD does with a card in the slot while none is busy (R433, R455). -/
theorem Dev.cbpCmd_spec {d : Dev} (hb : d.is F.CBP_CMD_BUSY = false) (owned : Bool) (op : Nat) : d.cbpCmd owned op =
    if owned then (d.cbpOn op).cbpDone 8
    else if d.slot = 0 then (d.cbpOn op).cbpDone 1
    else if op = 0 then
      if (d.slot == 3 || d.slot == 4) && d.card.t1.job == .none && d.rd F.CBP_STATUS_STATE == 0 then
        (d.cbpOn op).wideRequest (d.rd F.CBP_CFG_RATE)
      else (d.cbpOn op).cbpDone 9
    else if !(d.slot == 5) then (d.cbpOn op).cbpDone 9
    else if op = 2 then
      if d.rd F.CBP_STATUS_STATE = 4 && d.cbpIdle then (d.cbpOn op).wakeStart else (d.cbpOn op).cbpDone 9
    else if d.cbpIdle then (d.cbpOn op).hostOpStart op
    else (d.cbpOn op).onCbp fun c => { c with hostOp := some op } := by
  rw [← d.cbpOn_slot op, ← d.cbpOn_state op, ← d.cbpOn_rate op, ← d.cbpOn_idle op]
  exact if_neg (ne_true_of_eq_false hb)

/-- Settles O57. -/
theorem cartridgeBus : Obligations.CartridgeBus := by
  unfold Obligations.CartridgeBus
  intro s req m pcb fr inf on b
  refine ⟨fun hr hb => ?commands, fun hp => ⟨?low, ?wide, ?iFrame, ?rFrame, ?broken, ?wtx, ?timeout, ?resynch, ?idle, ?asleep, ?awake⟩⟩
  case commands =>
    have hcmd (op : Nat) {d : Dev} (h : s.dev.cbpCmd (s.dev.owned req) op = d) :
        (s.devReg req 0xA02014 fun d => d.cbpCmd (d.owned req) op) = .next { s with dev := d } := State.devReg_dev hr h
    have hspec := Dev.cbpCmd_spec hb
    have howned (ho : s.dev.owned req = true) (op : Nat) := hcmd op ((hspec _ op).trans (if_pos ho))
    refine ⟨fun ho => ⟨howned ho 0, howned ho 1, howned ho 2, howned ho 3⟩, fun ho hslot hjob hst => hcmd 0 ((hspec _ 0).trans ?enter),
      fun ho hslot hi => ⟨hcmd 1 ((hspec _ 1).trans ?sleep), hcmd 3 ((hspec _ 3).trans ?raw)⟩,
      fun ho hslot hi => ⟨hcmd 1 ((hspec _ 1).trans ?sleepLater), hcmd 3 ((hspec _ 3).trans ?rawLater)⟩,
      fun ho hslot hi hst => hcmd 2 ((hspec _ 2).trans ?wake)⟩
    case enter =>
      have hcard : s.dev.slot ≠ 0 := by omega
      simp only [ho, hcard, hjob, hst, Bool.false_eq_true, if_false, if_true, beq_self_eq_true, Bool.and_true, Bool.or_eq_true, beq_iff_eq]
      exact if_pos hslot
    case sleep | raw | sleepLater | rawLater => simp [ho, hslot, hi, on, Dev.cbpOn]
    case wake => simp [ho, hslot, hi, hst, on, Dev.cbpOn]
  case low =>
    intro hs
    refine ⟨_, State.nextPeri_dev hp rfl, ?_⟩
    simp only [hs]
    exact ⟨rfl, rfl, rfl, rfl, trivial⟩
  case wide =>
    intro hs
    refine ⟨_, State.nextPeri_dev hp rfl, ?_⟩
    simp only [hs]
    exact ⟨rfl, rfl, Dev.rd_wr_same ..⟩
  case iFrame =>
    intro hw hf hlt
    refine State.nextPeri_dev hp ((if_neg (by simp [hw])).trans ?_)
    simp only [hf, if_pos hlt]
  case rFrame =>
    intro hw hf hr
    refine State.nextPeri_dev hp ((if_neg (by simp [hw])).trans ?_)
    simp only [hf]
    exact congrArg Dev.kick (if_pos (by simp [hr]))
  case broken =>
    intro hw hf
    refine ⟨State.nextPeri_dev hp ((if_neg (by simp [hw])).trans ?_), State.nextPeri_dev hp ((if_neg (by simp [hw])).trans ?_)⟩ <;>
      simp only [hf]
  case wtx =>
    intro hw h0 hm hr
    exact ⟨_, State.nextPeri_dev hp ((if_neg (by simp [hw])).trans (if_neg (by simp [hr]; omega))), rfl, rfl, rfl⟩
  case timeout => exact fun hw => State.nextPeri_dev hp (if_pos hw)
  case resynch =>
    intro hr hwake hsleep
    refine State.nextPeri_dev hp ((if_neg (by simp [hr])).trans ?_)
    exact congrArg Dev.kick ((if_neg (ne_true_of_eq_false hwake)).trans (if_neg (ne_true_of_eq_false hsleep)))
  case idle =>
    intro hslot hidle hst hfree hop hjob
    exact State.nextPeri_dev hp (if_pos (by simp [hslot, hidle, hst, hfree, hop, hjob]))
  case asleep => exact fun hs hr => State.nextPeri_dev hp (if_neg (by simp [hs, hr]))
  case awake => exact fun hw hr => State.nextPeri_dev hp (if_pos (by simp [hw, hr]))

end Sys2Proof.Machine
end

section
/-! PROOFS. The media engine (chapter 20): O58. -/

namespace Sys2Proof.Machine

/-- What an operation of MED_CMD starts from: its OP written, and BUSY set. -/
def Dev.medOn (d : Dev) (op : Nat) : Dev := d.wrs [(F.MED_CMD_OP, op), (F.MED_CMD_BUSY, 1)]

theorem Dev.rd_medOn (d : Dev) (op : Nat) {f : Fld} (ho : f.key ≠ F.MED_CMD_OP.key) (hb : f.key ≠ F.MED_CMD_BUSY.key) :
    (d.medOn op).rd f = d.rd f := by
  simp only [Dev.medOn, Dev.wrs, Dev.rd_wr_ne _ _ ho, Dev.rd_wr_ne _ _ hb]

/-- An accepted operation, which the engine goes on with. -/
def Dev.medGo (d : Dev) (op : Nat) : Dev := (d.medOn op).onMed fun m => { m with cmd := some op }

/-- What an operation of MED_CMD does while none is busy (R433, R474). -/
theorem Dev.medCmd_spec {d : Dev} (hb : d.is F.MED_CMD_BUSY = false) (owned : Bool) (op : Nat) : d.medCmd owned op =
    if owned && op < 2 then (d.medOn op).medDone 8
    else if op = 0 then
      if d.rd F.MED_STATUS_STATE = 2 then (d.medOn op).medDone 0
      else if d.rd F.MED_STATUS_STATE = 1 then d.medGo op else (d.medGo op).mountBegin.kick
    else if d.rd F.MED_STATUS_STATE != 2 then (d.medOn op).medDone 9
    else if op = 1 then ((d.medGo op).onMed fun m => { m with mapDue := m.mapDue || d.is F.MED_STATUS_UNSAVED }).kick
    else (d.medGo op).kick := by
  rw [Dev.is, ← d.rd_medOn op (f := F.MED_STATUS_STATE) (by decide) (by decide),
    ← d.rd_medOn op (f := F.MED_STATUS_UNSAVED) (by decide) (by decide)]
  exact if_neg (ne_true_of_eq_false hb)

/-- Settles O58. -/
theorem mediaEngine : Obligations.MediaEngine := by
  unfold Obligations.MediaEngine
  intro s req q blk p pg e1 e2 e3 x raw r ps on go b
  refine ⟨fun h hm => State.goHead_next h (if_neg (by simp [hm])), fun h hm => State.goHead_next h (if_neg (by simp [hm])),
    fun hr hb => ?commands, fun hp => ⟨?page, ?program, ?erase, ?patrol, ?refresh, ?flush, ?head⟩⟩
  case commands =>
    have hcmd (op : Nat) {d : Dev} (h : s.dev.medCmd (s.dev.owned req) op = d) :
        (s.devReg req 0xA0400C fun d => d.medCmd (d.owned req) op) = .next { s with dev := d } := State.devReg_dev hr h
    have hspec := Dev.medCmd_spec hb
    refine ⟨fun ho => ⟨hcmd 0 ((hspec _ 0).trans ?owned), hcmd 1 ((hspec _ 1).trans ?owned1)⟩,
      fun ho h1 h2 => hcmd 0 ((hspec _ 0).trans ?mount),
      fun ho h2 => ⟨hcmd 0 ((hspec _ 0).trans ?mounted), hcmd 1 ((hspec _ 1).trans ?unmount)⟩,
      fun h2 => ⟨hcmd 2 ((hspec _ 2).trans ?flushes), hcmd 3 ((hspec _ 3).trans ?appends)⟩,
      fun h2 => ⟨hcmd 2 ((hspec _ 2).trans ?noFlush), hcmd 3 ((hspec _ 3).trans ?noAppend)⟩⟩
    case owned | owned1 => simp [ho, on, Dev.medOn]
    case mount => simp [ho, h1, h2, go, on, Dev.medOn, Dev.medGo]
    case mounted | unmount => simp [ho, h2, go, on, Dev.medOn, Dev.medGo]
    case flushes | appends | noFlush | noAppend => simp [h2, go, on, Dev.medOn, Dev.medGo]
  case page =>
    intro hg hl
    exact (State.inPeri_of_runs hp _).trans (if_pos (by simp [hg, hl]))
  case program => exact fun hg => State.nextPeri_dev hp (if_pos hg)
  case erase => exact fun hg => State.nextPeri_dev hp (if_pos hg)
  case patrol => exact fun hm h0 => State.nextPeri_dev hp (if_pos (by simp [hm, h0]))
  case refresh =>
    intro hdue hm hjob hnext hremap
    refine State.nextPeri_dev hp ?_
    simp [hdue, hm, hjob, hnext, hremap]
  case flush => exact fun h0 hl => State.nextPeri_dev hp (if_pos (by simp [h0, hl]))
  case head =>
    intro hm hlog
    have hgo : ¬ (!s.dev.isMounted || s.dev.is F.MED_STATUS_LOG_READY) = true := by simp [hm, hlog]
    refine ⟨State.nextPeri_dev hp ((if_neg hgo).trans ?_), fun h1 ht => State.nextPeri_dev hp ((if_neg hgo).trans ?_)⟩
    · simp only [if_true]
    · simp only [if_neg h1, if_neg (Nat.not_lt.mpr ht)]

end Sys2Proof.Machine
end

section
/-! PROOFS. The clasp links (chapter 21): O59. -/

namespace Sys2Proof.Machine

/-- The ACK of a flit leaves the registers. -/
@[simp] theorem Dev.acked_portState (d : Dev) (p ack i : Nat) : (d.acked p ack).portState i = d.portState i := by
  rw [Dev.acked]
  split <;> rfl

/-- A good flit without NAK while the port is up (R478, R479). -/
theorem State.flitReceived_next {s : State} {p : Nat} {fl : BitVec 256} {d : Dev} (hp : s.periRuns = true) (h4 : p < 4)
    (hup : s.dev.portState p = 2) (hcrc : bits fl.toNat 224 32 = (crc32 (toBytes 28 fl.toNat)).toNat) (hnak : bits fl.toNat 24 1 = 0)
    (h : (if flitVc fl = 3 then (s.dev.acked p (bits fl.toNat 12 12)).credited p fl
      else if fl.toNat % 4096 = ((s.dev.port p).lastIn + 1) % 4096 then
        ((s.dev.acked p (bits fl.toNat 12 12)).setPort p { (s.dev.acked p (bits fl.toNat 12 12)).port p with
          lastIn := fl.toNat % 4096 }).idleSend p false (some (flitPool fl))
      else (s.dev.acked p (bits fl.toNat 12 12)).idleSend p true none) = d) :
    exec (.flitReceived p fl) s = .next { s with dev := d.portKick p } := by
  refine State.nextPeri_dev hp ((if_neg (by simp [Nat.not_le.mpr h4, hup])).trans ((if_neg (by simp [hcrc])).trans ?_))
  have hno : ¬ bits fl.toNat 24 1 = 1 := by omega
  have hstate : ¬ ((s.dev.acked p (bits fl.toNat 12 12)).portState p != 2) = true := by simp [hup]
  simp only [if_neg hno]
  exact congrArg (Dev.portKick · p) ((if_neg hstate).trans h)

/-- Settles O59. -/
theorem claspEvents : Obligations.ClaspEvents := by
  unfold Obligations.ClaspEvents
  intro s req p rt wd v q tag bar hop pa key x m r fl e b stray w k gen
  refine ⟨fun h4 hr => State.devReg_dev hr (if_pos h4), fun h hin hw ho hup => State.goHead_next h ?barrier, fun hp => ⟨?linkUp,
    fun h4 hst => State.nextPeri_dev hp (if_pos (by simpa [h4] using hst)),
    fun h4 hst => ⟨fun hcrc => State.nextPeri_dev hp ((if_neg ?up).trans (if_pos (bne_iff_ne.mpr hcrc))), fun hcrc hnak =>
        ⟨fun hvc => State.flitReceived_next hp h4 hst hcrc hnak (if_pos hvc),
          fun hvc hseq => State.flitReceived_next hp h4 hst hcrc hnak ((if_neg hvc).trans (if_pos hseq))⟩,
      State.nextPeri_dev hp (if_pos (by simp [h4, hst]))⟩,
    fun hd hroute => ?forward, fun hd => ⟨?writePart, ?writeWhole, ?readGood, ?writeRefused, ?readRefused⟩, fun hreq => ?reply, ?reqTimeout,
    fun hd => ⟨?arriveFirst, ?arriveWaits, ?abandon⟩, ?barrierTimeout⟩⟩
  case barrier =>
    have haccept : ¬ (!(dfld x 10 0 16).testBit s.dev.chip || e.wait.isSome || (e.owner.any fun o => o != s.dev.qctx q)) = true := by
      rcases ho with ho | ho <;> simp [hin, hw, ho]
    exact (if_neg haccept).trans (if_neg (ne_true_of_eq_false hup))
  case linkUp =>
    intro h4 harm hst hv hpeer hrate hw hmin
    have hok : ¬ (!(decide (p < 4) && (s.dev.portState p == 1 || s.dev.portState p == 3 || (p == 3 && s.dev.is F.PAIR_STATUS_ASLEEP)) &&
        decide (rt ≤ s.dev.rd (F.CLS_PORT_CFG_MAXRATE p)) && decide (wd ≤ 1) && decide (s.dev.rd (F.CLS_PORT_CFG_MINWIDTH p) ≤ wd) &&
        v != s.dev.chip && decide (v < 16))) = true := by
      rcases hst with hst | hst <;> simp [h4, hst, hrate, hw, hmin, hv, bne, hpeer]
    exact State.nextPeri_dev hp ((if_neg (by simp [harm])).trans (if_neg hok))
  case up => simp [Nat.not_le.mpr h4, hst]
  case forward =>
    have hother : ¬ m.dst = s.dev.chip := fun h => by simp [h] at hd
    refine ⟨fun h3 => State.nextPeri_dev hp ((if_neg hother).trans ?_), fun h3 => State.nextPeri_dev hp ((if_neg hother).trans ?_)⟩
    · simp only [hroute]
      exact if_neg (Nat.not_le.mpr h3)
    · simp only [hroute]
      exact if_pos h3
  case writePart =>
    intro hlen hwin
    have hlands : (s.dev.winRead m).window m m.data.length true = .inl (pa, key) := hwin
    have hne : m.data.length ≠ 64 := by omega
    refine State.nextPeri_dev hp ((if_neg (by simp [hd])).trans ?_)
    simp only [hlands, if_neg hne]
    rfl
  case writeWhole =>
    intro hlen hwin
    have hlands : (s.dev.winRead m).window m m.data.length true = .inl (pa, key) := hlen ▸ hwin
    refine State.nextPeri_dev hp ((if_neg (by simp [hd])).trans ?_)
    simp only [hlands, if_pos hlen]
    rfl
  case readGood =>
    intro hwin hgood
    have hlands : (s.dev.winRead m).window m (m.len + 1) false = .inl (pa, key) := hwin
    have hclean : (s.dev.winRead m).badGran pa (m.len + 1) = none := hgood
    refine State.nextPeri_dev hp ((if_neg (by simp [hd])).trans ?_)
    simp only [hlands, hclean]
    rfl
  case writeRefused =>
    intro hwin
    have hrefused : (s.dev.winRead m).window m m.data.length true = .inr v := hwin
    refine State.nextPeri_dev hp ((if_neg (by simp [hd])).trans ?_)
    simp only [hrefused]
    rfl
  case readRefused =>
    intro hwin
    have hrefused : (s.dev.winRead m).window m (m.len + 1) false = .inr v := hwin
    refine State.nextPeri_dev hp ((if_neg (by simp [hd])).trans ?_)
    simp only [hrefused]
    rfl
  case reply =>
    refine ⟨fun hw => State.nextPeri_dev hp ?_, fun hr hl => State.nextPeri_dev hp ?_, fun hr hl => State.nextPeri_dev hp ?_,
      State.nextPeri_dev hp ?_⟩
    · simp [hreq, hw]
    · simp [hreq, hr, hl]
    · simp [hreq, hr, hl]
    · simp only [hreq]
  case reqTimeout =>
    intro hreq
    refine State.nextPeri_dev hp ?_
    simp only [hreq]
  case arriveFirst =>
    intro hwait
    have hw : (s.dev.bar (m.arg % 256)).wait = none := hwait
    refine State.nextPeri_dev hp ((if_neg (by simp [hd])).trans ?_)
    simp only [hw]
    rfl
  case arriveWaits =>
    intro n i ms hwait hmember
    have hw : (s.dev.bar (m.arg % 256)).wait = some (n, i, ms) := hwait
    refine State.nextPeri_dev hp ((if_neg (by simp [hd])).trans ?_)
    simp only [hw]
    refine if_neg fun h => ?_
    obtain ⟨hgen, hno⟩ := (Bool.and_eq_true ..).mp h
    rcases hmember with hm | hm
    · exact ne_true_of_eq_false hm hgen
    · simp [hm] at hno
  case abandon =>
    intro hwait hgen
    have hgen' : (s.dev.bar (m.arg % 256)).gen = m.arg.testBit 8 := hgen
    have hsome : (s.dev.bar (m.arg % 256)).wait.isSome = true := Option.isSome_iff_ne_none.mpr hwait
    exact State.nextPeri_dev hp (if_pos (by simp [hd, hsome, hgen']))
  case barrierTimeout =>
    intro n i ms hwait hi h0
    refine State.nextPeri_dev hp ?_
    simp only [hwait, hi]
    exact if_neg h0

end Sys2Proof.Machine
end

section
/-! PROOFS. The cufflink pair (chapter 22): O60. -/

namespace Sys2Proof.Machine

/-! ### Roles -/

/-- The role is found in its field and the fuse. -/
theorem Dev.role_congr {d e : Dev} (hs : e.strap = d.strap) (hf : e.rd F.GLB_FUSE_PAIR_EN = d.rd F.GLB_FUSE_PAIR_EN)
    (hr : e.rd F.PAIR_STATUS_ROLE = d.rd F.PAIR_STATUS_ROLE) : e.role = d.role := by
  have hp : e.isPair = d.isPair := by simp only [Dev.isPair, Dev.paired, Dev.is, hs, hf]
  rw [Dev.role, Dev.role, hp, hr]

/-- Only a member of a pair has a role. -/
theorem Dev.isPair_of_role {d : Dev} (h : d.role ≠ 0) : d.isPair = true := by
  by_contra hp
  exact h (if_neg hp)

theorem Dev.role_wr (d : Dev) {f : Fld} (v : Nat) (hf : F.GLB_FUSE_PAIR_EN.key ≠ f.key) (hr : F.PAIR_STATUS_ROLE.key ≠ f.key) :
    (d.wr f v).role = d.role := Dev.role_congr rfl (Dev.rd_wr_ne _ _ hf) (Dev.rd_wr_ne _ _ hr)

@[simp] theorem Dev.onPair_role (d : Dev) (f : Pair → Pair) : (d.onPair f).role = d.role := rfl

@[simp] theorem Dev.tbTo_role (d : Dev) (t : Nat) : (d.tbTo t).role = d.role := Dev.role_wr _ _ (by decide) (by decide)

/-! ### PAIR_CMD -/

/-- What an operation of PAIR_CMD starts from: its OP written, and BUSY set. -/
def Dev.pairOn (d : Dev) (op : Nat) : Dev := d.wrs [(F.PAIR_CMD_OP, op), (F.PAIR_CMD_BUSY, 1)]

/-- The other fields stay. -/
theorem Dev.pairOn_rd (d : Dev) (op : Nat) {f : Fld} (ho : f.key ≠ F.PAIR_CMD_OP.key) (hb : f.key ≠ F.PAIR_CMD_BUSY.key) :
    (d.pairOn op).rd f = d.rd f := (Dev.rd_wr_ne _ _ hb).trans (Dev.rd_wr_ne _ _ ho)

@[simp] theorem Dev.pairOn_role (d : Dev) (op : Nat) : (d.pairOn op).role = d.role :=
  Dev.role_congr rfl (d.pairOn_rd op (by decide) (by decide)) (d.pairOn_rd op (by decide) (by decide))

@[simp] theorem Dev.pairOn_pair (d : Dev) (op : Nat) : (d.pairOn op).pair = d.pair := rfl

@[simp] theorem Dev.pairOn_portState (d : Dev) (op : Nat) : (d.pairOn op).portState 3 = d.portState 3 :=
  d.pairOn_rd op (by decide) (by decide)

/-- An operation of PAIR_CMD is taken by a member of a pair while none is busy. -/
theorem Dev.pairCmd_taken {d : Dev} {op : Nat} (hb : d.is F.PAIR_CMD_BUSY = false) (hp : d.isPair = true) (ho : op < 3) :
    ¬ ((d.is F.PAIR_CMD_BUSY || !d.isPair || decide (3 ≤ op)) = true) := by simp [hb, hp, ho]

theorem Dev.pairCmd_switchover {d : Dev} (hb : d.is F.PAIR_CMD_BUSY = false) (hp : d.isPair = true) (hr : d.role = 2)
    (ha : d.is F.PAIR_STATUS_ASLEEP = false) (hs : d.pair.peerRole = 3) :
    d.pairCmd 0 = ((d.pairOn 0).holdQueues true).onPair fun p => { p with switching := 1 } := by
  refine (if_neg (Dev.pairCmd_taken hb hp (by decide))).trans ((if_neg ?_).trans (if_neg ?_))
  · change ¬ (((d.pairOn 0).role != 2 || d.is F.PAIR_STATUS_ASLEEP) = true)
    simp [hr, ha]
  · change ¬ ((d.pairOn 0).pair.peerRole != 3) = true
    simp [hs]

theorem Dev.pairCmd_sleep {d : Dev} (hb : d.is F.PAIR_CMD_BUSY = false) (hp : d.isPair = true) (hr : d.role = 2 ∨ d.role = 3)
    (ha : d.is F.PAIR_STATUS_ASLEEP = false) (hs : d.portState 3 = 2) : d.pairCmd 1 = (d.pairOn 1).pairSend 0x28 0 [] := by
  refine (if_neg (Dev.pairCmd_taken hb hp (by decide))).trans ((if_neg ?_).trans (if_neg ?_))
  · change ¬ ((d.is F.PAIR_STATUS_ASLEEP || !((d.pairOn 1).role == 2 || (d.pairOn 1).role == 3)) = true)
    rcases hr with hr | hr <;> simp [hr, ha]
  · change ¬ ((d.pairOn 1).portState 3 != 2) = true
    simp [hs]

theorem Dev.pairCmd_wake {d : Dev} (hb : d.is F.PAIR_CMD_BUSY = false) (hp : d.isPair = true) (ha : d.is F.PAIR_STATUS_ASLEEP = true) :
    d.pairCmd 2 = ((d.pairOn 2).wrs [(F.PAIR_STATUS_ASLEEP, 0), (F.CLS_PORT_STAT_STATE 3, 3)]).onPair
      fun p => { p with wakePending := true, posDone := false } :=
  (if_neg (Dev.pairCmd_taken hb hp (by decide))).trans (if_neg (by simp [ha]))

/-! ### What keeps the pairing -/

/-- The role, the partner's role as known, the loss of the partner and the drive of the outputs stay. -/
structure Dev.SamePairing (d e : Dev) : Prop where
  peerRole : e.pair.peerRole = d.pair.peerRole
  driving : e.tb.driving = d.tb.driving
  role : e.rd F.PAIR_STATUS_ROLE = d.rd F.PAIR_STATUS_ROLE
  lost : e.rd F.PAIR_STATUS_PARTNER_LOST = d.rd F.PAIR_STATUS_PARTNER_LOST

theorem Dev.SamePairing.refl (d : Dev) : d.SamePairing d := ⟨rfl, rfl, rfl, rfl⟩

theorem Dev.SamePairing.trans {d e f : Dev} (h : d.SamePairing e) (h' : e.SamePairing f) : d.SamePairing f :=
  ⟨h'.peerRole.trans h.peerRole, h'.driving.trans h.driving, h'.role.trans h.role, h'.lost.trans h.lost⟩

/-- A fold keeps the pairing when each of its steps does. -/
theorem Dev.samePairing_foldl {f : Dev → Nat → Dev} {l : List Nat} (hf : ∀ d : Dev, ∀ i ∈ l, d.SamePairing (f d i)) (d : Dev) :
    d.SamePairing (l.foldl f d) := by
  induction l generalizing d with
  | nil => exact .refl d
  | cons i l ih => exact (hf d i List.mem_cons_self).trans (ih (fun d j hj => hf d j (List.mem_cons_of_mem i hj)) _)

theorem Dev.samePairing_wr (d : Dev) {f : Fld} (v : Nat) (hr : F.PAIR_STATUS_ROLE.key ≠ f.key)
    (hl : F.PAIR_STATUS_PARTNER_LOST.key ≠ f.key) : d.SamePairing (d.wr f v) :=
  ⟨rfl, rfl, Dev.rd_wr_ne _ _ hr, Dev.rd_wr_ne _ _ hl⟩

theorem Dev.samePairing_onPair (d : Dev) {f : Pair → Pair} (h : (f d.pair).peerRole = d.pair.peerRole) : d.SamePairing (d.onPair f) :=
  ⟨h, rfl, rfl, rfl⟩

theorem Dev.samePairing_setQueue (d : Dev) (q : Nat) (x : Queue) : d.SamePairing (d.setQueue q x) := ⟨rfl, rfl, rfl, rfl⟩

theorem Dev.samePairing_holdQueues (d : Dev) (on : Bool) : d.SamePairing (d.holdQueues on) :=
  Dev.samePairing_foldl (fun d q _ => d.samePairing_setQueue q _) d

theorem Dev.SameWork.samePairing {d e : Dev} (h : d.SameWork e) (hh : d.SameHigh e) : d.SamePairing e := by
  have hr := hh F.PAIR_STATUS_ROLE (by decide)
  have hl := hh F.PAIR_STATUS_PARTNER_LOST (by decide)
  obtain ⟨_, _, _, _, _, _, _, rfl⟩ := h
  exact ⟨rfl, rfl, hr, hl⟩

theorem Dev.samePairing_irq (d : Dev) (i : Nat) : d.SamePairing (d.irq i) := (d.sameWork_irq i).samePairing (d.sameHigh_irq i)

theorem Dev.samePairing_postInfo (d : Dev) (src code data : Nat) : d.SamePairing (d.postInfo src code data) :=
  (d.sameWork_post _).samePairing (d.sameHigh_post _)

theorem Dev.SameButClasp.samePairing {d e : Dev} (h : d.SameButClasp e) : d.SamePairing e := by
  obtain ⟨_, _, rfl⟩ := h
  exact ⟨rfl, rfl, rfl, rfl⟩

theorem Dev.samePairing_pairSend (d : Dev) (mtype arg : Nat) (bs : List Byte) : d.SamePairing (d.pairSend mtype arg bs) :=
  (d.sameButClasp_sendOn 3 0 _).samePairing

theorem Dev.samePairing_ship (d : Dev) (q n : Nat) (c : Commit) : d.SamePairing (d.ship q n c) := by
  rw [Dev.ship]
  refine .trans ?_ (Dev.samePairing_onPair _ rfl)
  refine .trans ?_ (Dev.samePairing_pairSend _ _ _ _)
  exact Dev.samePairing_foldl (fun d k _ => d.samePairing_pairSend _ _ _) d

theorem Dev.samePairing_putWord (d : Dev) {i : Nat} (value quality : Nat) (hi : i < 1024) : d.SamePairing (d.putWord i value quality) := by
  have hword : ∀ e : Dev, ∀ v, e.SamePairing (e.wr (F.VP_TABLE_WORD i) v) := fun e v =>
    e.samePairing_wr v (by simp only [Fld.key, F.PAIR_STATUS_ROLE, F.VP_TABLE_WORD]; omega)
      (by simp only [Fld.key, F.PAIR_STATUS_PARTNER_LOST, F.VP_TABLE_WORD]; omega)
  have hcount : ∀ e : Dev, e.SamePairing (e.bump F.VP_UPDATES_COUNT) := fun e => e.samePairing_wr _ (by decide) (by decide)
  rw [Dev.putWord]
  refine Dev.SamePairing.trans ?_ ((hword _ _).trans (hcount _))
  split
  · exact Dev.samePairing_onPair d (f := fun p => { p with dirty := _, dirtySleep := _ }) rfl
  · exact .refl d

theorem Dev.samePairing_resyncWords (d : Dev) : d.SamePairing (d.resyncWords d.blockWords) :=
  Dev.samePairing_foldl (fun d _ hi => d.samePairing_putWord _ 5 (List.mem_range.mp (List.mem_filter.mp hi).1)) d

theorem Dev.samePairing_releaseQueues (d : Dev) : d.SamePairing d.releaseQueues := by
  refine Dev.samePairing_foldl (fun d q hq => ?_) d
  have hlt : q < 64 := List.mem_range.mp (List.mem_filter.mp hq).1
  have hkey : ∀ e : Dev, ∀ f : Fld, ∀ v, f.key < 0x700000 * 64 → e.SamePairing (e.wr f v) := fun e f v h =>
    (e.sameWork_wr f v).samePairing (e.sameHigh_wr v h)
  exact (((d.samePairing_setQueue q _).trans (hkey _ _ _ (by simp only [Fld.key, F.Q_HEAD_HEAD]; omega))).trans
    (hkey _ _ _ (by simp only [Fld.key, F.Q_TAIL_TAIL]; omega))).trans
    ((hkey _ _ _ (by simp only [Fld.key, F.Q_CPL_TAIL_TAIL]; omega)).trans (hkey _ _ _ (by simp only [Fld.key, F.Q_CPL_TAIL_PHASE]; omega)))

/-- A change of role sets the role and keeps the partner's. -/
theorem Dev.setRole_pairing (d : Dev) {r : Nat} (h : d.role ≠ r) (hr : r < 8) :
    (d.setRole r).rd F.PAIR_STATUS_ROLE = r ∧ (d.setRole r).pair.peerRole = d.pair.peerRole := by
  have hheld := (d.wr F.PAIR_STATUS_ROLE r).samePairing_holdQueues (r != 2)
  rw [Dev.setRole, if_neg h]
  have hevent := fun e : Dev => (e.samePairing_irq 69).trans (Dev.samePairing_postInfo _ 42 0x1A00 (d.role + 256 * r))
  exact ⟨(hevent _).role.trans (hheld.role.trans ((Dev.rd_wr_same _ _ _).trans (Nat.mod_eq_of_lt hr))), (hevent _).peerRole.trans hheld.peerRole⟩

/-! ### The clauses that end in a chain of changes -/

/-- A heartbeat notes that the partner is up. -/
def Dev.heard (d : Dev) : Dev := d.wrs [(F.PAIR_STATUS_PARTNER_UP, 1), (F.PAIR_STATUS_PARTNER_LOST, 0)]

/-- The other fields stay. -/
theorem Dev.heard_rd (d : Dev) {f : Fld} (hu : f.key ≠ F.PAIR_STATUS_PARTNER_UP.key) (hl : f.key ≠ F.PAIR_STATUS_PARTNER_LOST.key) :
    d.heard.rd f = d.rd f := (Dev.rd_wr_ne _ _ hl).trans (Dev.rd_wr_ne _ _ hu)

@[simp] theorem Dev.heard_role (d : Dev) : d.heard.role = d.role :=
  Dev.role_congr rfl (d.heard_rd (by decide) (by decide)) (d.heard_rd (by decide) (by decide))

theorem Dev.heard_up (d : Dev) : d.heard.rd F.PAIR_STATUS_PARTNER_UP = 1 :=
  (Dev.rd_wr_ne (d.wr F.PAIR_STATUS_PARTNER_UP 1) (f := F.PAIR_STATUS_PARTNER_LOST) 0 (by decide)).trans
    (Dev.rd_wr_same d F.PAIR_STATUS_PARTNER_UP 1)

theorem Dev.heard_lost (d : Dev) : d.heard.rd F.PAIR_STATUS_PARTNER_LOST = 0 :=
  Dev.rd_wr_same (d.wr F.PAIR_STATUS_PARTNER_UP 1) F.PAIR_STATUS_PARTNER_LOST 0

/-- A heartbeat to the standby, awake and not waking: the partner's role. -/
theorem execHeartbeat_standby {s : State} (k : Nat) {role : Nat} (hp : s.periRuns = true) (hpair : s.dev.isPair = true) (hrole : s.dev.role = 3)
    (hawake : s.dev.is F.PAIR_STATUS_ASLEEP = false) (hwake : s.dev.pair.wakePending = false) :
    exec (.heartbeat role k) s = .next { s with dev := s.dev.heard.onPair fun p => { p with peerRole := role } } := by
  have hcalm : ¬ ((s.dev.heard.pair.wakePending && s.dev.heard.pair.posDone) = true) := by simp [Dev.heard, hwake]
  refine State.nextPeri_dev hp ((if_neg (by simp [hpair, hrole, hawake])).trans ((if_neg ?_).trans ?_))
  · change ¬ ((decide (role = 2) && s.dev.heard.role == 2) = true)
    simp [hrole]
  · refine (if_neg ?_).trans (congrArg (fun e : Dev => e.onPair fun p => { p with peerRole := role }) (if_neg hcalm))
    change ¬ ((((if (s.dev.heard.pair.wakePending && s.dev.heard.pair.posDone) = true then
      s.dev.heard.onPair fun p => { p with wakePending := false, posDone := false } else s.dev.heard).onPair fun p =>
        { p with peerRole := role }).role == 2 && decide (role = 3) && s.dev.heard.pair.peerRole != 3) = true)
    rw [if_neg hcalm]
    simp [hrole]

/-- What the loss of the partner sets. -/
def Dev.partnerGone (d : Dev) : Dev :=
  (d.onPair fun p => { p with peerRole := 1 }).wrs [(F.PAIR_STATUS_PARTNER_LOST, 1), (F.PAIR_STATUS_PARTNER_UP, 0)]

theorem Dev.partnerGone_lost (d : Dev) : d.partnerGone.rd F.PAIR_STATUS_PARTNER_LOST = 1 :=
  (Dev.rd_wr_ne (Dev.wr _ F.PAIR_STATUS_PARTNER_LOST 1) (f := F.PAIR_STATUS_PARTNER_UP) 0 (by decide)).trans
    (Dev.rd_wr_same _ F.PAIR_STATUS_PARTNER_LOST 1)

theorem execPartnerLost_lost {s : State} (hp : s.periRuns = true) (hrole : s.dev.role = 2) (hawake : s.dev.is F.PAIR_STATUS_ASLEEP = false)
    (hup : s.dev.is F.PAIR_STATUS_PARTNER_LOST = false) : exec .partnerLost s =
      .next { s with dev := s.dev.partnerGone.postInfo 42 0x1A05 (s.dev.partnerGone.rd F.PAIR_COMMIT_SEQ) } :=
  State.nextPeri_dev hp (if_neg (by simp [hrole, hawake, hup]))

/-- The outputs are no longer driven, and armed events are discarded. -/
def Dev.releaseOutputs (d : Dev) : Dev := Dev.dropArmed { d with tb := { d.tb with driving := false } }

theorem Dev.releaseOutputs_driving (d : Dev) : d.releaseOutputs.tb.driving = false :=
  (Dev.samePairing_foldl (fun d q _ => d.samePairing_setQueue q _) _).driving

/-- The device after the capture of a switchover. -/
def Dev.captured (d : Dev) (t : Nat) : Dev :=
  (((d.tbTo t).releaseOutputs.ship 65 0 ((d.tbTo t).capture 7 (d.tbTo t).standMask)).pairSend 0x27
    ((d.tbTo t).capture 7 (d.tbTo t).standMask).seq []).onPair fun p => { p with switching := 2 }

theorem Dev.ship_release_driving (d : Dev) (c : Commit) :
    (((d.ship 65 0 c).pairSend 0x27 c.seq []).onPair fun p => { p with switching := 2 }).tb.driving = d.tb.driving := by
  have h := (d.samePairing_ship 65 0 c).trans (Dev.samePairing_pairSend _ 0x27 c.seq [])
  generalize (d.ship 65 0 c).pairSend 0x27 c.seq [] = e at h ⊢
  exact h.driving

theorem Dev.captured_driving (d : Dev) (t : Nat) : (d.captured t).tb.driving = false :=
  (Dev.ship_release_driving _ _).trans (Dev.releaseOutputs_driving _)

theorem execSwitchoverCapture_due {s : State} (t : Nat) (hp : s.periRuns = true) (hswitch : s.dev.pair.switching = 1)
    (hgates : (List.range 4).any (fun g => (s.dev.gate g).any (·.active)) = false) (hcommit : s.dev.pair.commit = none) :
    exec (.switchoverCapture t) s = .next { s with dev := s.dev.captured t } :=
  State.nextPeri_dev hp (if_neg (by simp [hswitch, hgates, hcommit]))

/-- The device after a takeover. -/
def Dev.takenOver (d : Dev) (t : Nat) : Dev :=
  let e := (((d.tbTo t).setRole 2).sat F.PAIR_CNT_TAKEOVERS).postInfo 42 0x1A01 (((d.tbTo t).setRole 2).rd F.PAIR_COMMIT_SEQ)
  let e := (e.onPair fun p => { p with peerRole := 1, staged := [], stagedSeq := 0 }).wr F.PAIR_STATUS_PARTNER_UP 0
  (e.resyncWords e.blockWords).releaseQueues

theorem Dev.takenOver_pairing {d : Dev} (t : Nat) (h : d.role = 3) :
    (d.takenOver t).pair.peerRole = 1 ∧ (d.takenOver t).rd F.PAIR_STATUS_ROLE = 2 := by
  have hrole := ((d.tbTo t).setRole_pairing (r := 2) (by simp [h]) (by decide)).1
  rw [Dev.takenOver]
  generalize (d.tbTo t).setRole 2 = d1 at hrole ⊢
  have hcount : d1.SamePairing (d1.sat F.PAIR_CNT_TAKEOVERS) := d1.samePairing_wr _ (by decide) (by decide)
  have hevent := hcount.trans (Dev.samePairing_postInfo _ 42 0x1A01 (d1.rd F.PAIR_COMMIT_SEQ))
  generalize (d1.sat F.PAIR_CNT_TAKEOVERS).postInfo 42 0x1A01 (d1.rd F.PAIR_COMMIT_SEQ) = d2 at hevent ⊢
  have hup := Dev.samePairing_wr (d2.onPair fun p => { p with peerRole := 1, staged := [], stagedSeq := 0 }) (f := F.PAIR_STATUS_PARTNER_UP) 0
    (by decide) (by decide)
  generalize (d2.onPair fun p => { p with peerRole := 1, staged := [], stagedSeq := 0 }).wr F.PAIR_STATUS_PARTNER_UP 0 = d3 at hup ⊢
  have hlast := hup.trans (d3.samePairing_resyncWords.trans (Dev.samePairing_releaseQueues _))
  exact ⟨hlast.peerRole, hlast.role.trans (hevent.role.trans hrole)⟩

theorem execTakeover_standby {s : State} (t : Nat) (hp : s.periRuns = true) (hrole : s.dev.role = 3) (hauto : s.dev.is F.PAIR_CFG_AUTO = true)
    (hawake : s.dev.is F.PAIR_STATUS_ASLEEP = false) : exec (.takeover t) s = .next { s with dev := s.dev.takenOver t } :=
  State.nextPeri_dev hp (if_neg (by simp [hrole, hauto, hawake]))

/-- Settles O60. -/
theorem pairEvents : Obligations.PairEvents := by
  unfold Obligations.PairEvents
  intro s req role id gen st rc oc t k q w v n ld x bs c i b cmd me acked lost
  refine ⟨fun h hq hm hr hpr hl hc => State.goHead_next h ?commit, fun hr hb hpair => ⟨?switchover, ?sleep, ?wake⟩,
    fun hp => ⟨?hello, ?heartbeat, ?bothActive, ?beat, ?takeover, ?lost, ?alone, ?mirror, ?otherCommit, ?applied, ?ack, ?ackTimeout, ?posReq, ?pos,
      ?posTimer, ?capture, ?release, ?asleep⟩⟩
  case commit =>
    have hpair : ¬ ((!s.dev.isPair) = true) := by simp [Dev.isPair_of_role (d := s.dev) (by omega)]
    exact (if_neg hpair).trans ((if_neg (by simp [hq])).trans ((if_neg (ne_true_of_eq_false hm)).trans
      ((if_neg (by simp [hr, hpr, hl])).trans (if_neg (by simp [hc])))))
  case switchover =>
    intro hrole hawake hpeer
    exact State.devReg_dev hr (Dev.pairCmd_switchover hb hpair hrole hawake hpeer)
  case sleep =>
    intro hrole hawake hport
    exact State.devReg_dev hr (Dev.pairCmd_sleep hb hpair hrole hawake hport)
  case wake =>
    intro hasleep
    refine ⟨_, State.devReg_dev hr (Dev.pairCmd_wake hb hpair hasleep), rfl, ?_, Dev.rd_wr_same _ (F.CLS_PORT_STAT_STATE 3) 3⟩
    exact (Dev.rd_wr_ne (Dev.wr _ F.PAIR_STATUS_ASLEEP 0) (f := F.CLS_PORT_STAT_STATE 3) 3 (by decide)).trans
      (Dev.rd_wr_same _ F.PAIR_STATUS_ASLEEP 0)
  case hello =>
    intro hpair hrole
    exact State.nextPeri_dev hp (if_neg (by simp [hpair, hrole]))
  case heartbeat =>
    intro hpair hrole hawake hwake
    exact ⟨_, execHeartbeat_standby k hp hpair hrole hawake hwake, rfl, s.dev.heard_up, s.dev.heard_lost⟩
  case bothActive =>
    intro hpair hrole hawake
    refine State.nextPeri_dev hp ((if_neg (by simp [hpair, hrole, hawake])).trans ((if_pos ?_).trans ?_))
    · change (decide (2 = 2) && s.dev.heard.role == 2) = true
      simp [hrole]
    · exact congrArg s.dev.heard.split (s.dev.heard_rd (f := F.PAIR_STATUS_PARTNER_ID) (by decide) (by decide))
  case beat =>
    intro hlink hrole
    exact State.nextPeri_dev hp (if_pos (by simp [hlink, hrole]))
  case takeover =>
    intro hrole hauto hawake
    obtain ⟨hpeer, hactive⟩ := Dev.takenOver_pairing t hrole
    refine ⟨_, execTakeover_standby t hp hrole hauto hawake, ?_⟩
    dsimp only
    exact ⟨hpeer, hactive, rfl⟩
  case lost =>
    intro hrole hawake hup
    have hevent := s.dev.partnerGone.samePairing_postInfo 42 0x1A05 (s.dev.partnerGone.rd F.PAIR_COMMIT_SEQ)
    refine ⟨_, execPartnerLost_lost hp hrole hawake hup, ?_⟩
    dsimp only
    exact ⟨hevent.peerRole, hevent.lost.trans s.dev.partnerGone_lost⟩
  case alone =>
    intro hrole hstage hport
    exact State.nextPeri_dev hp (if_pos (by simp [hrole, hport, hstage]))
  case mirror =>
    intro hrole
    exact State.nextPeri_dev hp (if_neg (by simp [hrole]))
  case otherCommit =>
    intro hrole hseq
    refine State.nextPeri_dev hp ((if_neg (by simp [hrole])).trans ?_)
    have hwhole : ((s.dev.pair.stagedSeq == k && ((List.range (v + 1)).map fun j => fget s.dev.pair.staged j).all Option.isSome) ||
        v + 1 == 0) = false := by simp [hseq]
    simp only [hwhole, Bool.false_eq_true, if_false]
  case applied =>
    intro hrole hseq hparts hc
    refine State.nextPeri_dev hp ((if_neg (by simp [hrole])).trans ?_)
    have hwhole : (s.dev.pair.stagedSeq == k && ((List.range v).map fun j => fget s.dev.pair.staged j).all Option.isSome) = true := by
      simp [hseq, Option.isSome_iff_ne_none]
      exact hparts
    simp only [hwhole, Bool.true_or, if_true, List.map_map, Function.comp_def, hc]
  case ack =>
    intro hcommit hseq
    refine ⟨fun hlt hi => State.nextPeri_dev hp ?_, fun hmirror => State.nextPeri_dev hp ?_, fun hswitch => State.nextPeri_dev hp ?_⟩
    all_goals simp only [hcommit]
    · refine (if_neg (by simp [hseq])).trans ((if_pos hlt).trans ?_)
      have hissued : acked.bySeq q n = some i := hi
      simp only [acked] at hissued
      simp only [hissued, acked]
    · exact (if_neg (by simp [hseq])).trans ((if_neg (by omega)).trans (if_neg (by omega)))
    · exact (if_neg (by simp [hseq])).trans ((if_neg (by omega)).trans (if_pos hswitch))
  case ackTimeout =>
    intro hcommit
    refine ⟨fun hlt hi => State.nextPeri_dev hp ?_, fun hmirror => State.nextPeri_dev hp ?_, fun hswitch => State.nextPeri_dev hp ?_⟩
    all_goals simp only [Dev.commitLost, hcommit]
    · refine (if_pos hlt).trans ?_
      have hissued : lost.bySeq q n = some i := hi
      simp only [lost] at hissued
      simp only [hissued, lost]
    · exact (if_neg (by omega)).trans (if_neg (by omega))
    · exact (if_neg (by omega)).trans (if_pos hswitch)
  case posReq =>
    intro hlink
    exact State.nextPeri_dev hp (if_neg (by simp [hlink]))
  case pos =>
    intro hrole hwake
    refine State.nextPeri_dev hp ((if_neg (by simp [hrole])).trans (if_pos ?_))
    change (!s.dev.pair.wakePending) = true
    simp [hwake]
  case posTimer =>
    intro hrole hlink
    exact State.nextPeri_dev hp (if_pos (by simp [hlink, hrole]))
  case capture =>
    intro hswitch hgates hcommit
    exact ⟨_, execSwitchoverCapture_due t hp hswitch hgates hcommit, rfl, s.dev.captured_driving t, rfl⟩
  case release =>
    intro hrole happlied hseq
    exact State.nextPeri_dev hp (if_neg (by simp [hrole, happlied, hseq]))
  case asleep =>
    intro hlink hrole
    exact State.nextPeri_dev hp ((if_neg (by simp [hlink]; omega)).trans (if_pos rfl))

end Sys2Proof.Machine
end
